-- ==== Sys2Proof/Word.lean ====
section
/-! DEFINITION. The word types of the JMD-9640 and the keyed list that every sparse store of the state is. -/

namespace Sys2Proof

/-- A register, an address or a value of 64 bits (05 R91). -/
abbrev Word := BitVec 64

/-- The smallest addressable unit (00 R4). -/
abbrev Byte := BitVec 8

/-- A parcel of instruction memory (03 R43). -/
abbrev Parcel := BitVec 16

/-- Sparse data by key: keys strictly rising, so that equal contents are equal lists. -/
abbrev AMap (V : Type) := List (Nat × V)

end Sys2Proof
end

