-- ==== Sys2Proof/Config.lean ====
section
/-! DEFINITION. What an implementation fixes and what the manual leaves free: constants with no body. -/

namespace Sys2Proof.Config

/-- Free values, indexed by the counter `State.fresh` (log 9). -/
opaque freeValue : Nat → BitVec 64

/-- The value of a table function of a version other than 1 on an FP32 operand, before it is rounded:
12 R268 lets a firmware image carry its own construction (log 9). Arguments: function code, version, operand bits. -/
opaque tableOther : Nat → Nat → BitVec 32 → BitVec 32

/-- SHAKE256 with 512 bits of output (23 R430 names it; its definition is a standard outside spec/, log 9). -/
opaque shake256 : List Byte → BitVec 512

/-- The SPDM responder's response to a request, given the measurement registers (23 R431 names the messages and
gives their contents only for GET_MEASUREMENTS, log 9). Arguments: request code, request bytes, MR0 to MR7. -/
opaque spdmResponse : Nat → List Byte → List (BitVec 512) → List Byte

/-- A measurement report: the request, and for each block its number and the register that it reports (23 R431 gives what
it reports, not its bytes, log 9). -/
opaque spdmReport : List Byte → List (Nat × BitVec 512) → List Byte

/-- The device identity key's signature over a report (23 R431, log 9). -/
opaque signature : List Byte → List Byte

/-- The keys that an IDE_KM message programs (23 R423, log 9). -/
opaque ideKeys : List Byte → List Byte

/-- The two wear estimates of a cell for the sampling interval that ends on a cycle, in units of 2^-32 WU: they come from
sensors (21 R402, log 8). Arguments: cycle, unit. -/
opaque wearReading : Nat → Nat → BitVec 64 × BitVec 64

/-- The slot of the die at the other end of the link of LNKST register n, which leads to a die of the package: the spec
does not give the topology of links (15 R312, log 13). -/
opaque linkPeer : Nat → Nat

/-- The link port of LNKST register n is fitted, and trains at bring-up (15 Table 15-5 PRES, log 13). -/
opaque portTrained : Nat → Bool

/-- What the eye-margin monitor of a port shows: a sensor (15 Table 15-5 MARGIN, log 13). Arguments: cycle, LNKST register. -/
opaque eyeMargin : Nat → Nat → BitVec 8

/-- The version numbers that staged firmware images leave in TBLVER: an image may carry tables, and the spec does not give
the layout of images (12 R269, 23 R428, log 84). Arguments: the images staged, TBLVER of the images that came before. -/
opaque tableVersions : List (List Byte) → BitVec 64 → BitVec 64

/-- The image of the fuses and the mix that bring-up measures into MR5 (23 R430, log 97). Arguments: DIEMIX, DIECELL. -/
opaque mixImage : List (BitVec 32) → List (BitVec 32) → List Byte

end Sys2Proof.Config
end

