-- ==== Sys2Proof/Syntax.lean ====
section
/-! DEFINITION. The steps of the JMD-9640: every row of the opcode table is one constructor of `Instr`. Rows with an
encoding carry the fields of their words (03 R45, R51 to R53, R55; 05 R117); rows that are events of the device, of a
host port or of the neighbour package carry the operands of the event. -/

namespace Sys2Proof

/-- Who issues words: the A-seq or the X-seq of a cell of a gang, or a control core (04 R70, 07 R145). A cell is named
by `(partition * 1024 + GID) * 512 + logical index`. -/
inductive Agent where
  | aseq (cell : Nat)
  | xseq (cell : Nat)
  | core (k : Nat)
  deriving DecidableEq, Repr

/-- The common fields of an engine command (03 R50). -/
structure EngineFlags where
  ce : Bool
  cnt : BitVec 5
  acq : Bool
  rel : Bool
  scope : BitVec 3
  tag : Bool
  deriving DecidableEq, Repr

/-- What die self-test, fuses and the boot media answer at package reset (01 R15 to R17, 23 R430): inputs of Barsal. -/
structure SelfTest where
  /-- Bit s: the die in slot s passed self-test. -/
  dies : BitVec 32
  /-- Bit s: the identity fuses of the die in slot s could be read. -/
  fuses : BitVec 32
  /-- For each slot, the units that failed self-test; slots beyond the list have none. -/
  failedUnits : List (BitVec 32)
  /-- Images loaded: measurement register (0 to 4, and 7 for a runtime extension) and bytes. -/
  images : List (Nat × List (BitVec 8))
  deriving DecidableEq, Repr

/-- A stored word that an upset or a scrub can name (22 Table 22-1). -/
inductive Store where
  /-- The aligned 8-byte unit of a slice or of HBM at a location of `State.mem`. -/
  | unit (loc : Nat)
  /-- Element `elem` (4096 t + 64 i + j) of the accumulator banks of a cell. -/
  | acc (cell elem : Nat)
  /-- A cap-bank buffer of a parked cell. -/
  | cap (cell : Nat)
  /-- A line of a memory-side cache over an HBM unit, clean or dirty. -/
  | cacheLine (loc : Nat) (dirty : Bool)
  /-- Entry `entry` of an array of a unit whose words are fetched again: 3 instruction cache or loop buffer, 4 read-only cache,
  7 TLB. -/
  | dropped (unit array entry : Nat)
  /-- Sequencer registers, latches, queues or counters of an A-seq, an X-seq or a control core. -/
  | sequencer (ag : Agent)
  /-- A flit on a link. -/
  | flit (link : Nat)
  deriving DecidableEq, Repr

/-- An access of a host: to partition HBM over CXL.mem (23 R423), or to a register of BAR0 over CXL.io (23 R424). -/
inductive HostAccess where
  | read (pa len : Nat)
  | write (pa : Nat) (data : List (BitVec 8))
  | readRegister (off : Nat)
  | writeRegister (off : Nat) (v : BitVec 64)
  deriving DecidableEq, Repr

/-- The steps. Each constructor is one row of spec/opcode_table.json: in the table's order, but inputs from outside stand
after what the device does itself, and steps without operands last. -/
inductive Instr where
  /-- BLK_IMMEDIATE (04 R73). -/
  | blkImmediate (n : BitVec 13) (l : BitVec 12)
  /-- BLK_REGISTER (04 R73). -/
  | blkRegister (sel : BitVec 6) (l : BitVec 12)
  /-- BR (04 R81). -/
  | br (off : BitVec 17)
  /-- BZ (04 R81). -/
  | bz (a : BitVec 5) (off : BitVec 17)
  /-- BNZ (04 R81). -/
  | bnz (a : BitVec 5) (off : BitVec 17)
  /-- DCBNZ (04 R81). -/
  | dcbnz (a : BitVec 5) (off : BitVec 17)
  /-- CALL (04 R82). -/
  | call (off : BitVec 17)
  /-- CALLR (04 R82). -/
  | callr (a : BitVec 5)
  /-- RET (04 R82). -/
  | ret (a : BitVec 5)
  /-- BQPUSH (04 R83). -/
  | bqpush (a : BitVec 5)
  /-- HALT (04 R85). -/
  | halt (code : BitVec 17)
  /-- BQT (04 R83). -/
  | bqt (off : BitVec 17)
  /-- BQF (04 R83). -/
  | bqf (off : BitVec 17)
  /-- BRK (03 R53, Table 3-4). -/
  | brk (code10 : BitVec 10)
  /-- ADD_SHORT (03 R53, Table 3-4). -/
  | addShort (d : BitVec 5) (a : BitVec 5)
  /-- ADDI_SHORT (03 R53, Table 3-4). -/
  | addiShort (d : BitVec 5) (imm : BitVec 5)
  /-- BR_SHORT (03 R53, Table 3-4). -/
  | brShort (off10 : BitVec 10)
  /-- CWAIT_SHORT (03 R53, Table 3-4). -/
  | cwaitShort (n : BitVec 5) (v : BitVec 5)
  /-- CINC_SHORT (03 R53, Table 3-4). -/
  | cincShort (n : BitVec 5) (v1 : BitVec 5)
  /-- TNEXT_SHORT (03 R53, Table 3-4). -/
  | tnextShort (d : BitVec 5)
  /-- BQT_SHORT (03 R53, Table 3-4). -/
  | bqtShort (off10 : BitVec 10)
  /-- MOV_SHORT (03 R53, Table 3-4). -/
  | movShort (d : BitVec 5) (a : BitVec 5)
  /-- SUB_SHORT (03 R53, Table 3-4). -/
  | subShort (d : BitVec 5) (a : BitVec 5)
  /-- DCBNZ_SHORT (03 R53, Table 3-4). -/
  | dcbnzShort (a : BitVec 5) (off1 : BitVec 5)
  /-- ADD (05 R96). -/
  | add (d : BitVec 5) (a : BitVec 5) (b : BitVec 5) (sh : BitVec 5)
  /-- SUB (05 R96). -/
  | sub (d : BitVec 5) (a : BitVec 5) (b : BitVec 5)
  /-- AND (05 R96). -/
  | and (d : BitVec 5) (a : BitVec 5) (b : BitVec 5)
  /-- OR (05 R96). -/
  | or (d : BitVec 5) (a : BitVec 5) (b : BitVec 5)
  /-- XOR (05 R96). -/
  | xor (d : BitVec 5) (a : BitVec 5) (b : BitVec 5)
  /-- ANDN (05 R96). -/
  | andn (d : BitVec 5) (a : BitVec 5) (b : BitVec 5)
  /-- SHL (05 R96). -/
  | shl (d : BitVec 5) (a : BitVec 5) (b : BitVec 5)
  /-- SHR (05 R96). -/
  | shr (d : BitVec 5) (a : BitVec 5) (b : BitVec 5)
  /-- SRA (05 R96). -/
  | sra (d : BitVec 5) (a : BitVec 5) (b : BitVec 5)
  /-- SLT (05 R96). -/
  | slt (d : BitVec 5) (a : BitVec 5) (b : BitVec 5)
  /-- SLTU (05 R96). -/
  | sltu (d : BitVec 5) (a : BitVec 5) (b : BitVec 5)
  /-- MIN (05 R96). -/
  | min (d : BitVec 5) (a : BitVec 5) (b : BitVec 5)
  /-- MAX (05 R96). -/
  | max (d : BitVec 5) (a : BitVec 5) (b : BitVec 5)
  /-- MINU (05 R96). -/
  | minu (d : BitVec 5) (a : BitVec 5) (b : BitVec 5)
  /-- MAXU (05 R96). -/
  | maxu (d : BitVec 5) (a : BitVec 5) (b : BitVec 5)
  /-- MOV (05 R97). -/
  | mov (d : BitVec 5) (a : BitVec 5) (cls : BitVec 5)
  /-- ADDI (05 R98). -/
  | addi (d : BitVec 5) (a : BitVec 5) (imm : BitVec 12)
  /-- ANDI (05 R98). -/
  | andi (d : BitVec 5) (a : BitVec 5) (imm : BitVec 12)
  /-- ORI (05 R98). -/
  | ori (d : BitVec 5) (a : BitVec 5) (imm : BitVec 12)
  /-- XORI (05 R98). -/
  | xori (d : BitVec 5) (a : BitVec 5) (imm : BitVec 12)
  /-- SHLI (05 R98). -/
  | shli (d : BitVec 5) (a : BitVec 5) (imm : BitVec 12)
  /-- SHRI (05 R98). -/
  | shri (d : BitVec 5) (a : BitVec 5) (imm : BitVec 12)
  /-- SRAI (05 R98). -/
  | srai (d : BitVec 5) (a : BitVec 5) (imm : BitVec 12)
  /-- SLTI (05 R98). -/
  | slti (d : BitVec 5) (a : BitVec 5) (imm : BitVec 12)
  /-- SLTIU (05 R98). -/
  | sltiu (d : BitVec 5) (a : BitVec 5) (imm : BitVec 12)
  /-- MINI (05 R98). -/
  | mini (d : BitVec 5) (a : BitVec 5) (imm : BitVec 12)
  /-- MAXI (05 R98). -/
  | maxi (d : BitVec 5) (a : BitVec 5) (imm : BitVec 12)
  /-- SEQI (05 R98). -/
  | seqi (d : BitVec 5) (a : BitVec 5) (imm : BitVec 12)
  /-- LI (05 R99). -/
  | li (d : BitVec 5) (imm : BitVec 17)
  /-- LSH (05 R99). -/
  | lsh (d : BitVec 5) (imm : BitVec 17)
  /-- LOWN (05 R99). -/
  | lown (d : BitVec 5) (imm : BitVec 17)
  /-- LPC (05 R99). -/
  | lpc (d : BitVec 5) (imm : BitVec 17)
  /-- CLZ (05 R101). -/
  | clz (d : BitVec 5) (a : BitVec 5) (w : BitVec 5)
  /-- FFS (05 R101). -/
  | ffs (d : BitVec 5) (a : BitVec 5) (w : BitVec 5)
  /-- POPC (05 R101). -/
  | popc (d : BitVec 5) (a : BitVec 5) (w : BitVec 5)
  /-- PADD (05 R102). -/
  | padd (d : BitVec 5) (a : BitVec 5) (b : BitVec 5) (m : BitVec 5)
  /-- PSUB (05 R102). -/
  | psub (d : BitVec 5) (a : BitVec 5) (b : BitVec 5) (m : BitVec 5)
  /-- BFX (05 R103). -/
  | bfx (d : BitVec 5) (a : BitVec 5) (b : BitVec 5) (len1 : BitVec 5)
  /-- MUL (05 R104). -/
  | mul (d : BitVec 5) (a : BitVec 5) (b : BitVec 5)
  /-- MULH (05 R104). -/
  | mulh (d : BitVec 5) (a : BitVec 5) (b : BitVec 5)
  /-- MULHU (05 R104). -/
  | mulhu (d : BitVec 5) (a : BitVec 5) (b : BitVec 5)
  /-- DIV (05 R105). -/
  | div (d : BitVec 5) (a : BitVec 5) (b : BitVec 5)
  /-- REM (05 R105). -/
  | rem (d : BitVec 5) (a : BitVec 5) (b : BitVec 5)
  /-- DIVU (05 R105). -/
  | divu (d : BitVec 5) (a : BitVec 5) (b : BitVec 5)
  /-- REMU (05 R105). -/
  | remu (d : BitVec 5) (a : BitVec 5) (b : BitVec 5)
  /-- MADD (05 R104). -/
  | madd (d : BitVec 5) (a : BitVec 5) (b : BitVec 5)
  /-- MV_SHORT (03 R52). -/
  | mvShort (t : BitVec 2) (d : BitVec 7) (src : BitVec 5)
  /-- MV (05 R117). -/
  | mv (r : BitVec 3) (t : BitVec 2) (d : BitVec 7) (src : BitVec 5)
  /-- MVI (05 R117). -/
  | mvi (t : BitVec 2) (d : BitVec 7) (imm : BitVec 11)
  /-- MOVE_TRANSPORT (05 R107). -/
  | moveTransport (cell : Nat)
  /-- XSEQ_OPERATION_COMPLETE (05 R110). -/
  | xseqOperationComplete (cell : Nat)
  /-- XSEQ_FREEZE_END (05 R109). -/
  | xseqFreezeEnd (cell : Nat)
  /-- BQ_ENTRY_VISIBLE (04 R84). -/
  | bqEntryVisible (cell : Nat)
  /-- LD (06 R139). -/
  | ld (d : BitVec 5) (a : BitVec 5) (imm : BitVec 12)
  /-- LDS (06 R139). -/
  | lds (d : BitVec 5) (a : BitVec 5) (imm : BitVec 12)
  /-- ST (06 R139). -/
  | st (d : BitVec 5) (a : BitVec 5) (imm : BitVec 12)
  /-- PREF (06 R140). -/
  | pref (a : BitVec 5) (imm : BitVec 12)
  /-- LOAD_RETURN (06 R137). -/
  | loadReturn (ag : Agent) (id : Nat)
  /-- QLD (06 R141). -/
  | qld (q : BitVec 5) (a : BitVec 5) (imm : BitVec 12)
  /-- QST (06 R141). -/
  | qst (q : BitVec 5) (a : BitVec 5) (imm : BitVec 12)
  /-- QLDI (06 R141). -/
  | qldi (q : BitVec 5) (a : BitVec 5) (imm : BitVec 12)
  /-- QSTI (06 R141). -/
  | qsti (q : BitVec 5) (a : BitVec 5) (imm : BitVec 12)
  /-- QUEUE_LOAD_FILL (06 R138). -/
  | queueLoadFill (ag : Agent) (id : Nat)
  /-- CADR_G (06 R143). -/
  | cadrG (d : BitVec 5) (a : BitVec 5) (b : BitVec 5)
  /-- CADR_B (06 R143). -/
  | cadrB (d : BitVec 5) (a : BitVec 5) (b : BitVec 5)
  /-- PCHK (06 R144). -/
  | pchk (d : BitVec 5) (a : BitVec 5) (m : BitVec 5)
  /-- BIND (07 R164). -/
  | bind (d : BitVec 5) (a : BitVec 5) (b : BitVec 5)
  /-- UNBIND (07 R164). -/
  | unbind (d : BitVec 5) (a : BitVec 5)
  /-- ACQ (07 R164). -/
  | acq (d : BitVec 5) (a : BitVec 5) (b : BitVec 5) (m : BitVec 5)
  /-- REL (07 R164). -/
  | rel (d : BitVec 5) (a : BitVec 5) (m : BitVec 5)
  /-- FENCE (07 R161). -/
  | fence (m : BitVec 5)
  /-- XFER (07 R164). -/
  | xfer (d : BitVec 5) (a : BitVec 5) (b : BitVec 5) (m : BitVec 5)
  /-- OINIT (07 R164). -/
  | oinit (a : BitVec 5) (b : BitVec 5)
  /-- RELEASE_PERFORMED (07 R160). -/
  | releasePerformed (ag : Agent) (id : Nat)
  /-- XFER_PERFORMED (07 R164). -/
  | xferPerformed (ag : Agent) (id : Nat)
  /-- CWAIT (08 R174). -/
  | cwait (n : BitVec 5) (a : BitVec 5) (imm : BitVec 12)
  /-- CWAITLT (08 R177). -/
  | cwaitlt (n : BitVec 5) (k : BitVec 5) (imm : BitVec 12)
  /-- CINC (08 R177). -/
  | cinc (n : BitVec 5) (imm : BitVec 12)
  /-- CRINC (08 R175). -/
  | crinc (n : BitVec 5) (a : BitVec 5) (imm : BitVec 12)
  /-- CSET (08 R177). -/
  | cset (n : BitVec 5) (a : BitVec 5)
  /-- CREAD (08 R177). -/
  | cread (d : BitVec 5) (n : BitVec 5)
  /-- CSTAT (08 R177). -/
  | cstat (d : BitVec 5) (n : BitVec 5) (clr : BitVec 12)
  /-- TINV (08 R186). -/
  | tinv (c : BitVec 5) (a : BitVec 5)
  /-- TVAL (08 R186). -/
  | tval (c : BitVec 5) (a : BitVec 5)
  /-- TREAD (08 R186). -/
  | tread (d : BitVec 5) (a : BitVec 5)
  /-- CRINC_ARRIVAL (08 R170). -/
  | crincArrival (gang : Nat) (idx : Nat)
  /-- AMO (08 R189). -/
  | amo (d : BitVec 5) (a : BitVec 5) (b : BitVec 5) (m : BitVec 5)
  /-- RED (08 R189). -/
  | red (a : BitVec 5) (b : BitVec 5) (m : BitVec 5)
  /-- SWAP (08 R189). -/
  | swap (d : BitVec 5) (a : BitVec 5) (b : BitVec 5) (m : BitVec 5)
  /-- CAS (08 R189). -/
  | cas (d : BitVec 5) (a : BitVec 5) (b : BitVec 5) (m : BitVec 5)
  /-- ATOMIC_PERFORM (08 R187). -/
  | atomicPerform (ag : Agent) (id : Nat)
  /-- ACCALLOC (09 R196). -/
  | accalloc (d : BitVec 5) (n : BitVec 12)
  /-- ACCFREE (09 R196). -/
  | accfree (a : BitVec 5) (n : BitVec 12)
  /-- MXMM (09 R205-R208). -/
  | mxmm (e : EngineFlags) (fmt : BitVec 3) (ck : Bool) (new : Bool) (zs : Bool) (tm : BitVec 2) (sA : BitVec 5) (sB : BitVec 5) (sS : BitVec 5) (sD : BitVec 5) (sT : BitVec 5) (sXA : BitVec 5) (sXB : BitVec 5)
  /-- MXLD (09 R210). -/
  | mxld (e : EngineFlags) (accum : Bool) (i32 : Bool) (tm : BitVec 2) (sA : BitVec 5) (sS : BitVec 5) (sD : BitVec 5) (sT : BitVec 5)
  /-- MXCLR (09 R210). -/
  | mxclr (e : EngineFlags) (tm : BitVec 2) (sD : BitVec 5) (sT : BitVec 5)
  /-- MXMMA (09 R210). -/
  | mxmma (e : EngineFlags) (new : Bool) (zs : Bool) (tm : BitVec 2) (sB : BitVec 5) (sS : BitVec 5) (sD : BitVec 5) (sT : BitVec 5)
  /-- MXMV (09 R210). -/
  | mxmv (e : EngineFlags) (tr : Bool) (tm : BitVec 2) (sD : BitVec 5) (sT : BitVec 5)
  /-- MXMARK (09 R210). -/
  | mxmark (e : EngineFlags)
  /-- MXMARK_STAMPED (09 R210). -/
  | mxmarkStamped (e : EngineFlags) (tm : BitVec 2) (sT : BitVec 5)
  /-- MXDRN (10 R223). -/
  | mxdrn (e : EngineFlags) (k : BitVec 2) (ck : Bool) (tm : BitVec 2) (sA : BitVec 5) (sB : BitVec 5) (sS : BitVec 5) (sD : BitVec 5) (sT : BitVec 5)
  /-- MXEPL (10 R222). -/
  | mxepl (e : EngineFlags) (k : BitVec 2) (sA : BitVec 5)
  /-- MXCKS (10 R228). -/
  | mxcks (e : EngineFlags) (sD : BitVec 5)
  /-- MXDRS (10 R224). -/
  | mxdrs (e : EngineFlags) (k : BitVec 2) (ck : Bool) (tm : BitVec 2) (sB : BitVec 5) (sD : BitVec 5) (sT : BitVec 5)
  /-- MXSHP (10 R234). -/
  | mxshp (e : EngineFlags) (k : BitVec 2) (sA : BitVec 5)
  /-- MXCV (10 R236). -/
  | mxcv (e : EngineFlags) (k : BitVec 2) (ck : Bool) (new : Bool) (zs : Bool) (tm : BitVec 2) (sA : BitVec 5) (sB : BitVec 5) (sS : BitVec 5) (sD : BitVec 5) (sT : BitVec 5)
  /-- DRAIN_CHECK_RESOLVE (10 R229). -/
  | drainCheckResolve (cell : Nat) (id : Nat)
  /-- VADD (11 R249). -/
  | vadd (e : EngineFlags) (rm : BitVec 3) (fmt : BitVec 2) (um : Bool) (sD : BitVec 5) (sA : BitVec 5) (sB : BitVec 5) (sE : BitVec 5)
  /-- VSUB (11 R249). -/
  | vsub (e : EngineFlags) (rm : BitVec 3) (fmt : BitVec 2) (um : Bool) (sD : BitVec 5) (sA : BitVec 5) (sB : BitVec 5) (sE : BitVec 5)
  /-- VMUL (11 R249). -/
  | vmul (e : EngineFlags) (rm : BitVec 3) (fmt : BitVec 2) (um : Bool) (sD : BitVec 5) (sA : BitVec 5) (sB : BitVec 5) (sE : BitVec 5)
  /-- VFMA (11 R249). -/
  | vfma (e : EngineFlags) (rm : BitVec 3) (fmt : BitVec 2) (um : Bool) (sD : BitVec 5) (sA : BitVec 5) (sB : BitVec 5) (sC : BitVec 5) (sE : BitVec 5)
  /-- VMIN (11 R249). -/
  | vmin (e : EngineFlags) (fmt : BitVec 2) (um : Bool) (sD : BitVec 5) (sA : BitVec 5) (sB : BitVec 5)
  /-- VMAX (11 R249). -/
  | vmax (e : EngineFlags) (fmt : BitVec 2) (um : Bool) (sD : BitVec 5) (sA : BitVec 5) (sB : BitVec 5)
  /-- VDIV (11 R249). -/
  | vdiv (e : EngineFlags) (rm : BitVec 3) (fmt : BitVec 2) (um : Bool) (sD : BitVec 5) (sA : BitVec 5) (sB : BitVec 5) (sE : BitVec 5)
  /-- VSQRT (11 R249). -/
  | vsqrt (e : EngineFlags) (rm : BitVec 3) (fmt : BitVec 2) (um : Bool) (sD : BitVec 5) (sA : BitVec 5) (sE : BitVec 5)
  /-- VSGN (11 R249). -/
  | vsgn (e : EngineFlags) (fmt : BitVec 2) (op : BitVec 2) (um : Bool) (sD : BitVec 5) (sA : BitVec 5) (sB : BitVec 5)
  /-- VCMP (11 R249). -/
  | vcmp (e : EngineFlags) (cond : BitVec 3) (fmt : BitVec 2) (um : Bool) (sD : BitVec 5) (sA : BitVec 5) (sB : BitVec 5)
  /-- VRSC (11 R252). -/
  | vrsc (e : EngineFlags) (rm : BitVec 3) (fmt : BitVec 2) (um : Bool) (sD : BitVec 5) (sA : BitVec 5) (sB : BitVec 5) (sC : BitVec 5) (sE : BitVec 5)
  /-- VRST (11 R252). -/
  | vrst (e : EngineFlags) (fmt : BitVec 2) (op : BitVec 2) (um : Bool) (sD : BitVec 5) (sA : BitVec 5) (sE : BitVec 5)
  /-- VIADD (11 R250). -/
  | viadd (e : EngineFlags) (iw : BitVec 2) (sat : BitVec 2) (um : Bool) (sD : BitVec 5) (sA : BitVec 5) (sB : BitVec 5)
  /-- VISUB (11 R250). -/
  | visub (e : EngineFlags) (iw : BitVec 2) (sat : BitVec 2) (um : Bool) (sD : BitVec 5) (sA : BitVec 5) (sB : BitVec 5)
  /-- VIMUL (11 R250). -/
  | vimul (e : EngineFlags) (iop : BitVec 3) (iw : BitVec 2) (sat : BitVec 2) (um : Bool) (sD : BitVec 5) (sA : BitVec 5) (sB : BitVec 5)
  /-- VILOG (11 R250). -/
  | vilog (e : EngineFlags) (iop : BitVec 3) (iw : BitVec 2) (um : Bool) (sD : BitVec 5) (sA : BitVec 5) (sB : BitVec 5)
  /-- VISHF (11 R250). -/
  | vishf (e : EngineFlags) (iop : BitVec 3) (iw : BitVec 2) (um : Bool) (sD : BitVec 5) (sA : BitVec 5) (sB : BitVec 5)
  /-- VICMP (11 R250). -/
  | vicmp (e : EngineFlags) (iop : BitVec 3) (iw : BitVec 2) (um : Bool) (sD : BitVec 5) (sA : BitVec 5) (sB : BitVec 5)
  /-- VSEL (11 R250). -/
  | vsel (e : EngineFlags) (iw : BitVec 2) (um : Bool) (sD : BitVec 5) (sA : BitVec 5) (sB : BitVec 5) (sC : BitVec 5)
  /-- VCVT (11 R251). -/
  | vcvt (e : EngineFlags) (rm : BitVec 3) (df : BitVec 4) (um : Bool) (sat : Bool) (sD : BitVec 5) (sA : BitVec 5) (sf : BitVec 5) (sC : BitVec 5) (sE : BitVec 5)
  /-- VRED (11 R253). -/
  | vred (e : EngineFlags) (fmt : BitVec 2) (op : BitVec 2) (um : Bool) (sD : BitVec 5) (sA : BitVec 5) (sE : BitVec 5)
  /-- VDOT (11 R253). -/
  | vdot (e : EngineFlags) (fmt : BitVec 2) (um : Bool) (sD : BitVec 5) (sA : BitVec 5) (sB : BitVec 5) (sE : BitVec 5)
  /-- VSCAN (11 R252). -/
  | vscan (e : EngineFlags) (fmt : BitVec 2) (op : BitVec 2) (um : Bool) (sD : BitVec 5) (sA : BitVec 5) (sE : BitVec 5)
  /-- VBCAST (11 R250). -/
  | vbcast (e : EngineFlags) (iw : BitVec 2) (um : Bool) (sD : BitVec 5) (sA : BitVec 5)
  /-- MPUSH (11 R255). -/
  | mpush (e : EngineFlags) (sA : BitVec 5)
  /-- MINV (11 R255). -/
  | minv (e : EngineFlags)
  /-- MPOP (11 R255). -/
  | mpop (e : EngineFlags)
  /-- BMZ (11 R257). -/
  | bmz (off : BitVec 17)
  /-- TFN (12 R272). -/
  | tfn (e : EngineFlags) (fn : BitVec 4) (fmt : BitVec 2) (sr : Bool) (sD : BitVec 5) (sA : BitVec 5) (sE : BitVec 5)
  /-- TFNX (12 R272). -/
  | tfnx (e : EngineFlags) (fn : BitVec 4) (fmt : BitVec 2) (sr : Bool) (sD : BitVec 5) (sA : BitVec 5) (sB : BitVec 5) (sC : BitVec 5) (sE : BitVec 5)
  /-- TVER (12 R272). -/
  | tver (e : EngineFlags) (sD : BitVec 5)
  /-- TVCHK (12 R272). -/
  | tvchk (e : EngineFlags) (sA : BitVec 5)
  /-- CPY (13 R280). -/
  | cpy (e : EngineFlags) (crc : Bool) (tm : BitVec 2) (sD : BitVec 5) (sA : BitVec 5) (sB : BitVec 5) (sT : BitVec 5) (sR : BitVec 5)
  /-- CPY2 (13 R280). -/
  | cpy2 (e : EngineFlags) (crc : Bool) (tm : BitVec 2) (sD : BitVec 5) (sA : BitVec 5) (sB : BitVec 5) (sC : BitVec 5) (sT : BitVec 5) (sR : BitVec 5)
  /-- CFILL (13 R280). -/
  | cfill (e : EngineFlags) (crc : Bool) (tm : BitVec 2) (sD : BitVec 5) (sB : BitVec 5) (sC : BitVec 5) (sT : BitVec 5) (sR : BitVec 5)
  /-- CPYM (13 R280). -/
  | cpym (e : EngineFlags) (crc : Bool) (tm : BitVec 2) (sD : BitVec 5) (sA : BitVec 5) (sB : BitVec 5) (sT : BitVec 5) (sM : BitVec 5) (sR : BitVec 5)
  /-- CPYM2 (13 R280). -/
  | cpym2 (e : EngineFlags) (crc : Bool) (tm : BitVec 2) (sD : BitVec 5) (sA : BitVec 5) (sB : BitVec 5) (sC : BitVec 5) (sT : BitVec 5) (sM : BitVec 5) (sR : BitVec 5)
  /-- CCRC (13 R280). -/
  | ccrc (e : EngineFlags) (crc : Bool) (tm : BitVec 2) (sA : BitVec 5) (sB : BitVec 5) (sT : BitVec 5) (sR : BitVec 5)
  /-- GTH (14 R292). -/
  | gth (e : EngineFlags) (sD : BitVec 5) (sA : BitVec 5) (sB : BitVec 5) (sC : BitVec 5) (sE : BitVec 5)
  /-- SCT (14 R292). -/
  | sct (e : EngineFlags) (op : BitVec 3) (fmt : BitVec 4) (sD : BitVec 5) (sA : BitVec 5) (sB : BitVec 5) (sC : BitVec 5) (sE : BitVec 5)
  /-- GRED (14 R292). -/
  | gred (e : EngineFlags) (op : BitVec 3) (fmt : BitVec 4) (sD : BitVec 5) (sA : BitVec 5) (sB : BitVec 5) (sC : BitVec 5) (sE : BitVec 5) (sO : BitVec 5)
  /-- TOPK (14 R294). -/
  | topk (e : EngineFlags) (up : Bool) (fmt : BitVec 4) (sD : BitVec 5) (sA : BitVec 5) (sB : BitVec 5) (sC : BitVec 5) (sE : BitVec 5)
  /-- PSORT (14 R294). -/
  | psort (e : EngineFlags) (up : Bool) (fmt : BitVec 4) (sD : BitVec 5) (sA : BitVec 5) (sB : BitVec 5) (sC : BitVec 5) (sE : BitVec 5)
  /-- GSCAN (14 R296). -/
  | gscan (e : EngineFlags) (exc : Bool) (fmt : BitVec 4) (sD : BitVec 5) (sA : BitVec 5) (sB : BitVec 5) (sC : BitVec 5) (sE : BitVec 5)
  /-- GHIST (14 R296). -/
  | ghist (e : EngineFlags) (clamp : Bool) (accum : Bool) (fmt : BitVec 4) (sD : BitVec 5) (sA : BitVec 5)
  /-- RNDH (14 R296). -/
  | rndh (e : EngineFlags) (seed : Bool) (fmt : BitVec 4) (sD : BitVec 5) (sA : BitVec 5) (sB : BitVec 5)
  /-- LRED (15 R303). -/
  | lred (e : EngineFlags) (op : BitVec 3) (w : BitVec 2) (sD : BitVec 5) (sA : BitVec 5)
  /-- LOPEN (15 R304). -/
  | lopen (e : EngineFlags) (op : BitVec 3) (fmt : BitVec 2) (sD : BitVec 5) (sA : BitVec 5) (sB : BitVec 5)
  /-- LORD (15 R305). -/
  | lord (e : EngineFlags) (fmt : BitVec 2) (sA : BitVec 5) (sB : BitVec 5)
  /-- LWAG (15 R309). -/
  | lwag (e : EngineFlags) (sA : BitVec 5) (sB : BitVec 5) (sC : BitVec 5) (sE : BitVec 5)
  /-- LORD_ARRIVAL (15 R305). -/
  | lordArrival (cell : Nat) (id : Nat)
  /-- WAGGLE_ARRIVAL (15 R309). -/
  | waggleArrival (cell : Nat) (id : Nat)
  /-- ENGINE_COMMAND_START (08 R180). -/
  | engineCommandStart (cell : Nat) (id : Nat)
  /-- GRANULE_COMMIT (09 R208). -/
  | granuleCommit (cell : Nat) (id : Nat)
  /-- TAG_WAIT (08 R185). -/
  | tagWait (cell : Nat) (id : Nat)
  /-- TRANSLATION_REPLY (13 R286). -/
  | translationReply (ag : Agent) (eng : Bool) (id : Nat)
  /-- STAMP_START (16 R318). -/
  | stampStart (cell : Nat) (id : Nat)
  /-- ENGINE_COMMAND_COMPLETE (08 R171). -/
  | engineCommandComplete (cell : Nat) (id : Nat)
  /-- RDCYC (16 R322). -/
  | rdcyc (d : BitVec 5)
  /-- RDGCYC (16 R322). -/
  | rdgcyc (d : BitVec 5)
  /-- RDTINF (16 R322). -/
  | rdtinf (d : BitVec 5) (sel : BitVec 5)
  /-- REALIGN (16 R323). -/
  | realign (a : BitVec 5) (t : BitVec 5)
  /-- TWAIT (16 R324). -/
  | twait (a : BitVec 5) (t : BitVec 5)
  /-- REALIGN_RESUME (16 R323). -/
  | realignResume (gang : Nat)
  /-- TWAIT_EXPIRY (16 R324). -/
  | twaitExpiry (cell : Nat)
  /-- TNEXT (17 R345). -/
  | tnext (d : BitVec 5)
  /-- TINFO (17 R345). -/
  | tinfo (d : BitVec 5) (sel : BitVec 5)
  /-- GBAR_RELEASE (17 R345). -/
  | gbarRelease (gang : Nat)
  /-- KLAUNCH (17 R345). -/
  | klaunch (d : BitVec 5) (a : BitVec 5) (b : BitVec 5)
  /-- SXIN (17 R345). -/
  | sxin (d : BitVec 5) (a : BitVec 5) (b : BitVec 5)
  /-- SXOUT (17 R345). -/
  | sxout (d : BitVec 5) (a : BitVec 5) (b : BitVec 5)
  /-- SWAIT (17 R345). -/
  | swait (d : BitVec 5) (a : BitVec 5)
  /-- EVGET (17 R340). -/
  | evget (d : BitVec 5)
  /-- EVGET_NB (17 R340). -/
  | evgetNb (d : BitVec 5)
  /-- LCANCEL (17 R345). -/
  | lcancel (a : BitVec 5)
  /-- TRET (18 R361). -/
  | tret (d : BitVec 5) (a : BitVec 5)
  /-- TRET_EMU (18 R361). -/
  | tretEmu (d : BitVec 5) (a : BitVec 5)
  /-- TRET_KILL (18 R361). -/
  | tretKill (d : BitVec 5) (a : BitVec 5)
  /-- TQWAIT (18 R358). -/
  | tqwait (d : BitVec 5)
  /-- RDSR (18 R357). -/
  | rdsr (d : BitVec 5) (a : BitVec 5)
  /-- WRSR (18 R357). -/
  | wrsr (a : BitVec 5) (b : BitVec 5)
  /-- IBINV (18 R364). -/
  | ibinv (a : BitVec 5)
  /-- CPATCH (18 R363). -/
  | cpatch (d : BitVec 5) (a : BitVec 5) (b : BitVec 5)
  /-- PSWAP (18 R368). -/
  | pswap (d : BitVec 5) (a : BitVec 5) (b : BitVec 5)
  /-- CTXSV (18 R370). -/
  | ctxsv (d : BitVec 5) (a : BitVec 5) (b : BitVec 5)
  /-- CTXLD (18 R371). -/
  | ctxld (d : BitVec 5) (a : BitVec 5)
  /-- PTUPD (19 R386). -/
  | ptupd (d : BitVec 5) (a : BitVec 5) (b : BitVec 5)
  /-- TLBINV (19 R387). -/
  | tlbinv (a : BitVec 5) (b : BitVec 5)
  /-- XLAT (19 R388). -/
  | xlat (d : BitVec 5) (a : BitVec 5) (m : BitVec 5)
  /-- WQRY (21 R413). -/
  | wqry (d : BitVec 5) (a : BitVec 5) (sel : BitVec 5)
  /-- WSET (21 R413). -/
  | wset (d : BitVec 5) (a : BitVec 5) (b : BitVec 5)
  /-- SCAN_COMPLETE (03 R65). -/
  | scanComplete (part : Nat)
  /-- REPLICA_STEP (19 R376). -/
  | replicaStep (part : Nat) (slot : Nat)
  /-- CELL_HALT (18 R366). -/
  | cellHalt (cell : Nat)
  /-- PSWAP_EXCHANGE (18 R368). -/
  | pswapExchange (part : Nat)
  /-- RESTORED_GANG_DISPATCH (18 R371). -/
  | restoredGangDispatch (gang : Nat)
  /-- WQ_TAIL_WRITE (17 R328). -/
  | wqTailWrite (n : Nat) (tail : BitVec 32)
  /-- WQ_CANCEL (17 R333). -/
  | wqCancel (n : Nat) (cseq : BitVec 32)
  /-- LAUNCH_START (17 R331). -/
  | launchStart (part : Nat)
  /-- LAUNCH_COMPLETION (17 R332). -/
  | launchCompletion (launch : Nat)
  /-- KERNEL_ELIGIBLE (17 R338). -/
  | kernelEligible (launch : Nat) (handle : Nat)
  /-- GANG_DISPATCH (17 R338). -/
  | gangDispatch (launch : Nat) (handle : Nat)
  /-- GANG_BASE_CYCLE (16 R315). -/
  | gangBaseCycle (gang : Nat)
  /-- STREAM_TRANSFER (17 R339). -/
  | streamTransfer (launch : Nat) (handle : Nat)
  /-- STREAM_COMPLETION (17 R336). -/
  | streamCompletion (launch : Nat) (handle : Nat)
  /-- CELL_EXIT (04 R86). -/
  | cellExit (cell : Nat)
  /-- GANG_EXIT (07 R167). -/
  | gangExit (gang : Nat)
  /-- SAMPLING_INTERVAL_END (21 R402). -/
  | samplingIntervalEnd (readings : List (Nat × BitVec 64 × BitVec 64))
  /-- MIRROR_TIMEOUT (22 R420). -/
  | mirrorTimeout (part : Nat)
  /-- CONTEXT_SAVE_COMPLETE (18 R370). -/
  | contextSaveComplete (part : Nat)
  /-- SCALAR_WRITE_PERFORMED (06 R136). -/
  | scalarWritePerformed (ag : Agent) (id : Nat)
  /-- PATROL_SCRUB (22 R415). -/
  | patrolScrub (place : Store)
  /-- TQHEAD_WRITE (18 R349). -/
  | tqheadWrite (part : Nat) (val : BitVec 64)
  /-- WQCFG_WRITE (17 R327). -/
  | wqcfgWrite (root : Bool) (n : Nat) (val : BitVec 64)
  /-- SYSREG_WRITE (00 R6). -/
  | sysregWrite (root : Bool) (num : BitVec 64) (val : BitVec 64)
  /-- PACKAGE_RESET (16 R313, 01 R15). -/
  | packageReset (test : SelfTest)
  /-- MONITOR_ALARM (21 R403). -/
  | monitorAlarm (unit : Nat)
  /-- MIRROR_ACK (22 R420). -/
  | mirrorAck (part : Nat)
  /-- BUFFER_DIE_FAILURE (22 R419). -/
  | bufferDieFailure (slot : Nat)
  /-- EYE_MARGIN_PREDICTION (15 R312). -/
  | eyeMarginPrediction (link : Nat)
  /-- HOST_LINK_DOWN (23 R426). -/
  | hostLinkDown (port : Bool)
  /-- HOST_MEMORY_ACCESS (23 R423). -/
  | hostMemoryAccess (port : Bool) (op : HostAccess)
  /-- HSEM_ACQUIRE (23 R426). -/
  | hsemAcquire (port : Bool)
  /-- HSEM_RELEASE (23 R426). -/
  | hsemRelease (port : Bool)
  /-- FORM_PARTITION (23 R428). -/
  | formPartition (port : Bool) (addr : BitVec 64)
  /-- DISSOLVE_PARTITION (23 R428). -/
  | dissolvePartition (port : Bool) (addr : BitVec 64)
  /-- WRITE_WPOL (23 R428). -/
  | writeWpol (port : Bool) (addr : BitVec 64)
  /-- WRITE_CETHR (23 R428). -/
  | writeCethr (port : Bool) (addr : BitVec 64)
  /-- STAGE_FIRMWARE (23 R428). -/
  | stageFirmware (port : Bool) (addr : BitVec 64)
  /-- LAYOUT_RESERVED_OP (23 R427). -/
  | layoutReservedOp (port : Bool) (op : BitVec 4) (addr : BitVec 64)
  /-- GET_VERSION (23 R431). -/
  | getVersion (port : Bool) (req : List (BitVec 8))
  /-- GET_CAPABILITIES (23 R431). -/
  | getCapabilities (port : Bool) (req : List (BitVec 8))
  /-- NEGOTIATE_ALGORITHMS (23 R431). -/
  | negotiateAlgorithms (port : Bool) (req : List (BitVec 8))
  /-- GET_DIGESTS (23 R431). -/
  | getDigests (port : Bool) (req : List (BitVec 8))
  /-- GET_CERTIFICATE (23 R431). -/
  | getCertificate (port : Bool) (req : List (BitVec 8))
  /-- CHALLENGE (23 R431). -/
  | challenge (port : Bool) (req : List (BitVec 8))
  /-- GET_MEASUREMENTS (23 R431). -/
  | getMeasurements (port : Bool) (req : List (BitVec 8))
  /-- PSK_EXCHANGE (23 R431). -/
  | pskExchange (port : Bool) (req : List (BitVec 8))
  /-- HOST_LINK_UP (06 R128). -/
  | hostLinkUp (port : Bool)
  /-- MIRROR_WRITE_RECEIVE (06 R129). -/
  | mirrorWriteReceive (pa : Nat) (data : List (BitVec 8))
  /-- SOFT_ERROR (22 R414). -/
  | softError (place : Store) (double : Bool)
  /-- ARRAY_UNDERVOLT (22 R421). -/
  | arrayUndervolt (unit : Nat) (array : Nat)
  /-- IDE_KM_KEY_PROG (23 R423). -/
  | ideKmKeyProg (port : Bool) (req : List (BitVec 8))
  /-- EXIT (04 R86). -/
  | exit
  /-- NOP (03 R53, Table 3-4). -/
  | nop
  /-- MPOP_SHORT (03 R53, Table 3-4). -/
  | mpopShort
  /-- MINV_SHORT (03 R53, Table 3-4). -/
  | minvShort
  /-- RET_SHORT (03 R53, Table 3-4). -/
  | retShort
  /-- EXIT_SHORT (03 R53, Table 3-4). -/
  | exitShort
  /-- GBAR (17 R345). -/
  | gbar
  /-- LAUNCH_AGEING (17 R330). -/
  | launchAgeing
  /-- LIFETIME_COMMIT (21 R404). -/
  | lifetimeCommit
  /-- ERROR_WINDOW_END (22 R422). -/
  | errorWindowEnd
  /-- PACKAGE_LINK_UP (22 R420). -/
  | packageLinkUp
  deriving DecidableEq, Repr

/-- The number of argument words that follow a command word (03 R51). -/
def Instr.nargs : Instr → Nat
  | .blkImmediate .. => 0
  | .blkRegister .. => 0
  | .br .. => 0
  | .bz .. => 0
  | .bnz .. => 0
  | .dcbnz .. => 0
  | .call .. => 0
  | .callr .. => 0
  | .ret .. => 0
  | .bqpush .. => 0
  | .halt .. => 0
  | .bqt .. => 0
  | .bqf .. => 0
  | .brk .. => 0
  | .addShort .. => 0
  | .addiShort .. => 0
  | .brShort .. => 0
  | .cwaitShort .. => 0
  | .cincShort .. => 0
  | .tnextShort .. => 0
  | .bqtShort .. => 0
  | .movShort .. => 0
  | .subShort .. => 0
  | .dcbnzShort .. => 0
  | .add .. => 0
  | .sub .. => 0
  | .and .. => 0
  | .or .. => 0
  | .xor .. => 0
  | .andn .. => 0
  | .shl .. => 0
  | .shr .. => 0
  | .sra .. => 0
  | .slt .. => 0
  | .sltu .. => 0
  | .min .. => 0
  | .max .. => 0
  | .minu .. => 0
  | .maxu .. => 0
  | .mov .. => 0
  | .addi .. => 0
  | .andi .. => 0
  | .ori .. => 0
  | .xori .. => 0
  | .shli .. => 0
  | .shri .. => 0
  | .srai .. => 0
  | .slti .. => 0
  | .sltiu .. => 0
  | .mini .. => 0
  | .maxi .. => 0
  | .seqi .. => 0
  | .li .. => 0
  | .lsh .. => 0
  | .lown .. => 0
  | .lpc .. => 0
  | .clz .. => 0
  | .ffs .. => 0
  | .popc .. => 0
  | .padd .. => 0
  | .psub .. => 0
  | .bfx .. => 0
  | .mul .. => 0
  | .mulh .. => 0
  | .mulhu .. => 0
  | .div .. => 0
  | .rem .. => 0
  | .divu .. => 0
  | .remu .. => 0
  | .madd .. => 0
  | .mvShort .. => 0
  | .mv .. => 0
  | .mvi .. => 0
  | .moveTransport .. => 0
  | .xseqOperationComplete .. => 0
  | .xseqFreezeEnd .. => 0
  | .bqEntryVisible .. => 0
  | .ld .. => 0
  | .lds .. => 0
  | .st .. => 0
  | .pref .. => 0
  | .loadReturn .. => 0
  | .qld .. => 0
  | .qst .. => 0
  | .qldi .. => 0
  | .qsti .. => 0
  | .queueLoadFill .. => 0
  | .cadrG .. => 0
  | .cadrB .. => 0
  | .pchk .. => 0
  | .bind .. => 0
  | .unbind .. => 0
  | .acq .. => 0
  | .rel .. => 0
  | .fence .. => 0
  | .xfer .. => 0
  | .oinit .. => 0
  | .releasePerformed .. => 0
  | .xferPerformed .. => 0
  | .cwait .. => 0
  | .cwaitlt .. => 0
  | .cinc .. => 0
  | .crinc .. => 0
  | .cset .. => 0
  | .cread .. => 0
  | .cstat .. => 0
  | .tinv .. => 0
  | .tval .. => 0
  | .tread .. => 0
  | .crincArrival .. => 0
  | .amo .. => 0
  | .red .. => 0
  | .swap .. => 0
  | .cas .. => 0
  | .atomicPerform .. => 0
  | .accalloc .. => 0
  | .accfree .. => 0
  | .mxmm _ fmt _ _ _ _ _ _ _ _ _ _ _ => if fmt = 6 then 2 else 1
  | .mxld .. => 1
  | .mxclr .. => 1
  | .mxmma .. => 1
  | .mxmv .. => 1
  | .mxmark .. => 0
  | .mxmarkStamped .. => 1
  | .mxdrn .. => 1
  | .mxepl .. => 1
  | .mxcks .. => 1
  | .mxdrs .. => 1
  | .mxshp .. => 1
  | .mxcv .. => 1
  | .drainCheckResolve .. => 0
  | .vadd .. => 1
  | .vsub .. => 1
  | .vmul .. => 1
  | .vfma .. => 1
  | .vmin .. => 1
  | .vmax .. => 1
  | .vdiv .. => 1
  | .vsqrt .. => 1
  | .vsgn .. => 1
  | .vcmp .. => 1
  | .vrsc .. => 1
  | .vrst .. => 1
  | .viadd .. => 1
  | .visub .. => 1
  | .vimul .. => 1
  | .vilog .. => 1
  | .vishf .. => 1
  | .vicmp .. => 1
  | .vsel .. => 1
  | .vcvt .. => 1
  | .vred .. => 1
  | .vdot .. => 1
  | .vscan .. => 1
  | .vbcast .. => 1
  | .mpush .. => 1
  | .minv .. => 0
  | .mpop .. => 0
  | .bmz .. => 1
  | .tfn .. => 1
  | .tfnx .. => 1
  | .tver .. => 1
  | .tvchk .. => 1
  | .cpy _ _ _ _ _ _ _ sR => if sR = 0 then 1 else 2
  | .cpy2 _ _ _ _ _ _ _ _ sR => if sR = 0 then 1 else 2
  | .cfill _ _ _ _ _ _ _ sR => if sR = 0 then 1 else 2
  | .cpym .. => 2
  | .cpym2 .. => 2
  | .ccrc .. => 2
  | .gth .. => 1
  | .sct .. => 1
  | .gred .. => 2
  | .topk .. => 1
  | .psort .. => 1
  | .gscan .. => 1
  | .ghist .. => 1
  | .rndh .. => 1
  | .lred .. => 1
  | .lopen .. => 1
  | .lord .. => 1
  | .lwag .. => 1
  | .lordArrival .. => 0
  | .waggleArrival .. => 0
  | .engineCommandStart .. => 0
  | .granuleCommit .. => 0
  | .tagWait .. => 0
  | .translationReply .. => 0
  | .stampStart .. => 0
  | .engineCommandComplete .. => 0
  | .rdcyc .. => 0
  | .rdgcyc .. => 0
  | .rdtinf .. => 0
  | .realign .. => 0
  | .twait .. => 0
  | .realignResume .. => 0
  | .twaitExpiry .. => 0
  | .tnext .. => 0
  | .tinfo .. => 0
  | .gbarRelease .. => 0
  | .klaunch .. => 0
  | .sxin .. => 0
  | .sxout .. => 0
  | .swait .. => 0
  | .evget .. => 0
  | .evgetNb .. => 0
  | .lcancel .. => 0
  | .tret .. => 0
  | .tretEmu .. => 0
  | .tretKill .. => 0
  | .tqwait .. => 0
  | .rdsr .. => 0
  | .wrsr .. => 0
  | .ibinv .. => 0
  | .cpatch .. => 0
  | .pswap .. => 0
  | .ctxsv .. => 0
  | .ctxld .. => 0
  | .ptupd .. => 0
  | .tlbinv .. => 0
  | .xlat .. => 0
  | .wqry .. => 0
  | .wset .. => 0
  | .scanComplete .. => 0
  | .replicaStep .. => 0
  | .cellHalt .. => 0
  | .pswapExchange .. => 0
  | .restoredGangDispatch .. => 0
  | .wqTailWrite .. => 0
  | .wqCancel .. => 0
  | .launchStart .. => 0
  | .launchCompletion .. => 0
  | .kernelEligible .. => 0
  | .gangDispatch .. => 0
  | .gangBaseCycle .. => 0
  | .streamTransfer .. => 0
  | .streamCompletion .. => 0
  | .cellExit .. => 0
  | .gangExit .. => 0
  | .samplingIntervalEnd .. => 0
  | .mirrorTimeout .. => 0
  | .contextSaveComplete .. => 0
  | .scalarWritePerformed .. => 0
  | .tqheadWrite .. => 0
  | .wqcfgWrite .. => 0
  | .sysregWrite .. => 0
  | .packageReset .. => 0
  | .monitorAlarm .. => 0
  | .patrolScrub .. => 0
  | .mirrorAck .. => 0
  | .bufferDieFailure .. => 0
  | .eyeMarginPrediction .. => 0
  | .hostLinkDown .. => 0
  | .hostMemoryAccess .. => 0
  | .hsemAcquire .. => 0
  | .hsemRelease .. => 0
  | .formPartition .. => 0
  | .dissolvePartition .. => 0
  | .writeWpol .. => 0
  | .writeCethr .. => 0
  | .stageFirmware .. => 0
  | .layoutReservedOp .. => 0
  | .getVersion .. => 0
  | .getCapabilities .. => 0
  | .negotiateAlgorithms .. => 0
  | .getDigests .. => 0
  | .getCertificate .. => 0
  | .challenge .. => 0
  | .getMeasurements .. => 0
  | .pskExchange .. => 0
  | .hostLinkUp .. => 0
  | .mirrorWriteReceive .. => 0
  | .softError .. => 0
  | .arrayUndervolt .. => 0
  | .ideKmKeyProg .. => 0
  | .exit => 0
  | .nop => 0
  | .mpopShort => 0
  | .minvShort => 0
  | .retShort => 0
  | .exitShort => 0
  | .gbar => 0
  | .launchAgeing => 0
  | .lifetimeCommit => 0
  | .errorWindowEnd => 0
  | .packageLinkUp => 0

/-- Whether the word is a 16-bit word (03 R43). -/
def Instr.isShort : Instr → Bool
  | .blkImmediate .. => false
  | .blkRegister .. => false
  | .br .. => false
  | .bz .. => false
  | .bnz .. => false
  | .dcbnz .. => false
  | .call .. => false
  | .callr .. => false
  | .ret .. => false
  | .bqpush .. => false
  | .halt .. => false
  | .bqt .. => false
  | .bqf .. => false
  | .brk .. => true
  | .addShort .. => true
  | .addiShort .. => true
  | .brShort .. => true
  | .cwaitShort .. => true
  | .cincShort .. => true
  | .tnextShort .. => true
  | .bqtShort .. => true
  | .movShort .. => true
  | .subShort .. => true
  | .dcbnzShort .. => true
  | .add .. => false
  | .sub .. => false
  | .and .. => false
  | .or .. => false
  | .xor .. => false
  | .andn .. => false
  | .shl .. => false
  | .shr .. => false
  | .sra .. => false
  | .slt .. => false
  | .sltu .. => false
  | .min .. => false
  | .max .. => false
  | .minu .. => false
  | .maxu .. => false
  | .mov .. => false
  | .addi .. => false
  | .andi .. => false
  | .ori .. => false
  | .xori .. => false
  | .shli .. => false
  | .shri .. => false
  | .srai .. => false
  | .slti .. => false
  | .sltiu .. => false
  | .mini .. => false
  | .maxi .. => false
  | .seqi .. => false
  | .li .. => false
  | .lsh .. => false
  | .lown .. => false
  | .lpc .. => false
  | .clz .. => false
  | .ffs .. => false
  | .popc .. => false
  | .padd .. => false
  | .psub .. => false
  | .bfx .. => false
  | .mul .. => false
  | .mulh .. => false
  | .mulhu .. => false
  | .div .. => false
  | .rem .. => false
  | .divu .. => false
  | .remu .. => false
  | .madd .. => false
  | .mvShort .. => true
  | .mv .. => false
  | .mvi .. => false
  | .moveTransport .. => false
  | .xseqOperationComplete .. => false
  | .xseqFreezeEnd .. => false
  | .bqEntryVisible .. => false
  | .ld .. => false
  | .lds .. => false
  | .st .. => false
  | .pref .. => false
  | .loadReturn .. => false
  | .qld .. => false
  | .qst .. => false
  | .qldi .. => false
  | .qsti .. => false
  | .queueLoadFill .. => false
  | .cadrG .. => false
  | .cadrB .. => false
  | .pchk .. => false
  | .bind .. => false
  | .unbind .. => false
  | .acq .. => false
  | .rel .. => false
  | .fence .. => false
  | .xfer .. => false
  | .oinit .. => false
  | .releasePerformed .. => false
  | .xferPerformed .. => false
  | .cwait .. => false
  | .cwaitlt .. => false
  | .cinc .. => false
  | .crinc .. => false
  | .cset .. => false
  | .cread .. => false
  | .cstat .. => false
  | .tinv .. => false
  | .tval .. => false
  | .tread .. => false
  | .crincArrival .. => false
  | .amo .. => false
  | .red .. => false
  | .swap .. => false
  | .cas .. => false
  | .atomicPerform .. => false
  | .accalloc .. => false
  | .accfree .. => false
  | .mxmm .. => false
  | .mxld .. => false
  | .mxclr .. => false
  | .mxmma .. => false
  | .mxmv .. => false
  | .mxmark .. => false
  | .mxmarkStamped .. => false
  | .mxdrn .. => false
  | .mxepl .. => false
  | .mxcks .. => false
  | .mxdrs .. => false
  | .mxshp .. => false
  | .mxcv .. => false
  | .drainCheckResolve .. => false
  | .vadd .. => false
  | .vsub .. => false
  | .vmul .. => false
  | .vfma .. => false
  | .vmin .. => false
  | .vmax .. => false
  | .vdiv .. => false
  | .vsqrt .. => false
  | .vsgn .. => false
  | .vcmp .. => false
  | .vrsc .. => false
  | .vrst .. => false
  | .viadd .. => false
  | .visub .. => false
  | .vimul .. => false
  | .vilog .. => false
  | .vishf .. => false
  | .vicmp .. => false
  | .vsel .. => false
  | .vcvt .. => false
  | .vred .. => false
  | .vdot .. => false
  | .vscan .. => false
  | .vbcast .. => false
  | .mpush .. => false
  | .minv .. => false
  | .mpop .. => false
  | .bmz .. => false
  | .tfn .. => false
  | .tfnx .. => false
  | .tver .. => false
  | .tvchk .. => false
  | .cpy .. => false
  | .cpy2 .. => false
  | .cfill .. => false
  | .cpym .. => false
  | .cpym2 .. => false
  | .ccrc .. => false
  | .gth .. => false
  | .sct .. => false
  | .gred .. => false
  | .topk .. => false
  | .psort .. => false
  | .gscan .. => false
  | .ghist .. => false
  | .rndh .. => false
  | .lred .. => false
  | .lopen .. => false
  | .lord .. => false
  | .lwag .. => false
  | .lordArrival .. => false
  | .waggleArrival .. => false
  | .engineCommandStart .. => false
  | .granuleCommit .. => false
  | .tagWait .. => false
  | .translationReply .. => false
  | .stampStart .. => false
  | .engineCommandComplete .. => false
  | .rdcyc .. => false
  | .rdgcyc .. => false
  | .rdtinf .. => false
  | .realign .. => false
  | .twait .. => false
  | .realignResume .. => false
  | .twaitExpiry .. => false
  | .tnext .. => false
  | .tinfo .. => false
  | .gbarRelease .. => false
  | .klaunch .. => false
  | .sxin .. => false
  | .sxout .. => false
  | .swait .. => false
  | .evget .. => false
  | .evgetNb .. => false
  | .lcancel .. => false
  | .tret .. => false
  | .tretEmu .. => false
  | .tretKill .. => false
  | .tqwait .. => false
  | .rdsr .. => false
  | .wrsr .. => false
  | .ibinv .. => false
  | .cpatch .. => false
  | .pswap .. => false
  | .ctxsv .. => false
  | .ctxld .. => false
  | .ptupd .. => false
  | .tlbinv .. => false
  | .xlat .. => false
  | .wqry .. => false
  | .wset .. => false
  | .scanComplete .. => false
  | .replicaStep .. => false
  | .cellHalt .. => false
  | .pswapExchange .. => false
  | .restoredGangDispatch .. => false
  | .wqTailWrite .. => false
  | .wqCancel .. => false
  | .launchStart .. => false
  | .launchCompletion .. => false
  | .kernelEligible .. => false
  | .gangDispatch .. => false
  | .gangBaseCycle .. => false
  | .streamTransfer .. => false
  | .streamCompletion .. => false
  | .cellExit .. => false
  | .gangExit .. => false
  | .samplingIntervalEnd .. => false
  | .mirrorTimeout .. => false
  | .contextSaveComplete .. => false
  | .scalarWritePerformed .. => false
  | .tqheadWrite .. => false
  | .wqcfgWrite .. => false
  | .sysregWrite .. => false
  | .packageReset .. => false
  | .monitorAlarm .. => false
  | .patrolScrub .. => false
  | .mirrorAck .. => false
  | .bufferDieFailure .. => false
  | .eyeMarginPrediction .. => false
  | .hostLinkDown .. => false
  | .hostMemoryAccess .. => false
  | .hsemAcquire .. => false
  | .hsemRelease .. => false
  | .formPartition .. => false
  | .dissolvePartition .. => false
  | .writeWpol .. => false
  | .writeCethr .. => false
  | .stageFirmware .. => false
  | .layoutReservedOp .. => false
  | .getVersion .. => false
  | .getCapabilities .. => false
  | .negotiateAlgorithms .. => false
  | .getDigests .. => false
  | .getCertificate .. => false
  | .challenge .. => false
  | .getMeasurements .. => false
  | .pskExchange .. => false
  | .hostLinkUp .. => false
  | .mirrorWriteReceive .. => false
  | .softError .. => false
  | .arrayUndervolt .. => false
  | .ideKmKeyProg .. => false
  | .exit => false
  | .nop => true
  | .mpopShort => true
  | .minvShort => true
  | .retShort => true
  | .exitShort => true
  | .gbar => false
  | .launchAgeing => false
  | .lifetimeCommit => false
  | .errorWindowEnd => false
  | .packageLinkUp => false

/-- The bytes an instruction occupies, argument words included (03 R43, R51). -/
def Instr.size (i : Instr) : Nat := if i.isShort then 2 else 4 + 4 * i.nargs

/-- The offset of the first parcel of the last word of an instruction (04 R75). -/
def Instr.lastWord (i : Instr) : Nat := 4 * i.nargs

end Sys2Proof
end

