-- ==== Sys2Proof/WellFormed.lean ====
section
/-! DEFINITION. Which field values are listed by the manual: an instruction that is not well formed is a reserved
encoding (03 R47). Events are well formed whatever their operands. -/

namespace Sys2Proof

/-- The common fields of 03 R50, with the flags that the form accepts. -/
def EngineFlags.ok (e : EngineFlags) (acq rel tag : Bool) : Bool :=
  (e.ce || e.cnt == 0) && (acq || !e.acq) && (rel || !e.rel) && (tag || !e.tag) &&
    (if e.acq || e.rel then decide (e.scope.toNat ≤ 5) else e.scope == 0)

/-- The stamp mode and the stamp register (09 R201, R202). -/
def stampOk (tm : BitVec 2) (sT : BitVec 5) : Bool := tm != 3 && (tm != 0 || sT == 0)

/-- The source classes of mov (05 Table 5-5). -/
def movSourceOk (cls a : BitVec 5) : Bool :=
  match cls.toNat with
  | 0 => true
  | 1 => a.toNat < 6
  | 2 => a.toNat < 6
  | 3 => a.toNat < 16
  | 4 => a == 0
  | _ => false

/-- The wait kind, scope and threshold of acq (07 Table 7-3). -/
def acqFieldsOk (b m : BitVec 5) : Bool :=
  decide ((m.extractLsb' 0 3).toNat ≤ 5) && m.extractLsb' 3 2 != 3 && (m.extractLsb' 3 2 != 0 || b == 0)

/-- The scope and cum fields of rel and xfer (07 Table 7-3). -/
def relFieldsOk (m : BitVec 5) : Bool := decide ((m.extractLsb' 0 3).toNat ≤ 5) && !m.getLsbD 4

/-- The width field of the atomics (08 R188). -/
def amoFieldsOk (m : BitVec 5) : Bool := m.getLsbD 4

/-- The bank count of accalloc and accfree (09 R195). -/
def banksOk (n : BitVec 12) : Bool := decide (1 ≤ n.toNat) && decide (n.toNat ≤ 256)

/-- The destination of tnext (17 Table 17-7). -/
def tnextRegOk (d : BitVec 5) : Bool := decide (1 ≤ d.toNat) && decide (d.toNat ≤ 26)

/-- The destination latches of 05 Table 5-12. -/
def latchOk (d : BitVec 7) : Bool :=
  decide (d.toNat ≤ 0x3B) || (decide (0x40 ≤ d.toNat) && decide (d.toNat ≤ 0x4E)) ||
    (decide (0x60 ≤ d.toNat) && decide (d.toNat ≤ 0x63))

/-- The sources of 05 Table 5-13. -/
def sourceOk (s : BitVec 5) : Bool := decide (s.toNat ≤ 26)

/-- The destinations that take a rounding mode (05 R117): F.add, F.sub, F.mul and F.fma in each format, and the
conversions s.d, b.s, s.l, l.s, d.l and l.d. -/
def roundedLatch (d : BitVec 7) : Bool :=
  let n := d.toNat
  (decide (0x22 ≤ n) && decide (n ≤ 0x25)) || (decide (0x28 ≤ n) && decide (n ≤ 0x2B)) ||
    (decide (0x2E ≤ n) && decide (n ≤ 0x31)) || n == 0x34 || n == 0x36 ||
    (decide (0x38 ≤ n) && decide (n ≤ 0x3B))

/-- The RM field of mv (05 R117). -/
def moveModeOk (r : BitVec 3) (d : BitVec 7) : Bool := r == 0 || (decide (r.toNat ≤ 3) && roundedLatch d)

/-- The formats of sct with an operation and of gred (14 Table 14-1). -/
def bagFormatOk (fmt : BitVec 4) : Bool := fmt == 0 || fmt == 1 || fmt == 7 || fmt == 8

/-- The key formats of topk and psort (14 Table 14-1). -/
def rankFormatOk (fmt : BitVec 4) : Bool := fmt == 0 || fmt == 1 || fmt == 2 || fmt == 7 || fmt == 8

/-- The reserved combinations of vcvt (11 R251). -/
def vcvtOk (rm : BitVec 3) (df : BitVec 4) (um sat : Bool) (sf sC : BitVec 5) : Bool :=
  let d := df.toNat
  let s := sf.toNat
  let intD := 6 ≤ d && d ≤ 8
  let intS := 6 ≤ s && s ≤ 8
  decide (s ≠ d) && decide (d ≤ 9) && decide (s ≤ 9) && !(s == 9 && intD) && (um || (s != 9 && d != 9)) &&
    decide (rm.toNat ≤ 4) && !(intD && rm == 4) && !(intD && intS && rm != 0) &&
    (!sat || d == 4 || d == 5) && (s == 9 || d == 9 || sC == 0)

/-- The instruction's field values are all listed by its entry (03 R47). -/
def Instr.wellFormed : Instr → Bool
  | .blkImmediate .. => true
  | .blkRegister sel _ => decide (sel.toNat < 48)
  | .br .. => true
  | .bz .. => true
  | .bnz .. => true
  | .dcbnz a _ => a != 0
  | .call .. => true
  | .callr .. => true
  | .ret .. => true
  | .bqpush .. => true
  | .halt code => !code.getLsbD 16
  | .bqt .. => true
  | .bqf .. => true
  | .brk .. => true
  | .addShort .. => true
  | .addiShort .. => true
  | .brShort .. => true
  | .cwaitShort .. => true
  | .cincShort .. => true
  | .tnextShort d => tnextRegOk d
  | .bqtShort .. => true
  | .movShort .. => true
  | .subShort .. => true
  | .dcbnzShort a _ => a != 0
  | .add .. => true
  | .sub .. => true
  | .and .. => true
  | .or .. => true
  | .xor .. => true
  | .andn .. => true
  | .shl .. => true
  | .shr .. => true
  | .sra .. => true
  | .slt .. => true
  | .sltu .. => true
  | .min .. => true
  | .max .. => true
  | .minu .. => true
  | .maxu .. => true
  | .mov _ a cls => movSourceOk cls a
  | .addi .. => true
  | .andi .. => true
  | .ori .. => true
  | .xori .. => true
  | .shli _ _ imm => decide (imm.toNat < 64)
  | .shri _ _ imm => decide (imm.toNat < 64)
  | .srai _ _ imm => decide (imm.toNat < 64)
  | .slti .. => true
  | .sltiu .. => true
  | .mini .. => true
  | .maxi .. => true
  | .seqi .. => true
  | .li .. => true
  | .lsh _ imm => !imm.getLsbD 16
  | .lown .. => true
  | .lpc .. => true
  | .clz _ _ w => decide (w.toNat < 4)
  | .ffs _ _ w => decide (w.toNat < 4)
  | .popc _ _ w => decide (w.toNat < 4)
  | .padd _ _ _ m => decide (m.toNat < 12)
  | .psub _ _ _ m => decide (m.toNat < 12)
  | .bfx .. => true
  | .mul .. => true
  | .mulh .. => true
  | .mulhu .. => true
  | .div .. => true
  | .rem .. => true
  | .divu .. => true
  | .remu .. => true
  | .madd .. => true
  | .mvShort _ d src => latchOk d && sourceOk src
  | .mv r _ d src => latchOk d && sourceOk src && moveModeOk r d
  | .mvi _ d _ => latchOk d
  | .moveTransport .. => true
  | .xseqOperationComplete .. => true
  | .xseqFreezeEnd .. => true
  | .bqEntryVisible .. => true
  | .ld .. => true
  | .lds .. => true
  | .st .. => true
  | .pref .. => true
  | .loadReturn .. => true
  | .qld q _ _ => decide (q.toNat < 4)
  | .qst q _ _ => decide (q.toNat < 4)
  | .qldi q _ _ => decide (q.toNat < 4)
  | .qsti q _ _ => decide (q.toNat < 4)
  | .queueLoadFill .. => true
  | .cadrG .. => true
  | .cadrB .. => true
  | .pchk _ _ m => decide (m.toNat < 8)
  | .bind .. => true
  | .unbind .. => true
  | .acq _ _ b m => acqFieldsOk b m
  | .rel _ _ m => relFieldsOk m
  | .fence m => decide (m.toNat < 6)
  | .xfer _ _ _ m => relFieldsOk m
  | .oinit .. => true
  | .releasePerformed .. => true
  | .xferPerformed .. => true
  | .cwait .. => true
  | .cwaitlt _ k imm => decide (k.toNat < 6) && imm != 0
  | .cinc .. => true
  | .crinc .. => true
  | .cset .. => true
  | .cread .. => true
  | .cstat _ _ clr => decide (clr.toNat < 2)
  | .tinv .. => true
  | .tval .. => true
  | .tread .. => true
  | .crincArrival .. => true
  | .amo _ _ _ m => amoFieldsOk m
  | .red _ _ m => amoFieldsOk m
  | .swap _ _ _ m => amoFieldsOk m && m.extractLsb' 0 3 == 0
  | .cas _ _ _ m => amoFieldsOk m && m.extractLsb' 0 3 == 0
  | .atomicPerform .. => true
  | .accalloc _ n => banksOk n
  | .accfree _ n => banksOk n
  | .mxmm e fmt ck _ _ tm _ _ _ _ sT sXA sXB => e.ok true false true && stampOk tm sT && fmt != 7 && !(ck && fmt == 5) && (fmt == 6 || (sXA == 0 && sXB == 0))
  | .mxld e accum i32 tm _ _ _ sT => e.ok true false true && stampOk tm sT && !(i32 && !accum)
  | .mxclr e tm _ sT => e.ok false false false && stampOk tm sT
  | .mxmma e _ _ tm _ _ _ sT => e.ok true false true && stampOk tm sT
  | .mxmv e _ tm _ sT => e.ok false false false && stampOk tm sT
  | .mxmark e => e.ok false false false
  | .mxmarkStamped e tm sT => e.ok false false false && stampOk tm sT && tm != 0
  | .mxdrn e _ _ tm _ _ _ _ sT => e.ok true true true && stampOk tm sT
  | .mxepl e _ _ => e.ok true false false
  | .mxcks e _ => e.ok false false false
  | .mxdrs e _ _ tm _ _ sT => e.ok true true false && stampOk tm sT
  | .mxshp e _ _ => e.ok true false false
  | .mxcv e _ _ _ _ tm _ _ _ _ sT => e.ok true false true && stampOk tm sT
  | .drainCheckResolve .. => true
  | .vadd e rm _ _ _ _ _ sE => e.ok true true true && decide (rm.toNat ≤ 4) && (rm == 4 || sE == 0)
  | .vsub e rm _ _ _ _ _ sE => e.ok true true true && decide (rm.toNat ≤ 4) && (rm == 4 || sE == 0)
  | .vmul e rm _ _ _ _ _ sE => e.ok true true true && decide (rm.toNat ≤ 4) && (rm == 4 || sE == 0)
  | .vfma e rm _ _ _ _ _ _ sE => e.ok true true true && decide (rm.toNat ≤ 4) && (rm == 4 || sE == 0)
  | .vmin e _ _ _ _ _ => e.ok true true true
  | .vmax e _ _ _ _ _ => e.ok true true true
  | .vdiv e rm _ _ _ _ _ sE => e.ok true true true && decide (rm.toNat ≤ 4) && (rm == 4 || sE == 0)
  | .vsqrt e rm _ _ _ _ sE => e.ok true true true && decide (rm.toNat ≤ 4) && (rm == 4 || sE == 0)
  | .vsgn e _ op _ _ _ sB => e.ok true true true && op != 3 && (op == 2 || sB == 0)
  | .vcmp e cond _ _ _ _ _ => e.ok true true true && cond != 7
  | .vrsc e rm _ _ _ _ _ _ _ => e.ok true true true && decide (rm.toNat ≤ 4)
  | .vrst e _ op _ _ _ _ => e.ok true true true && decide (op.toNat < 2)
  | .viadd e iw sat _ _ _ _ => e.ok true true true && iw != 1 && sat != 3
  | .visub e iw sat _ _ _ _ => e.ok true true true && iw != 1 && sat != 3
  | .vimul e iop iw sat _ _ _ _ => e.ok true true true && iw != 1 && decide (iop.toNat < 3) && sat != 3 && (iop == 0 || sat == 0)
  | .vilog e iop iw _ _ _ _ => e.ok true true true && (iw != 1 || decide (iop.toNat < 4))
  | .vishf e iop iw _ _ _ _ => e.ok true true true && iw != 1 && decide (iop.toNat < 3)
  | .vicmp e iop iw _ _ _ _ => e.ok true true true && iw != 1 && decide (iop.toNat < 6)
  | .vsel e _ _ _ _ _ _ => e.ok true true true
  | .vcvt e rm df um sat _ _ sf sC sE => e.ok true true true && vcvtOk rm df um sat sf sC && (rm == 4 || sE == 0)
  | .vred e _ _ _ _ _ _ => e.ok true true true
  | .vdot e _ _ _ _ _ _ => e.ok true true true
  | .vscan e _ _ _ _ _ _ => e.ok true true true
  | .vbcast e _ _ _ _ => e.ok true true true
  | .mpush e _ => e.ok true false false
  | .minv e => e.ok false false false
  | .mpop e => e.ok false false false
  | .bmz .. => true
  | .tfn e fn fmt sr _ _ sE => e.ok true true true && decide (1 ≤ fn.toNat) && decide (fn.toNat ≤ 12) && fmt != 3 && (sr || sE == 0)
  | .tfnx e fn fmt sr _ _ _ _ sE => e.ok true true true && decide (1 ≤ fn.toNat) && decide (fn.toNat ≤ 12) && fmt != 3 && (sr || sE == 0)
  | .tver e _ => e.ok false true false
  | .tvchk e _ => e.ok true false false
  | .cpy e crc tm _ _ _ sT sR => e.ok true true true && stampOk tm sT && !(crc && sR == 0)
  | .cpy2 e crc tm _ _ _ _ sT sR => e.ok true true true && stampOk tm sT && !(crc && sR == 0)
  | .cfill e crc tm _ _ _ sT sR => e.ok false true true && stampOk tm sT && !(crc && sR == 0)
  | .cpym e crc tm _ _ _ sT _ sR => e.ok true true true && stampOk tm sT && !(crc && sR == 0)
  | .cpym2 e crc tm _ _ _ _ sT _ sR => e.ok true true true && stampOk tm sT && !(crc && sR == 0)
  | .ccrc e crc tm _ _ sT sR => e.ok true true true && stampOk tm sT && crc && sR != 0
  | .gth e _ _ _ _ _ => e.ok true true true
  | .sct e op fmt _ _ _ _ _ => e.ok true true true && decide (op.toNat < 4) && (if op = 0 then fmt == 0 else bagFormatOk fmt)
  | .gred e op fmt _ _ _ _ _ _ => e.ok true true true && decide (1 ≤ op.toNat) && decide (op.toNat < 4) && bagFormatOk fmt
  | .topk e _ fmt _ _ _ _ _ => e.ok true true true && rankFormatOk fmt
  | .psort e _ fmt _ _ _ _ _ => e.ok true true true && rankFormatOk fmt
  | .gscan e _ fmt sD _ sB sC _ => e.ok true true true && (fmt == 0 || fmt == 3 || fmt == 7 || fmt == 8) && ((sB == 0) == (sC == 0)) && (sD != 0 || sB != 0)
  | .ghist e _ _ fmt _ _ => e.ok true true true && (fmt == 6 || fmt == 7)
  | .rndh e _ fmt _ _ _ => e.ok false true false && (fmt == 0 || fmt == 7)
  | .lred e _ w _ _ => e.ok true true true && decide (2 ≤ w.toNat)
  | .lopen e op _ _ _ _ => e.ok false true false && decide (op.toNat < 3)
  | .lord e _ _ _ => e.ok true false true
  | .lwag e _ _ _ _ => e.ok true false false
  | .lordArrival .. => true
  | .waggleArrival .. => true
  | .engineCommandStart .. => true
  | .granuleCommit .. => true
  | .tagWait .. => true
  | .translationReply .. => true
  | .stampStart .. => true
  | .engineCommandComplete .. => true
  | .rdcyc .. => true
  | .rdgcyc .. => true
  | .rdtinf _ sel => decide (sel.toNat < 4)
  | .realign _ t => decide (t.toNat < 2)
  | .twait _ t => decide (t.toNat < 2)
  | .realignResume .. => true
  | .twaitExpiry .. => true
  | .tnext d => tnextRegOk d
  | .tinfo _ sel => decide (sel.toNat < 8)
  | .gbarRelease .. => true
  | .klaunch .. => true
  | .sxin .. => true
  | .sxout .. => true
  | .swait .. => true
  | .evget .. => true
  | .evgetNb .. => true
  | .lcancel .. => true
  | .tret .. => true
  | .tretEmu .. => true
  | .tretKill .. => true
  | .tqwait .. => true
  | .rdsr .. => true
  | .wrsr .. => true
  | .ibinv .. => true
  | .cpatch .. => true
  | .pswap .. => true
  | .ctxsv .. => true
  | .ctxld .. => true
  | .ptupd .. => true
  | .tlbinv .. => true
  | .xlat _ _ m => decide (m.toNat < 4)
  | .wqry _ _ sel => decide (sel.toNat < 2)
  | .wset .. => true
  | .scanComplete .. => true
  | .replicaStep .. => true
  | .cellHalt .. => true
  | .pswapExchange .. => true
  | .restoredGangDispatch .. => true
  | .wqTailWrite .. => true
  | .wqCancel .. => true
  | .launchStart .. => true
  | .launchCompletion .. => true
  | .kernelEligible .. => true
  | .gangDispatch .. => true
  | .gangBaseCycle .. => true
  | .streamTransfer .. => true
  | .streamCompletion .. => true
  | .cellExit .. => true
  | .gangExit .. => true
  | .samplingIntervalEnd .. => true
  | .mirrorTimeout .. => true
  | .contextSaveComplete .. => true
  | .scalarWritePerformed .. => true
  | .tqheadWrite .. => true
  | .wqcfgWrite .. => true
  | .sysregWrite .. => true
  | .packageReset .. => true
  | .monitorAlarm .. => true
  | .patrolScrub .. => true
  | .mirrorAck .. => true
  | .bufferDieFailure .. => true
  | .eyeMarginPrediction .. => true
  | .hostLinkDown .. => true
  | .hostMemoryAccess .. => true
  | .hsemAcquire .. => true
  | .hsemRelease .. => true
  | .formPartition .. => true
  | .dissolvePartition .. => true
  | .writeWpol .. => true
  | .writeCethr .. => true
  | .stageFirmware .. => true
  | .layoutReservedOp .. => true
  | .getVersion .. => true
  | .getCapabilities .. => true
  | .negotiateAlgorithms .. => true
  | .getDigests .. => true
  | .getCertificate .. => true
  | .challenge .. => true
  | .getMeasurements .. => true
  | .pskExchange .. => true
  | .hostLinkUp .. => true
  | .mirrorWriteReceive .. => true
  | .softError .. => true
  | .arrayUndervolt .. => true
  | .ideKmKeyProg .. => true
  | .exit => true
  | .nop => true
  | .mpopShort => true
  | .minvShort => true
  | .retShort => true
  | .exitShort => true
  | .gbar => true
  | .launchAgeing => true
  | .lifetimeCommit => true
  | .errorWindowEnd => true
  | .packageLinkUp => true

end Sys2Proof
end

