-- ==== Sys2Proof/Decode.lean ====
section
/-! DEFINITION. From instruction words to instructions and back (03 R43 to R58): the decoder is total on any parcels
and rejects by name; the encoder is written from the same encoding tables. -/

namespace Sys2Proof

/-- Why a word is rejected; the scanner's outcome codes 0x01 to 0x06 and 0x0A (03 Table 3-7). -/
inductive DecodeError where
  /-- Major 0x1E (code 0x01). -/
  | unassignedMajor
  /-- A minor that is reserved for its major (code 0x02). -/
  | reservedMinor
  /-- A reserved field is not zero or a field value is not listed (code 0x03). -/
  | reservedField
  /-- An argument word where no command announced it (code 0x05). -/
  | strayArgument
  /-- Fewer argument words than NARG (code 0x06). -/
  | missingArgument
  /-- The parcels end inside a word (code 0x0A). -/
  | truncated
  deriving DecidableEq, Repr

/-- The scanner's outcome code of a rejection (03 Table 3-7). -/
def DecodeError.scanCode : DecodeError → Nat
  | .unassignedMajor => 0x01
  | .reservedMinor => 0x02
  | .reservedField => 0x03
  | .strayArgument => 0x05
  | .missingArgument => 0x06
  | .truncated => 0x0A

/-! ## Words and their parts -/

/-- The parts of a 32-bit word that has a minor (03 Table 3-1). -/
structure WordParts where
  major : BitVec 5
  x : BitVec 2
  minor : BitVec 4
  low : BitVec 20
  deriving DecidableEq, Repr

/-- The word made of its parts; bit 31 is 1 (03 R43). -/
def WordParts.pack (p : WordParts) : BitVec 32 := 1#1 ++ p.major ++ p.x ++ p.minor ++ p.low

/-- The parts of a word. -/
def WordParts.unpack (w : BitVec 32) : WordParts :=
  { major := w.extractLsb' 26 5, x := w.extractLsb' 24 2, minor := w.extractLsb' 20 4, low := w.extractLsb' 0 20 }

/-- Bits 19:0 in formats R and I and in argument words: four fields of five bits. -/
structure RParts where
  d : BitVec 5
  a : BitVec 5
  b : BitVec 5
  m : BitVec 5
  deriving DecidableEq, Repr

def RParts.pack (p : RParts) : BitVec 20 := p.d ++ p.a ++ p.b ++ p.m

def RParts.unpack (w : BitVec 20) : RParts :=
  { d := w.extractLsb' 15 5, a := w.extractLsb' 10 5, b := w.extractLsb' 5 5, m := w.extractLsb' 0 5 }

/-- The immediate of format I: IMM[11:10] in bits 25:24 and IMM[9:0] in bits 9:0. -/
def immI (x : BitVec 2) (low : BitVec 20) : BitVec 12 := x ++ low.extractLsb' 0 10

/-- The immediate of formats W and B: bits 16:15 in bits 25:24 and bits 14:0 in bits 14:0. -/
def immW (x : BitVec 2) (low : BitVec 20) : BitVec 17 := x ++ low.extractLsb' 0 15

/-- Bits 19:0 of an engine command: the common fields and bits 7:0 (03 Table 3-1, format E). -/
def EngineFlags.pack (e : EngineFlags) (spec : BitVec 8) : BitVec 20 :=
  BitVec.ofBool e.ce ++ e.cnt ++ BitVec.ofBool e.acq ++ BitVec.ofBool e.rel ++ e.scope ++ BitVec.ofBool e.tag ++ spec

def EngineFlags.unpack (w : BitVec 20) : EngineFlags :=
  { ce := w.getLsbD 19, cnt := w.extractLsb' 14 5, acq := w.getLsbD 13, rel := w.getLsbD 12,
    scope := w.extractLsb' 9 3, tag := w.getLsbD 8 }

/-- The payload of an argument word: bit 25 and five fields of five bits (09 Table 9-5, 11 Table 11-4). -/
structure ArgParts where
  top : Bool
  f4 : BitVec 5
  f3 : BitVec 5
  f2 : BitVec 5
  f1 : BitVec 5
  f0 : BitVec 5
  deriving DecidableEq, Repr

def ArgParts.pack (p : ArgParts) : BitVec 26 := BitVec.ofBool p.top ++ p.f4 ++ p.f3 ++ p.f2 ++ p.f1 ++ p.f0

def ArgParts.unpack (w : BitVec 26) : ArgParts :=
  { top := w.getLsbD 25, f4 := w.extractLsb' 20 5, f3 := w.extractLsb' 15 5, f2 := w.extractLsb' 10 5,
    f1 := w.extractLsb' 5 5, f0 := w.extractLsb' 0 5 }

/-- The first parcel of a 32-bit word holds bits 31:16, the second bits 15:0 (03 R43). -/
def wordParcels (w : BitVec 32) : List Parcel := [w.extractLsb' 16 16, w.extractLsb' 0 16]

/-- An argument word (major 0x1F) with a payload (03 R51). -/
def argParcels (p : BitVec 26) : List Parcel := wordParcels (0x3F#6 ++ p)

/-- Bytes of a parcel, low byte first (00 R4). -/
def parcelBytes (p : Parcel) : List Byte := [p.extractLsb' 0 8, p.extractLsb' 8 8]

/-! ## Decoding -/

/-- An instruction whose shape fits, if the shape's fixed fields are as required. -/
def shape (fixed : Bool) (i : Instr) : Except DecodeError Instr := if fixed then .ok i else .error .reservedField

/-- Major 0x01 (04 Table 4-2). -/
def decodeCtl (x : BitVec 2) (minor : BitVec 4) (low : BitVec 20) : Except DecodeError Instr :=
  let r := RParts.unpack low
  let imm := immW x low
  match minor.toNat with
  | 0 => shape (r.d == 0) (.br imm)
  | 1 => shape true (.bz r.d imm)
  | 2 => shape true (.bnz r.d imm)
  | 3 => shape true (.dcbnz r.d imm)
  | 4 => shape (r.d == 0) (.call imm)
  | 5 => shape (imm == 0) (.callr r.d)
  | 6 => shape (imm == 0) (.ret r.d)
  | 7 => shape (imm == 0) (.bqpush r.d)
  | 8 => shape (r.d == 0) (.halt imm)
  | 9 => shape (r.d == 0 && imm == 0) .exit
  | 10 => shape (r.d == 0) (.bqt imm)
  | 11 => shape (r.d == 0) (.bqf imm)
  | _ => .error .reservedMinor

/-- Major 0x02 (05 Table 5-4). -/
def decodeAlu (x : BitVec 2) (minor : BitVec 4) (low : BitVec 20) : Except DecodeError Instr :=
  let r := RParts.unpack low
  match minor.toNat with
  | 0 => shape (x == 0) (.add r.d r.a r.b r.m)
  | 1 => shape (x == 0 && r.m == 0) (.sub r.d r.a r.b)
  | 2 => shape (x == 0 && r.m == 0) (.and r.d r.a r.b)
  | 3 => shape (x == 0 && r.m == 0) (.or r.d r.a r.b)
  | 4 => shape (x == 0 && r.m == 0) (.xor r.d r.a r.b)
  | 5 => shape (x == 0 && r.m == 0) (.andn r.d r.a r.b)
  | 6 => shape (x == 0 && r.m == 0) (.shl r.d r.a r.b)
  | 7 => shape (x == 0 && r.m == 0) (.shr r.d r.a r.b)
  | 8 => shape (x == 0 && r.m == 0) (.sra r.d r.a r.b)
  | 9 => shape (x == 0 && r.m == 0) (.slt r.d r.a r.b)
  | 10 => shape (x == 0 && r.m == 0) (.sltu r.d r.a r.b)
  | 11 => shape (x == 0 && r.m == 0) (.min r.d r.a r.b)
  | 12 => shape (x == 0 && r.m == 0) (.max r.d r.a r.b)
  | 13 => shape (x == 0 && r.m == 0) (.minu r.d r.a r.b)
  | 14 => shape (x == 0 && r.m == 0) (.maxu r.d r.a r.b)
  | 15 => shape (x == 0 && r.b == 0) (.mov r.d r.a r.m)
  | _ => .error .reservedMinor

/-- Major 0x03 (05 Table 5-6). -/
def decodeAlui (x : BitVec 2) (minor : BitVec 4) (low : BitVec 20) : Except DecodeError Instr :=
  let r := RParts.unpack low
  let imm := immI x low
  match minor.toNat with
  | 0 => shape true (.addi r.d r.a imm)
  | 1 => shape true (.andi r.d r.a imm)
  | 2 => shape true (.ori r.d r.a imm)
  | 3 => shape true (.xori r.d r.a imm)
  | 4 => shape true (.shli r.d r.a imm)
  | 5 => shape true (.shri r.d r.a imm)
  | 6 => shape true (.srai r.d r.a imm)
  | 7 => shape true (.slti r.d r.a imm)
  | 8 => shape true (.sltiu r.d r.a imm)
  | 9 => shape true (.mini r.d r.a imm)
  | 10 => shape true (.maxi r.d r.a imm)
  | 11 => shape true (.seqi r.d r.a imm)
  | _ => .error .reservedMinor

/-- Major 0x04 (05 R99). -/
def decodeWide (x : BitVec 2) (minor : BitVec 4) (low : BitVec 20) : Except DecodeError Instr :=
  let r := RParts.unpack low
  let imm := immW x low
  match minor.toNat with
  | 0 => shape true (.li r.d imm)
  | 1 => shape true (.lsh r.d imm)
  | 2 => shape true (.lown r.d imm)
  | 3 => shape true (.lpc r.d imm)
  | _ => .error .reservedMinor

/-- Major 0x05 (05 R100 to R103). -/
def decodeBits (x : BitVec 2) (minor : BitVec 4) (low : BitVec 20) : Except DecodeError Instr :=
  let r := RParts.unpack low
  match minor.toNat with
  | 0 => shape (x == 0 && r.b == 0) (.clz r.d r.a r.m)
  | 1 => shape (x == 0 && r.b == 0) (.ffs r.d r.a r.m)
  | 2 => shape (x == 0 && r.b == 0) (.popc r.d r.a r.m)
  | 3 => shape (x == 0) (.padd r.d r.a r.b r.m)
  | 4 => shape (x == 0) (.psub r.d r.a r.b r.m)
  | 5 => shape (x == 0) (.bfx r.d r.a r.b r.m)
  | _ => .error .reservedMinor

/-- Major 0x06 (05 Table 5-10). -/
def decodeMuld (x : BitVec 2) (minor : BitVec 4) (low : BitVec 20) : Except DecodeError Instr :=
  let r := RParts.unpack low
  match minor.toNat with
  | 0 => shape (x == 0 && r.m == 0) (.mul r.d r.a r.b)
  | 1 => shape (x == 0 && r.m == 0) (.mulh r.d r.a r.b)
  | 2 => shape (x == 0 && r.m == 0) (.mulhu r.d r.a r.b)
  | 3 =>
    match r.m.toNat with
    | 0 => shape (x == 0) (.div r.d r.a r.b)
    | 1 => shape (x == 0) (.rem r.d r.a r.b)
    | _ => .error .reservedField
  | 4 =>
    match r.m.toNat with
    | 0 => shape (x == 0) (.divu r.d r.a r.b)
    | 1 => shape (x == 0) (.remu r.d r.a r.b)
    | _ => .error .reservedField
  | 5 => shape (x == 0 && r.m == 0) (.madd r.d r.a r.b)
  | _ => .error .reservedMinor

/-- Major 0x08 (06 Table 6-7). -/
def decodeSmem (x : BitVec 2) (minor : BitVec 4) (low : BitVec 20) : Except DecodeError Instr :=
  let r := RParts.unpack low
  let imm := immI x low
  match minor.toNat with
  | 0 => shape true (.ld r.d r.a imm)
  | 1 => shape true (.lds r.d r.a imm)
  | 2 => shape true (.st r.d r.a imm)
  | 3 => shape (r.d == 0) (.pref r.a imm)
  | _ => .error .reservedMinor

/-- Major 0x09 (06 Table 6-8). -/
def decodeQmem (x : BitVec 2) (minor : BitVec 4) (low : BitVec 20) : Except DecodeError Instr :=
  let r := RParts.unpack low
  let imm := immI x low
  match minor.toNat with
  | 0 => shape true (.qld r.d r.a imm)
  | 1 => shape true (.qst r.d r.a imm)
  | 2 => shape true (.qldi r.d r.a imm)
  | 3 => shape true (.qsti r.d r.a imm)
  | _ => .error .reservedMinor

/-- Major 0x0a (06 Table 6-9). -/
def decodePath (x : BitVec 2) (minor : BitVec 4) (low : BitVec 20) : Except DecodeError Instr :=
  let r := RParts.unpack low
  match minor.toNat with
  | 0 =>
    match r.m.toNat with
    | 0 => shape (x == 0) (.cadrG r.d r.a r.b)
    | 1 => shape (x == 0) (.cadrB r.d r.a r.b)
    | _ => .error .reservedField
  | 1 => shape (x == 0 && r.b == 0) (.pchk r.d r.a r.m)
  | _ => .error .reservedMinor

/-- Major 0x0b (07 Table 7-3). -/
def decodeSync (x : BitVec 2) (minor : BitVec 4) (low : BitVec 20) : Except DecodeError Instr :=
  let r := RParts.unpack low
  match minor.toNat with
  | 0 => shape (x == 0 && r.m == 0) (.bind r.d r.a r.b)
  | 1 => shape (x == 0 && r.b == 0 && r.m == 0) (.unbind r.d r.a)
  | 2 => shape (x == 0) (.acq r.d r.a r.b r.m)
  | 3 => shape (x == 0 && r.b == 0) (.rel r.d r.a r.m)
  | 4 => shape (x == 0 && r.d == 0 && r.a == 0 && r.b == 0) (.fence r.m)
  | 5 => shape (x == 0) (.xfer r.d r.a r.b r.m)
  | 6 => shape (x == 0 && r.d == 0 && r.m == 0) (.oinit r.a r.b)
  | _ => .error .reservedMinor

/-- Major 0x0c (08 Table 8-3). -/
def decodeCnt (x : BitVec 2) (minor : BitVec 4) (low : BitVec 20) : Except DecodeError Instr :=
  let r := RParts.unpack low
  let imm := immI x low
  match minor.toNat with
  | 0 => shape true (.cwait r.d r.a imm)
  | 1 => shape true (.cwaitlt r.d r.a imm)
  | 2 => shape (r.a == 0) (.cinc r.d imm)
  | 3 => shape true (.crinc r.d r.a imm)
  | 4 => shape (imm == 0) (.cset r.d r.a)
  | 5 => shape (imm == 0) (.cread r.d r.a)
  | 6 => shape true (.cstat r.d r.a imm)
  | 7 =>
    match imm.toNat with
    | 0 => shape true (.tinv r.d r.a)
    | 1 => shape true (.tval r.d r.a)
    | 2 => shape true (.tread r.d r.a)
    | _ => .error .reservedField
  | _ => .error .reservedMinor

/-- Major 0x0d (08 Table 8-6). -/
def decodeAmo (x : BitVec 2) (minor : BitVec 4) (low : BitVec 20) : Except DecodeError Instr :=
  let r := RParts.unpack low
  match minor.toNat with
  | 0 => shape (x == 0) (.amo r.d r.a r.b r.m)
  | 1 => shape (x == 0 && r.d == 0) (.red r.a r.b r.m)
  | 2 => shape (x == 0) (.swap r.d r.a r.b r.m)
  | 3 => shape (x == 0) (.cas r.d r.a r.b r.m)
  | _ => .error .reservedMinor

/-- Major 0x0e (09 Table 9-1). -/
def decodeAcc (x : BitVec 2) (minor : BitVec 4) (low : BitVec 20) : Except DecodeError Instr :=
  let r := RParts.unpack low
  let imm := immI x low
  match minor.toNat with
  | 0 => shape (r.a == 0) (.accalloc r.d imm)
  | 1 => shape (r.d == 0) (.accfree r.a imm)
  | _ => .error .reservedMinor

/-- Major 0x1b (16 Table 16-5). -/
def decodeTim (x : BitVec 2) (minor : BitVec 4) (low : BitVec 20) : Except DecodeError Instr :=
  let r := RParts.unpack low
  match minor.toNat with
  | 0 =>
    match r.m.toNat with
    | 0 => shape (x == 0 && r.a == 0 && r.b == 0) (.rdcyc r.d)
    | 1 => shape (x == 0 && r.a == 0 && r.b == 0) (.rdgcyc r.d)
    | _ => .error .reservedField
  | 1 => shape (x == 0 && r.a == 0 && r.b == 0) (.rdtinf r.d r.m)
  | 2 => shape (x == 0 && r.d == 0 && r.b == 0) (.realign r.a r.m)
  | 3 => shape (x == 0 && r.d == 0 && r.b == 0) (.twait r.a r.m)
  | _ => .error .reservedMinor

/-- Major 0x1c (17 Table 17-7). -/
def decodeWrk (x : BitVec 2) (minor : BitVec 4) (low : BitVec 20) : Except DecodeError Instr :=
  let r := RParts.unpack low
  match minor.toNat with
  | 0 => shape (x == 0 && r.a == 0 && r.b == 0 && r.m == 0) (.tnext r.d)
  | 1 => shape (x == 0 && r.a == 0 && r.b == 0) (.tinfo r.d r.m)
  | 2 => shape (x == 0 && r.d == 0 && r.a == 0 && r.b == 0 && r.m == 0) .gbar
  | 3 => shape (x == 0 && r.m == 0) (.klaunch r.d r.a r.b)
  | 4 => shape (x == 0 && r.m == 0) (.sxin r.d r.a r.b)
  | 5 => shape (x == 0 && r.m == 0) (.sxout r.d r.a r.b)
  | 6 => shape (x == 0 && r.b == 0 && r.m == 0) (.swait r.d r.a)
  | 7 =>
    match r.m.toNat with
    | 0 => shape (x == 0 && r.a == 0 && r.b == 0) (.evget r.d)
    | 1 => shape (x == 0 && r.a == 0 && r.b == 0) (.evgetNb r.d)
    | _ => .error .reservedField
  | 8 => shape (x == 0 && r.d == 0 && r.b == 0 && r.m == 0) (.lcancel r.a)
  | _ => .error .reservedMinor

/-- Major 0x1d (18 Table 18-6, 19 Table 19-4, 21 Table 21-3). -/
def decodeSys (x : BitVec 2) (minor : BitVec 4) (low : BitVec 20) : Except DecodeError Instr :=
  let r := RParts.unpack low
  match minor.toNat with
  | 0 =>
    match r.m.toNat with
    | 0 => shape (x == 0 && r.b == 0) (.tret r.d r.a)
    | 1 => shape (x == 0 && r.b == 0) (.tretEmu r.d r.a)
    | 2 => shape (x == 0 && r.b == 0) (.tretKill r.d r.a)
    | _ => .error .reservedField
  | 1 => shape (x == 0 && r.a == 0 && r.b == 0 && r.m == 0) (.tqwait r.d)
  | 2 => shape (x == 0 && r.b == 0 && r.m == 0) (.rdsr r.d r.a)
  | 3 => shape (x == 0 && r.d == 0 && r.m == 0) (.wrsr r.a r.b)
  | 4 => shape (x == 0 && r.d == 0 && r.b == 0 && r.m == 0) (.ibinv r.a)
  | 5 => shape (x == 0 && r.m == 0) (.cpatch r.d r.a r.b)
  | 6 => shape (x == 0 && r.m == 0) (.pswap r.d r.a r.b)
  | 7 => shape (x == 0 && r.m == 0) (.ctxsv r.d r.a r.b)
  | 8 => shape (x == 0 && r.b == 0 && r.m == 0) (.ctxld r.d r.a)
  | 9 => shape (x == 0 && r.m == 0) (.ptupd r.d r.a r.b)
  | 10 => shape (x == 0 && r.d == 0 && r.m == 0) (.tlbinv r.a r.b)
  | 11 => shape (x == 0 && r.b == 0) (.xlat r.d r.a r.m)
  | 12 => shape (x == 0 && r.b == 0) (.wqry r.d r.a r.m)
  | 13 => shape (x == 0 && r.m == 0) (.wset r.d r.a r.b)
  | _ => .error .reservedMinor

/-- Major 0x07, XMOV (05 Table 5-14). -/
def decodeXmov (x : BitVec 2) (minor : BitVec 4) (low : BitVec 20) : Except DecodeError Instr :=
  match minor.toNat with
  | 0 => shape (x == 0 && low.extractLsb' 15 2 == 0 && !low.getLsbD 5)
      (.mv (low.extractLsb' 17 3) (low.extractLsb' 13 2) (low.extractLsb' 6 7) (low.extractLsb' 0 5))
  | 1 => shape (x == 0) (.mvi (low.extractLsb' 18 2) (low.extractLsb' 11 7) (low.extractLsb' 0 11))
  | _ => .error .reservedMinor

/-- Major 0x00, a block header (03 Table 3-1, format H; R55). -/
def decodeBlk (w : BitVec 32) : Except DecodeError Instr :=
  let l := w.extractLsb' 0 12
  if w.getLsbD 25 then shape (l != 0 && w.extractLsb' 18 7 == 0) (.blkRegister (w.extractLsb' 12 6) l)
  else shape (l != 0) (.blkImmediate (w.extractLsb' 12 13) l)

/-- A 16-bit word (03 R52, R53, Table 3-4). -/
def decodeShort (p : Parcel) : Except DecodeError Instr :=
  let h := p.extractLsb' 5 5
  let l := p.extractLsb' 0 5
  if p.getLsbD 14 then .ok (.mvShort (p.extractLsb' 12 2) (p.extractLsb' 5 7) (p.extractLsb' 0 5))
  else match (p.extractLsb' 10 4).toNat with
  | 0 => shape (h == 0 && l == 0) .nop
  | 1 => .ok (.brk (p.extractLsb' 0 10))
  | 2 => shape true (.addShort h l)
  | 3 => shape true (.addiShort h l)
  | 4 => .ok (.brShort (p.extractLsb' 0 10))
  | 5 => shape true (.cwaitShort h l)
  | 6 => shape true (.cincShort h l)
  | 7 => shape (l == 0) (.tnextShort h)
  | 8 => shape (h == 0 && l == 0) .mpopShort
  | 9 => shape (h == 0 && l == 0) .minvShort
  | 10 => shape (h == 0 && l == 0) .retShort
  | 11 => shape (h == 0 && l == 0) .exitShort
  | 12 => .ok (.bqtShort (p.extractLsb' 0 10))
  | 13 => shape true (.movShort h l)
  | 14 => shape true (.subShort h l)
  | _ => shape true (.dcbnzShort h l)

/-- Major 0x0f (09 Table 9-4). `pw` and `qw` are the payloads of the argument words, 0 where there is none. -/
def decodeMxm (minor : BitVec 4) (narg : Nat) (e : EngineFlags) (spec : BitVec 8) (pw qw : BitVec 26) :
    Except DecodeError Instr :=
  let p := ArgParts.unpack pw
  let q := ArgParts.unpack qw
  match minor.toNat with
  | 0 => shape (!p.top && !q.top && q.f4 == 0 && q.f3 == 0 && q.f2 == 0)
      (.mxmm e (spec.extractLsb' 5 3) (spec.getLsbD 4) (spec.getLsbD 3) (spec.getLsbD 2) (spec.extractLsb' 0 2) p.f4 p.f3 p.f2 p.f1 p.f0 q.f1 q.f0)
  | 1 => shape (spec.extractLsb' 2 4 == 0 && !p.top && p.f3 == 0)
      (.mxld e (spec.getLsbD 7) (spec.getLsbD 6) (spec.extractLsb' 0 2) p.f4 p.f2 p.f1 p.f0)
  | 2 => shape (spec.extractLsb' 2 6 == 0 && !p.top && p.f4 == 0 && p.f3 == 0 && p.f2 == 0)
      (.mxclr e (spec.extractLsb' 0 2) p.f1 p.f0)
  | 3 => shape (spec.extractLsb' 4 4 == 0 && !p.top && p.f4 == 0)
      (.mxmma e (spec.getLsbD 3) (spec.getLsbD 2) (spec.extractLsb' 0 2) p.f3 p.f2 p.f1 p.f0)
  | 4 => shape (spec.extractLsb' 2 5 == 0 && !p.top && p.f4 == 0 && p.f3 == 0 && p.f2 == 0)
      (.mxmv e (spec.getLsbD 7) (spec.extractLsb' 0 2) p.f1 p.f0)
  | 5 => if narg = 0 then shape (spec.extractLsb' 0 8 == 0)
      (.mxmark e)
    else shape (spec.extractLsb' 2 6 == 0 && !p.top && p.f4 == 0 && p.f3 == 0 && p.f2 == 0 && p.f1 == 0)
      (.mxmarkStamped e (spec.extractLsb' 0 2) p.f0)
  | _ => .error .reservedMinor

/-- Major 0x10 (10 Table 10-1). `pw` and `qw` are the payloads of the argument words, 0 where there is none. -/
def decodeDrn (minor : BitVec 4) (_narg : Nat) (e : EngineFlags) (spec : BitVec 8) (pw _qw : BitVec 26) :
    Except DecodeError Instr :=
  let p := ArgParts.unpack pw
  match minor.toNat with
  | 0 => shape (spec.extractLsb' 2 3 == 0 && !p.top)
      (.mxdrn e (spec.extractLsb' 6 2) (spec.getLsbD 5) (spec.extractLsb' 0 2) p.f4 p.f3 p.f2 p.f1 p.f0)
  | 1 => shape (spec.extractLsb' 0 6 == 0 && !p.top && p.f3 == 0 && p.f2 == 0 && p.f1 == 0 && p.f0 == 0)
      (.mxepl e (spec.extractLsb' 6 2) p.f4)
  | 2 => shape (spec.extractLsb' 0 8 == 0 && !p.top && p.f4 == 0 && p.f3 == 0 && p.f2 == 0 && p.f0 == 0)
      (.mxcks e p.f1)
  | 3 => shape (spec.extractLsb' 2 3 == 0 && !p.top && p.f4 == 0 && p.f2 == 0)
      (.mxdrs e (spec.extractLsb' 6 2) (spec.getLsbD 5) (spec.extractLsb' 0 2) p.f3 p.f1 p.f0)
  | _ => .error .reservedMinor

/-- Major 0x11 (10 Table 10-1). `pw` and `qw` are the payloads of the argument words, 0 where there is none. -/
def decodeMxc (minor : BitVec 4) (_narg : Nat) (e : EngineFlags) (spec : BitVec 8) (pw _qw : BitVec 26) :
    Except DecodeError Instr :=
  let p := ArgParts.unpack pw
  match minor.toNat with
  | 0 => shape (spec.extractLsb' 0 6 == 0 && !p.top && p.f3 == 0 && p.f2 == 0 && p.f1 == 0 && p.f0 == 0)
      (.mxshp e (spec.extractLsb' 6 2) p.f4)
  | 1 => shape (spec.extractLsb' 2 1 == 0 && !p.top)
      (.mxcv e (spec.extractLsb' 6 2) (spec.getLsbD 5) (spec.getLsbD 4) (spec.getLsbD 3) (spec.extractLsb' 0 2) p.f4 p.f3 p.f2 p.f1 p.f0)
  | _ => .error .reservedMinor

/-- Major 0x12 (11 Tables 11-3, 11-6). `pw` and `qw` are the payloads of the argument words, 0 where there is none. -/
def decodeVfp (minor : BitVec 4) (_narg : Nat) (e : EngineFlags) (spec : BitVec 8) (pw _qw : BitVec 26) :
    Except DecodeError Instr :=
  let p := ArgParts.unpack pw
  match minor.toNat with
  | 0 => shape (spec.extractLsb' 1 2 == 0 && !p.top && p.f1 == 0)
      (.vadd e (spec.extractLsb' 5 3) (spec.extractLsb' 3 2) (spec.getLsbD 0) p.f4 p.f3 p.f2 p.f0)
  | 1 => shape (spec.extractLsb' 1 2 == 0 && !p.top && p.f1 == 0)
      (.vsub e (spec.extractLsb' 5 3) (spec.extractLsb' 3 2) (spec.getLsbD 0) p.f4 p.f3 p.f2 p.f0)
  | 2 => shape (spec.extractLsb' 1 2 == 0 && !p.top && p.f1 == 0)
      (.vmul e (spec.extractLsb' 5 3) (spec.extractLsb' 3 2) (spec.getLsbD 0) p.f4 p.f3 p.f2 p.f0)
  | 6 => shape (spec.extractLsb' 1 2 == 0 && !p.top && p.f1 == 0)
      (.vdiv e (spec.extractLsb' 5 3) (spec.extractLsb' 3 2) (spec.getLsbD 0) p.f4 p.f3 p.f2 p.f0)
  | 3 => shape (spec.extractLsb' 1 2 == 0 && !p.top)
      (.vfma e (spec.extractLsb' 5 3) (spec.extractLsb' 3 2) (spec.getLsbD 0) p.f4 p.f3 p.f2 p.f1 p.f0)
  | 4 => shape (spec.extractLsb' 5 3 == 0 && spec.extractLsb' 1 2 == 0 && !p.top && p.f1 == 0 && p.f0 == 0)
      (.vmin e (spec.extractLsb' 3 2) (spec.getLsbD 0) p.f4 p.f3 p.f2)
  | 5 => shape (spec.extractLsb' 5 3 == 0 && spec.extractLsb' 1 2 == 0 && !p.top && p.f1 == 0 && p.f0 == 0)
      (.vmax e (spec.extractLsb' 3 2) (spec.getLsbD 0) p.f4 p.f3 p.f2)
  | 7 => shape (spec.extractLsb' 1 2 == 0 && !p.top && p.f2 == 0 && p.f1 == 0)
      (.vsqrt e (spec.extractLsb' 5 3) (spec.extractLsb' 3 2) (spec.getLsbD 0) p.f4 p.f3 p.f0)
  | 8 => shape (spec.extractLsb' 5 3 == 0 && !p.top && p.f1 == 0 && p.f0 == 0)
      (.vsgn e (spec.extractLsb' 3 2) (spec.extractLsb' 1 2) (spec.getLsbD 0) p.f4 p.f3 p.f2)
  | 9 => shape (spec.extractLsb' 1 2 == 0 && !p.top && p.f1 == 0 && p.f0 == 0)
      (.vcmp e (spec.extractLsb' 5 3) (spec.extractLsb' 3 2) (spec.getLsbD 0) p.f4 p.f3 p.f2)
  | 10 => shape (spec.extractLsb' 1 2 == 0 && !p.top)
      (.vrsc e (spec.extractLsb' 5 3) (spec.extractLsb' 3 2) (spec.getLsbD 0) p.f4 p.f3 p.f2 p.f1 p.f0)
  | 11 => shape (spec.extractLsb' 5 3 == 0 && !p.top && p.f2 == 0 && p.f1 == 0)
      (.vrst e (spec.extractLsb' 3 2) (spec.extractLsb' 1 2) (spec.getLsbD 0) p.f4 p.f3 p.f0)
  | _ => .error .reservedMinor

/-- Major 0x13 (11 Tables 11-3, 11-7). `pw` and `qw` are the payloads of the argument words, 0 where there is none. -/
def decodeVic (minor : BitVec 4) (_narg : Nat) (e : EngineFlags) (spec : BitVec 8) (pw _qw : BitVec 26) :
    Except DecodeError Instr :=
  let p := ArgParts.unpack pw
  match minor.toNat with
  | 0 => shape (spec.extractLsb' 5 3 == 0 && !p.top && p.f1 == 0 && p.f0 == 0)
      (.viadd e (spec.extractLsb' 3 2) (spec.extractLsb' 1 2) (spec.getLsbD 0) p.f4 p.f3 p.f2)
  | 1 => shape (spec.extractLsb' 5 3 == 0 && !p.top && p.f1 == 0 && p.f0 == 0)
      (.visub e (spec.extractLsb' 3 2) (spec.extractLsb' 1 2) (spec.getLsbD 0) p.f4 p.f3 p.f2)
  | 2 => shape (!p.top && p.f1 == 0 && p.f0 == 0)
      (.vimul e (spec.extractLsb' 5 3) (spec.extractLsb' 3 2) (spec.extractLsb' 1 2) (spec.getLsbD 0) p.f4 p.f3 p.f2)
  | 3 => shape (spec.extractLsb' 1 2 == 0 && !p.top && p.f1 == 0 && p.f0 == 0)
      (.vilog e (spec.extractLsb' 5 3) (spec.extractLsb' 3 2) (spec.getLsbD 0) p.f4 p.f3 p.f2)
  | 4 => shape (spec.extractLsb' 1 2 == 0 && !p.top && p.f1 == 0 && p.f0 == 0)
      (.vishf e (spec.extractLsb' 5 3) (spec.extractLsb' 3 2) (spec.getLsbD 0) p.f4 p.f3 p.f2)
  | 5 => shape (spec.extractLsb' 1 2 == 0 && !p.top && p.f1 == 0 && p.f0 == 0)
      (.vicmp e (spec.extractLsb' 5 3) (spec.extractLsb' 3 2) (spec.getLsbD 0) p.f4 p.f3 p.f2)
  | 6 => shape (spec.extractLsb' 5 3 == 0 && spec.extractLsb' 1 2 == 0 && !p.top && p.f0 == 0)
      (.vsel e (spec.extractLsb' 3 2) (spec.getLsbD 0) p.f4 p.f3 p.f2 p.f1)
  | 7 => shape (true)
      (.vcvt e (spec.extractLsb' 5 3) (spec.extractLsb' 1 4) (spec.getLsbD 0) p.top p.f4 p.f3 p.f2 p.f1 p.f0)
  | _ => .error .reservedMinor

/-- Major 0x14 (11 Tables 11-3, 11-8). `pw` and `qw` are the payloads of the argument words, 0 where there is none. -/
def decodeVrd (minor : BitVec 4) (_narg : Nat) (e : EngineFlags) (spec : BitVec 8) (pw _qw : BitVec 26) :
    Except DecodeError Instr :=
  let p := ArgParts.unpack pw
  match minor.toNat with
  | 0 => shape (spec.extractLsb' 5 3 == 0 && !p.top && p.f2 == 0 && p.f1 == 0)
      (.vred e (spec.extractLsb' 3 2) (spec.extractLsb' 1 2) (spec.getLsbD 0) p.f4 p.f3 p.f0)
  | 1 => shape (spec.extractLsb' 5 3 == 0 && spec.extractLsb' 1 2 == 0 && !p.top && p.f1 == 0)
      (.vdot e (spec.extractLsb' 3 2) (spec.getLsbD 0) p.f4 p.f3 p.f2 p.f0)
  | 2 => shape (spec.extractLsb' 5 3 == 0 && !p.top && p.f2 == 0 && p.f1 == 0)
      (.vscan e (spec.extractLsb' 3 2) (spec.extractLsb' 1 2) (spec.getLsbD 0) p.f4 p.f3 p.f0)
  | 3 => shape (spec.extractLsb' 5 3 == 0 && spec.extractLsb' 1 2 == 0 && !p.top && p.f2 == 0 && p.f1 == 0 && p.f0 == 0)
      (.vbcast e (spec.extractLsb' 3 2) (spec.getLsbD 0) p.f4 p.f3)
  | _ => .error .reservedMinor

/-- Major 0x15 (11 Table 11-9). `pw` and `qw` are the payloads of the argument words, 0 where there is none. -/
def decodeMsk (minor : BitVec 4) (_narg : Nat) (e : EngineFlags) (spec : BitVec 8) (pw _qw : BitVec 26) :
    Except DecodeError Instr :=
  let p := ArgParts.unpack pw
  match minor.toNat with
  | 0 => shape (spec.extractLsb' 0 8 == 0 && !p.top && p.f4 == 0 && p.f2 == 0 && p.f1 == 0 && p.f0 == 0)
      (.mpush e p.f3)
  | 1 => shape (spec.extractLsb' 0 8 == 0)
      (.minv e)
  | 2 => shape (spec.extractLsb' 0 8 == 0)
      (.mpop e)
  | 3 => shape (spec == 0 && e == EngineFlags.unpack 0 && pw.extractLsb' 17 9 == 0)
      (.bmz (pw.extractLsb' 0 17))
  | _ => .error .reservedMinor

/-- Major 0x16 (12 Table 12-4). `pw` and `qw` are the payloads of the argument words, 0 where there is none. -/
def decodeTbl (minor : BitVec 4) (_narg : Nat) (e : EngineFlags) (spec : BitVec 8) (pw _qw : BitVec 26) :
    Except DecodeError Instr :=
  let p := ArgParts.unpack pw
  match minor.toNat with
  | 0 => shape (spec.extractLsb' 0 1 == 0 && !p.top && p.f2 == 0 && p.f1 == 0)
      (.tfn e (spec.extractLsb' 4 4) (spec.extractLsb' 2 2) (spec.getLsbD 1) p.f4 p.f3 p.f0)
  | 1 => shape (spec.extractLsb' 0 1 == 0 && !p.top)
      (.tfnx e (spec.extractLsb' 4 4) (spec.extractLsb' 2 2) (spec.getLsbD 1) p.f4 p.f3 p.f2 p.f1 p.f0)
  | 2 => shape (spec.extractLsb' 0 8 == 0 && !p.top && p.f3 == 0 && p.f2 == 0 && p.f1 == 0 && p.f0 == 0)
      (.tver e p.f4)
  | 3 => shape (spec.extractLsb' 0 8 == 0 && !p.top && p.f4 == 0 && p.f2 == 0 && p.f1 == 0 && p.f0 == 0)
      (.tvchk e p.f3)
  | _ => .error .reservedMinor

/-- Major 0x17 (13 Tables 13-1, 13-2). `pw` and `qw` are the payloads of the argument words, 0 where there is none. -/
def decodeCpy (minor : BitVec 4) (_narg : Nat) (e : EngineFlags) (spec : BitVec 8) (pw qw : BitVec 26) :
    Except DecodeError Instr :=
  let p := ArgParts.unpack pw
  let q := ArgParts.unpack qw
  match minor.toNat with
  | 0 => shape (spec.extractLsb' 2 5 == 0 && !p.top && p.f1 == 0 && !q.top && q.f4 == 0 && q.f3 == 0 && q.f2 == 0 && q.f1 == 0)
      (.cpy e (spec.getLsbD 7) (spec.extractLsb' 0 2) p.f4 p.f3 p.f2 p.f0 q.f0)
  | 1 => shape (spec.extractLsb' 2 5 == 0 && !p.top && !q.top && q.f4 == 0 && q.f3 == 0 && q.f2 == 0 && q.f1 == 0)
      (.cpy2 e (spec.getLsbD 7) (spec.extractLsb' 0 2) p.f4 p.f3 p.f2 p.f1 p.f0 q.f0)
  | 2 => shape (spec.extractLsb' 2 5 == 0 && !p.top && p.f3 == 0 && !q.top && q.f4 == 0 && q.f3 == 0 && q.f2 == 0 && q.f1 == 0)
      (.cfill e (spec.getLsbD 7) (spec.extractLsb' 0 2) p.f4 p.f2 p.f1 p.f0 q.f0)
  | 3 => shape (spec.extractLsb' 2 5 == 0 && !p.top && p.f1 == 0 && !q.top && q.f4 == 0 && q.f3 == 0 && q.f2 == 0)
      (.cpym e (spec.getLsbD 7) (spec.extractLsb' 0 2) p.f4 p.f3 p.f2 p.f0 q.f1 q.f0)
  | 4 => shape (spec.extractLsb' 2 5 == 0 && !p.top && !q.top && q.f4 == 0 && q.f3 == 0 && q.f2 == 0)
      (.cpym2 e (spec.getLsbD 7) (spec.extractLsb' 0 2) p.f4 p.f3 p.f2 p.f1 p.f0 q.f1 q.f0)
  | 5 => shape (spec.extractLsb' 2 5 == 0 && !p.top && p.f4 == 0 && p.f1 == 0 && !q.top && q.f4 == 0 && q.f3 == 0 && q.f2 == 0 && q.f1 == 0)
      (.ccrc e (spec.getLsbD 7) (spec.extractLsb' 0 2) p.f3 p.f2 p.f0 q.f0)
  | _ => .error .reservedMinor

/-- Major 0x18 (14 Table 14-1). `pw` and `qw` are the payloads of the argument words, 0 where there is none. -/
def decodeGth (minor : BitVec 4) (_narg : Nat) (e : EngineFlags) (spec : BitVec 8) (pw qw : BitVec 26) :
    Except DecodeError Instr :=
  let p := ArgParts.unpack pw
  let q := ArgParts.unpack qw
  match minor.toNat with
  | 0 => shape (spec.extractLsb' 0 8 == 0 && !p.top)
      (.gth e p.f4 p.f3 p.f2 p.f1 p.f0)
  | 1 => shape (spec.extractLsb' 0 1 == 0 && !p.top)
      (.sct e (spec.extractLsb' 5 3) (spec.extractLsb' 1 4) p.f4 p.f3 p.f2 p.f1 p.f0)
  | 2 => shape (spec.extractLsb' 0 1 == 0 && !p.top && !q.top && q.f4 == 0 && q.f3 == 0 && q.f2 == 0 && q.f1 == 0)
      (.gred e (spec.extractLsb' 5 3) (spec.extractLsb' 1 4) p.f4 p.f3 p.f2 p.f1 p.f0 q.f0)
  | _ => .error .reservedMinor

/-- Major 0x19 (14 Table 14-1). `pw` and `qw` are the payloads of the argument words, 0 where there is none. -/
def decodeSrt (minor : BitVec 4) (_narg : Nat) (e : EngineFlags) (spec : BitVec 8) (pw _qw : BitVec 26) :
    Except DecodeError Instr :=
  let p := ArgParts.unpack pw
  match minor.toNat with
  | 0 => shape (spec.extractLsb' 6 2 == 0 && spec.extractLsb' 0 1 == 0 && !p.top)
      (.topk e (spec.getLsbD 5) (spec.extractLsb' 1 4) p.f4 p.f3 p.f2 p.f1 p.f0)
  | 1 => shape (spec.extractLsb' 6 2 == 0 && spec.extractLsb' 0 1 == 0 && !p.top)
      (.psort e (spec.getLsbD 5) (spec.extractLsb' 1 4) p.f4 p.f3 p.f2 p.f1 p.f0)
  | 2 => shape (spec.extractLsb' 6 2 == 0 && spec.extractLsb' 0 1 == 0 && !p.top)
      (.gscan e (spec.getLsbD 5) (spec.extractLsb' 1 4) p.f4 p.f3 p.f2 p.f1 p.f0)
  | 3 => shape (spec.extractLsb' 7 1 == 0 && spec.extractLsb' 0 1 == 0 && !p.top && p.f2 == 0 && p.f1 == 0 && p.f0 == 0)
      (.ghist e (spec.getLsbD 6) (spec.getLsbD 5) (spec.extractLsb' 1 4) p.f4 p.f3)
  | 4 => shape (spec.extractLsb' 6 2 == 0 && spec.extractLsb' 0 1 == 0 && !p.top && p.f1 == 0 && p.f0 == 0)
      (.rndh e (spec.getLsbD 5) (spec.extractLsb' 1 4) p.f4 p.f3 p.f2)
  | _ => .error .reservedMinor

/-- Major 0x1a (15 Table 15-1). `pw` and `qw` are the payloads of the argument words, 0 where there is none. -/
def decodeLnk (minor : BitVec 4) (_narg : Nat) (e : EngineFlags) (spec : BitVec 8) (pw _qw : BitVec 26) :
    Except DecodeError Instr :=
  let p := ArgParts.unpack pw
  match minor.toNat with
  | 0 => shape (spec.extractLsb' 0 3 == 0 && !p.top && p.f2 == 0 && p.f1 == 0 && p.f0 == 0)
      (.lred e (spec.extractLsb' 5 3) (spec.extractLsb' 3 2) p.f4 p.f3)
  | 1 => shape (spec.extractLsb' 0 3 == 0 && !p.top && p.f1 == 0 && p.f0 == 0)
      (.lopen e (spec.extractLsb' 5 3) (spec.extractLsb' 3 2) p.f4 p.f3 p.f2)
  | 2 => shape (spec.extractLsb' 5 3 == 0 && spec.extractLsb' 0 3 == 0 && !p.top && p.f4 == 0 && p.f1 == 0 && p.f0 == 0)
      (.lord e (spec.extractLsb' 3 2) p.f3 p.f2)
  | 3 => shape (spec.extractLsb' 0 8 == 0 && !p.top && p.f4 == 0)
      (.lwag e p.f3 p.f2 p.f1 p.f0)
  | _ => .error .reservedMinor

/-- The majors of engine commands (03 Table 3-2, format E). -/
def isEngineMajor (major : BitVec 5) : Bool := decide (0x0F ≤ major.toNat) && decide (major.toNat ≤ 0x1A)

/-- A 32-bit word of a major that takes no argument words (03 Table 3-2). -/
def decodePlain (w : BitVec 32) : Except DecodeError Instr :=
  let p := WordParts.unpack w
  match p.major.toNat with
  | 0x00 => decodeBlk w
  | 0x01 => decodeCtl p.x p.minor p.low
  | 0x02 => decodeAlu p.x p.minor p.low
  | 0x03 => decodeAlui p.x p.minor p.low
  | 0x04 => decodeWide p.x p.minor p.low
  | 0x05 => decodeBits p.x p.minor p.low
  | 0x06 => decodeMuld p.x p.minor p.low
  | 0x07 => decodeXmov p.x p.minor p.low
  | 0x08 => decodeSmem p.x p.minor p.low
  | 0x09 => decodeQmem p.x p.minor p.low
  | 0x0a => decodePath p.x p.minor p.low
  | 0x0b => decodeSync p.x p.minor p.low
  | 0x0c => decodeCnt p.x p.minor p.low
  | 0x0d => decodeAmo p.x p.minor p.low
  | 0x0e => decodeAcc p.x p.minor p.low
  | 0x1b => decodeTim p.x p.minor p.low
  | 0x1c => decodeWrk p.x p.minor p.low
  | 0x1d => decodeSys p.x p.minor p.low
  | 0x1F => .error .strayArgument
  | _ => .error .unassignedMajor

/-- An engine command with the payloads of its argument words. -/
def decodeEngine (w : BitVec 32) (pw qw : BitVec 26) : Except DecodeError Instr :=
  let p := WordParts.unpack w
  let e := EngineFlags.unpack p.low
  let spec := p.low.extractLsb' 0 8
  let narg := p.x.toNat
  match p.major.toNat with
  | 0x0f => decodeMxm p.minor narg e spec pw qw
  | 0x10 => decodeDrn p.minor narg e spec pw qw
  | 0x11 => decodeMxc p.minor narg e spec pw qw
  | 0x12 => decodeVfp p.minor narg e spec pw qw
  | 0x13 => decodeVic p.minor narg e spec pw qw
  | 0x14 => decodeVrd p.minor narg e spec pw qw
  | 0x15 => decodeMsk p.minor narg e spec pw qw
  | 0x16 => decodeTbl p.minor narg e spec pw qw
  | 0x17 => decodeCpy p.minor narg e spec pw qw
  | 0x18 => decodeGth p.minor narg e spec pw qw
  | 0x19 => decodeSrt p.minor narg e spec pw qw
  | _ => decodeLnk p.minor narg e spec pw qw

/-- The argument words that follow a command, at most `n` of them, with the parcels after them (03 R51). -/
def takeArgs : Nat → List Parcel → List (BitVec 26) × List Parcel
  | n + 1, hi :: lo :: rest =>
    if hi.extractLsb' 10 6 = 0x3F then
      let t := takeArgs n rest
      ((hi.extractLsb' 0 10 ++ lo) :: t.1, t.2)
    else ([], hi :: lo :: rest)
  | _, ps => ([], ps)

/-- A shape is accepted when its field values are listed and the argument words are as many as the form takes. -/
def accept (narg : Nat) (r : Except DecodeError Instr) : Except DecodeError Instr :=
  match r with
  | .ok i => if i.wellFormed && i.nargs == narg then .ok i else .error .reservedField
  | .error e => .error e

/-- Why a command `w` of which only the argument words `ws` stand is rejected. The lowest code that applies is reported (03
R67), and a field of a word that is missing breaks no rule: the code is that of missing words when some values of their fields
are listed (an argument of one form or another must not be 0: sR of 13 Table 13-2, the source format of vcvt, sD of gscan). -/
def shortOfArgs (n : Nat) (w : BitVec 32) (ws : List (BitVec 26)) : DecodeError :=
  let filled (c : BitVec 26) := accept n (decodeEngine w (ws.getD 0 (if n = 1 then c else 0)) (ws.getD 1 c))
  if [0x0000001, 0x0000400, 0x0100000].any (fun c => (filled c).isOk) then .missingArgument
  else match filled 0 with
    | .ok _ => .missingArgument
    | .error e => e

/-- The decoder: the instruction at the head of a list of parcels, with the parcels after it. It is total, and it
rejects by name. -/
def decode : List Parcel → Except DecodeError (Instr × List Parcel)
  | [] => .error .truncated
  | p :: rest =>
    if !p.getLsbD 15 then (accept 0 (decodeShort p)).map (·, rest)
    else match rest with
      | [] => .error .truncated
      | q :: rest =>
        let w := p ++ q
        let major := w.extractLsb' 26 5
        if isEngineMajor major then
          let n := (w.extractLsb' 24 2).toNat
          let t := takeArgs n rest
          if t.1.length = n then (accept n (decodeEngine w (t.1.getD 0 0) (t.1.getD 1 0))).map (·, t.2)
          else .error (shortOfArgs n w t.1)
        else (accept 0 (decodePlain w)).map (·, rest)

/-- The parcels held by bytes, low byte first; an odd byte at the end is no parcel (03 R43, 00 R4). -/
def bytesToParcels : List Byte → List Parcel
  | lo :: hi :: rest => (hi ++ lo) :: bytesToParcels rest
  | _ => []

/-! ## Encoding -/

/-- A word of formats R (and the R part of I) as parcels. -/
def encWord (major : BitVec 5) (x : BitVec 2) (minor : BitVec 4) (low : BitVec 20) : List Parcel :=
  wordParcels (WordParts.pack { major, x, minor, low })

def encR (major : BitVec 5) (minor : BitVec 4) (d a b m : BitVec 5) : List Parcel :=
  encWord major 0 minor (RParts.pack { d, a, b, m })

def encI (major : BitVec 5) (minor : BitVec 4) (d a : BitVec 5) (imm : BitVec 12) : List Parcel :=
  encWord major (imm.extractLsb' 10 2) minor (d ++ a ++ imm.extractLsb' 0 10)

def encW (major : BitVec 5) (minor : BitVec 4) (d : BitVec 5) (imm : BitVec 17) : List Parcel :=
  encWord major (imm.extractLsb' 15 2) minor (d ++ imm.extractLsb' 0 15)

def encE (major : BitVec 5) (minor : BitVec 4) (narg : Nat) (e : EngineFlags) (spec : BitVec 8)
    (args : List (BitVec 26)) : List Parcel :=
  encWord major (BitVec.ofNat 2 narg) minor (e.pack spec) ++ args.flatMap argParcels

/-- An argument word with bit 25 and five fields. -/
def argW (top : Bool) (f4 f3 f2 f1 f0 : BitVec 5) : BitVec 26 := ArgParts.pack { top, f4, f3, f2, f1, f0 }

/-- A 16-bit short form with two five-bit fields. -/
def encS (form : BitVec 4) (h l : BitVec 5) : List Parcel := [0#2 ++ form ++ h ++ l]

/-- The parcels of an instruction, from the encoding tables; an event has no words. -/
def encode : Instr → List Parcel
  | .blkImmediate n l => wordParcels (1#1 ++ 0#5 ++ 0#1 ++ n ++ l)
  | .blkRegister s l => wordParcels (1#1 ++ 0#5 ++ 1#1 ++ 0#7 ++ s ++ l)
  | .br off => encW 0x01 0x0 0 off
  | .bz a off => encW 0x01 0x1 a off
  | .bnz a off => encW 0x01 0x2 a off
  | .dcbnz a off => encW 0x01 0x3 a off
  | .call off => encW 0x01 0x4 0 off
  | .callr a => encW 0x01 0x5 a 0
  | .ret a => encW 0x01 0x6 a 0
  | .bqpush a => encW 0x01 0x7 a 0
  | .halt code => encW 0x01 0x8 0 code
  | .bqt off => encW 0x01 0xa 0 off
  | .bqf off => encW 0x01 0xb 0 off
  | .brk code10 => [0#2 ++ 0x1#4 ++ code10]
  | .addShort d a => encS 0x2 d a
  | .addiShort d imm => encS 0x3 d imm
  | .brShort off10 => [0#2 ++ 0x4#4 ++ off10]
  | .cwaitShort n v => encS 0x5 n v
  | .cincShort n v1 => encS 0x6 n v1
  | .tnextShort d => encS 0x7 d 0
  | .bqtShort off10 => [0#2 ++ 0xc#4 ++ off10]
  | .movShort d a => encS 0xd d a
  | .subShort d a => encS 0xe d a
  | .dcbnzShort a off1 => encS 0xf a off1
  | .add d a b sh => encR 0x02 0x0 d a b sh
  | .sub d a b => encR 0x02 0x1 d a b 0
  | .and d a b => encR 0x02 0x2 d a b 0
  | .or d a b => encR 0x02 0x3 d a b 0
  | .xor d a b => encR 0x02 0x4 d a b 0
  | .andn d a b => encR 0x02 0x5 d a b 0
  | .shl d a b => encR 0x02 0x6 d a b 0
  | .shr d a b => encR 0x02 0x7 d a b 0
  | .sra d a b => encR 0x02 0x8 d a b 0
  | .slt d a b => encR 0x02 0x9 d a b 0
  | .sltu d a b => encR 0x02 0xa d a b 0
  | .min d a b => encR 0x02 0xb d a b 0
  | .max d a b => encR 0x02 0xc d a b 0
  | .minu d a b => encR 0x02 0xd d a b 0
  | .maxu d a b => encR 0x02 0xe d a b 0
  | .mov d a cls => encR 0x02 0xf d a 0 cls
  | .addi d a imm => encI 0x03 0x0 d a imm
  | .andi d a imm => encI 0x03 0x1 d a imm
  | .ori d a imm => encI 0x03 0x2 d a imm
  | .xori d a imm => encI 0x03 0x3 d a imm
  | .shli d a imm => encI 0x03 0x4 d a imm
  | .shri d a imm => encI 0x03 0x5 d a imm
  | .srai d a imm => encI 0x03 0x6 d a imm
  | .slti d a imm => encI 0x03 0x7 d a imm
  | .sltiu d a imm => encI 0x03 0x8 d a imm
  | .mini d a imm => encI 0x03 0x9 d a imm
  | .maxi d a imm => encI 0x03 0xa d a imm
  | .seqi d a imm => encI 0x03 0xb d a imm
  | .li d imm => encW 0x04 0x0 d imm
  | .lsh d imm => encW 0x04 0x1 d imm
  | .lown d imm => encW 0x04 0x2 d imm
  | .lpc d imm => encW 0x04 0x3 d imm
  | .clz d a w => encR 0x05 0x0 d a 0 w
  | .ffs d a w => encR 0x05 0x1 d a 0 w
  | .popc d a w => encR 0x05 0x2 d a 0 w
  | .padd d a b m => encR 0x05 0x3 d a b m
  | .psub d a b m => encR 0x05 0x4 d a b m
  | .bfx d a b len1 => encR 0x05 0x5 d a b len1
  | .mul d a b => encR 0x06 0x0 d a b 0
  | .mulh d a b => encR 0x06 0x1 d a b 0
  | .mulhu d a b => encR 0x06 0x2 d a b 0
  | .div d a b => encR 0x06 0x3 d a b 0
  | .rem d a b => encR 0x06 0x3 d a b 1
  | .divu d a b => encR 0x06 0x4 d a b 0
  | .remu d a b => encR 0x06 0x4 d a b 1
  | .madd d a b => encR 0x06 0x5 d a b 0
  | .mvShort t d src => [1#2 ++ t ++ d ++ src]
  | .mv r t d src => encWord 0x07 0 0 (r ++ 0#2 ++ t ++ d ++ 0#1 ++ src)
  | .mvi t d imm => encWord 0x07 0 1 (t ++ d ++ imm)
  | .moveTransport .. => []
  | .xseqOperationComplete .. => []
  | .xseqFreezeEnd .. => []
  | .bqEntryVisible .. => []
  | .ld d a imm => encI 0x08 0x0 d a imm
  | .lds d a imm => encI 0x08 0x1 d a imm
  | .st d a imm => encI 0x08 0x2 d a imm
  | .pref a imm => encI 0x08 0x3 0 a imm
  | .loadReturn .. => []
  | .qld q a imm => encI 0x09 0x0 q a imm
  | .qst q a imm => encI 0x09 0x1 q a imm
  | .qldi q a imm => encI 0x09 0x2 q a imm
  | .qsti q a imm => encI 0x09 0x3 q a imm
  | .queueLoadFill .. => []
  | .cadrG d a b => encR 0x0a 0x0 d a b 0
  | .cadrB d a b => encR 0x0a 0x0 d a b 1
  | .pchk d a m => encR 0x0a 0x1 d a 0 m
  | .bind d a b => encR 0x0b 0x0 d a b 0
  | .unbind d a => encR 0x0b 0x1 d a 0 0
  | .acq d a b m => encR 0x0b 0x2 d a b m
  | .rel d a m => encR 0x0b 0x3 d a 0 m
  | .fence m => encR 0x0b 0x4 0 0 0 m
  | .xfer d a b m => encR 0x0b 0x5 d a b m
  | .oinit a b => encR 0x0b 0x6 0 a b 0
  | .releasePerformed .. => []
  | .xferPerformed .. => []
  | .cwait n a imm => encI 0x0c 0x0 n a imm
  | .cwaitlt n k imm => encI 0x0c 0x1 n k imm
  | .cinc n imm => encI 0x0c 0x2 n 0 imm
  | .crinc n a imm => encI 0x0c 0x3 n a imm
  | .cset n a => encI 0x0c 0x4 n a 0
  | .cread d n => encI 0x0c 0x5 d n 0
  | .cstat d n clr => encI 0x0c 0x6 d n clr
  | .tinv c a => encI 0x0c 0x7 c a 0
  | .tval c a => encI 0x0c 0x7 c a 1
  | .tread d a => encI 0x0c 0x7 d a 2
  | .crincArrival .. => []
  | .amo d a b m => encR 0x0d 0x0 d a b m
  | .red a b m => encR 0x0d 0x1 0 a b m
  | .swap d a b m => encR 0x0d 0x2 d a b m
  | .cas d a b m => encR 0x0d 0x3 d a b m
  | .atomicPerform .. => []
  | .accalloc d n => encI 0x0e 0x0 d 0 n
  | .accfree a n => encI 0x0e 0x1 0 a n
  | .mxmm e fmt ck new zs tm sA sB sS sD sT sXA sXB =>
    let narg := if fmt = 6 then 2 else 1
    encE 0x0f 0x0 narg e (fmt ++ BitVec.ofBool ck ++ BitVec.ofBool new ++ BitVec.ofBool zs ++ tm) ([argW false sA sB sS sD sT, argW false 0 0 0 sXA sXB].take narg)
  | .mxld e accum i32 tm sA sS sD sT => encE 0x0f 0x1 1 e (BitVec.ofBool accum ++ BitVec.ofBool i32 ++ 0#4 ++ tm) [argW false sA 0 sS sD sT]
  | .mxclr e tm sD sT => encE 0x0f 0x2 1 e (0#6 ++ tm) [argW false 0 0 0 sD sT]
  | .mxmma e new zs tm sB sS sD sT => encE 0x0f 0x3 1 e (0#4 ++ BitVec.ofBool new ++ BitVec.ofBool zs ++ tm) [argW false 0 sB sS sD sT]
  | .mxmv e tr tm sD sT => encE 0x0f 0x4 1 e (BitVec.ofBool tr ++ 0#5 ++ tm) [argW false 0 0 0 sD sT]
  | .mxmark e => encE 0x0f 0x5 0 e (0#8) []
  | .mxmarkStamped e tm sT => encE 0x0f 0x5 1 e (0#6 ++ tm) [argW false 0 0 0 0 sT]
  | .mxdrn e k ck tm sA sB sS sD sT => encE 0x10 0x0 1 e (k ++ BitVec.ofBool ck ++ 0#3 ++ tm) [argW false sA sB sS sD sT]
  | .mxepl e k sA => encE 0x10 0x1 1 e (k ++ 0#6) [argW false sA 0 0 0 0]
  | .mxcks e sD => encE 0x10 0x2 1 e (0#8) [argW false 0 0 0 sD 0]
  | .mxdrs e k ck tm sB sD sT => encE 0x10 0x3 1 e (k ++ BitVec.ofBool ck ++ 0#3 ++ tm) [argW false 0 sB 0 sD sT]
  | .mxshp e k sA => encE 0x11 0x0 1 e (k ++ 0#6) [argW false sA 0 0 0 0]
  | .mxcv e k ck new zs tm sA sB sS sD sT => encE 0x11 0x1 1 e (k ++ BitVec.ofBool ck ++ BitVec.ofBool new ++ BitVec.ofBool zs ++ 0#1 ++ tm) [argW false sA sB sS sD sT]
  | .drainCheckResolve .. => []
  | .vadd e rm fmt um sD sA sB sE => encE 0x12 0x0 1 e (rm ++ fmt ++ 0#2 ++ BitVec.ofBool um) [argW false sD sA sB 0 sE]
  | .vsub e rm fmt um sD sA sB sE => encE 0x12 0x1 1 e (rm ++ fmt ++ 0#2 ++ BitVec.ofBool um) [argW false sD sA sB 0 sE]
  | .vmul e rm fmt um sD sA sB sE => encE 0x12 0x2 1 e (rm ++ fmt ++ 0#2 ++ BitVec.ofBool um) [argW false sD sA sB 0 sE]
  | .vfma e rm fmt um sD sA sB sC sE => encE 0x12 0x3 1 e (rm ++ fmt ++ 0#2 ++ BitVec.ofBool um) [argW false sD sA sB sC sE]
  | .vmin e fmt um sD sA sB => encE 0x12 0x4 1 e (0#3 ++ fmt ++ 0#2 ++ BitVec.ofBool um) [argW false sD sA sB 0 0]
  | .vmax e fmt um sD sA sB => encE 0x12 0x5 1 e (0#3 ++ fmt ++ 0#2 ++ BitVec.ofBool um) [argW false sD sA sB 0 0]
  | .vdiv e rm fmt um sD sA sB sE => encE 0x12 0x6 1 e (rm ++ fmt ++ 0#2 ++ BitVec.ofBool um) [argW false sD sA sB 0 sE]
  | .vsqrt e rm fmt um sD sA sE => encE 0x12 0x7 1 e (rm ++ fmt ++ 0#2 ++ BitVec.ofBool um) [argW false sD sA 0 0 sE]
  | .vsgn e fmt op um sD sA sB => encE 0x12 0x8 1 e (0#3 ++ fmt ++ op ++ BitVec.ofBool um) [argW false sD sA sB 0 0]
  | .vcmp e cond fmt um sD sA sB => encE 0x12 0x9 1 e (cond ++ fmt ++ 0#2 ++ BitVec.ofBool um) [argW false sD sA sB 0 0]
  | .vrsc e rm fmt um sD sA sB sC sE => encE 0x12 0xa 1 e (rm ++ fmt ++ 0#2 ++ BitVec.ofBool um) [argW false sD sA sB sC sE]
  | .vrst e fmt op um sD sA sE => encE 0x12 0xb 1 e (0#3 ++ fmt ++ op ++ BitVec.ofBool um) [argW false sD sA 0 0 sE]
  | .viadd e iw sat um sD sA sB => encE 0x13 0x0 1 e (0#3 ++ iw ++ sat ++ BitVec.ofBool um) [argW false sD sA sB 0 0]
  | .visub e iw sat um sD sA sB => encE 0x13 0x1 1 e (0#3 ++ iw ++ sat ++ BitVec.ofBool um) [argW false sD sA sB 0 0]
  | .vimul e iop iw sat um sD sA sB => encE 0x13 0x2 1 e (iop ++ iw ++ sat ++ BitVec.ofBool um) [argW false sD sA sB 0 0]
  | .vilog e iop iw um sD sA sB => encE 0x13 0x3 1 e (iop ++ iw ++ 0#2 ++ BitVec.ofBool um) [argW false sD sA sB 0 0]
  | .vishf e iop iw um sD sA sB => encE 0x13 0x4 1 e (iop ++ iw ++ 0#2 ++ BitVec.ofBool um) [argW false sD sA sB 0 0]
  | .vicmp e iop iw um sD sA sB => encE 0x13 0x5 1 e (iop ++ iw ++ 0#2 ++ BitVec.ofBool um) [argW false sD sA sB 0 0]
  | .vsel e iw um sD sA sB sC => encE 0x13 0x6 1 e (0#3 ++ iw ++ 0#2 ++ BitVec.ofBool um) [argW false sD sA sB sC 0]
  | .vcvt e rm df um sat sD sA sf sC sE => encE 0x13 0x7 1 e (rm ++ df ++ BitVec.ofBool um) [argW sat sD sA sf sC sE]
  | .vred e fmt op um sD sA sE => encE 0x14 0x0 1 e (0#3 ++ fmt ++ op ++ BitVec.ofBool um) [argW false sD sA 0 0 sE]
  | .vdot e fmt um sD sA sB sE => encE 0x14 0x1 1 e (0#3 ++ fmt ++ 0#2 ++ BitVec.ofBool um) [argW false sD sA sB 0 sE]
  | .vscan e fmt op um sD sA sE => encE 0x14 0x2 1 e (0#3 ++ fmt ++ op ++ BitVec.ofBool um) [argW false sD sA 0 0 sE]
  | .vbcast e iw um sD sA => encE 0x14 0x3 1 e (0#3 ++ iw ++ 0#2 ++ BitVec.ofBool um) [argW false sD sA 0 0 0]
  | .mpush e sA => encE 0x15 0x0 1 e (0#8) [argW false 0 sA 0 0 0]
  | .minv e => encE 0x15 0x1 0 e (0#8) []
  | .mpop e => encE 0x15 0x2 0 e (0#8) []
  | .bmz off => encE 0x15 3 1 (EngineFlags.unpack 0) 0 [0#9 ++ off]
  | .tfn e fn fmt sr sD sA sE => encE 0x16 0x0 1 e (fn ++ fmt ++ BitVec.ofBool sr ++ 0#1) [argW false sD sA 0 0 sE]
  | .tfnx e fn fmt sr sD sA sB sC sE => encE 0x16 0x1 1 e (fn ++ fmt ++ BitVec.ofBool sr ++ 0#1) [argW false sD sA sB sC sE]
  | .tver e sD => encE 0x16 0x2 1 e (0#8) [argW false sD 0 0 0 0]
  | .tvchk e sA => encE 0x16 0x3 1 e (0#8) [argW false 0 sA 0 0 0]
  | .cpy e crc tm sD sA sB sT sR =>
    let narg := if sR = 0 then 1 else 2
    encE 0x17 0x0 narg e (BitVec.ofBool crc ++ 0#5 ++ tm) ([argW false sD sA sB 0 sT, argW false 0 0 0 0 sR].take narg)
  | .cpy2 e crc tm sD sA sB sC sT sR =>
    let narg := if sR = 0 then 1 else 2
    encE 0x17 0x1 narg e (BitVec.ofBool crc ++ 0#5 ++ tm) ([argW false sD sA sB sC sT, argW false 0 0 0 0 sR].take narg)
  | .cfill e crc tm sD sB sC sT sR =>
    let narg := if sR = 0 then 1 else 2
    encE 0x17 0x2 narg e (BitVec.ofBool crc ++ 0#5 ++ tm) ([argW false sD 0 sB sC sT, argW false 0 0 0 0 sR].take narg)
  | .cpym e crc tm sD sA sB sT sM sR => encE 0x17 0x3 2 e (BitVec.ofBool crc ++ 0#5 ++ tm) [argW false sD sA sB 0 sT, argW false 0 0 0 sM sR]
  | .cpym2 e crc tm sD sA sB sC sT sM sR => encE 0x17 0x4 2 e (BitVec.ofBool crc ++ 0#5 ++ tm) [argW false sD sA sB sC sT, argW false 0 0 0 sM sR]
  | .ccrc e crc tm sA sB sT sR => encE 0x17 0x5 2 e (BitVec.ofBool crc ++ 0#5 ++ tm) [argW false 0 sA sB 0 sT, argW false 0 0 0 0 sR]
  | .gth e sD sA sB sC sE => encE 0x18 0x0 1 e (0#8) [argW false sD sA sB sC sE]
  | .sct e op fmt sD sA sB sC sE => encE 0x18 0x1 1 e (op ++ fmt ++ 0#1) [argW false sD sA sB sC sE]
  | .gred e op fmt sD sA sB sC sE sO => encE 0x18 0x2 2 e (op ++ fmt ++ 0#1) [argW false sD sA sB sC sE, argW false 0 0 0 0 sO]
  | .topk e up fmt sD sA sB sC sE => encE 0x19 0x0 1 e (0#2 ++ BitVec.ofBool up ++ fmt ++ 0#1) [argW false sD sA sB sC sE]
  | .psort e up fmt sD sA sB sC sE => encE 0x19 0x1 1 e (0#2 ++ BitVec.ofBool up ++ fmt ++ 0#1) [argW false sD sA sB sC sE]
  | .gscan e exc fmt sD sA sB sC sE => encE 0x19 0x2 1 e (0#2 ++ BitVec.ofBool exc ++ fmt ++ 0#1) [argW false sD sA sB sC sE]
  | .ghist e clamp accum fmt sD sA => encE 0x19 0x3 1 e (0#1 ++ BitVec.ofBool clamp ++ BitVec.ofBool accum ++ fmt ++ 0#1) [argW false sD sA 0 0 0]
  | .rndh e seed fmt sD sA sB => encE 0x19 0x4 1 e (0#2 ++ BitVec.ofBool seed ++ fmt ++ 0#1) [argW false sD sA sB 0 0]
  | .lred e op w sD sA => encE 0x1a 0x0 1 e (op ++ w ++ 0#3) [argW false sD sA 0 0 0]
  | .lopen e op fmt sD sA sB => encE 0x1a 0x1 1 e (op ++ fmt ++ 0#3) [argW false sD sA sB 0 0]
  | .lord e fmt sA sB => encE 0x1a 0x2 1 e (0#3 ++ fmt ++ 0#3) [argW false 0 sA sB 0 0]
  | .lwag e sA sB sC sE => encE 0x1a 0x3 1 e (0#8) [argW false 0 sA sB sC sE]
  | .lordArrival .. => []
  | .waggleArrival .. => []
  | .engineCommandStart .. => []
  | .granuleCommit .. => []
  | .tagWait .. => []
  | .translationReply .. => []
  | .stampStart .. => []
  | .engineCommandComplete .. => []
  | .rdcyc d => encR 0x1b 0x0 d 0 0 0
  | .rdgcyc d => encR 0x1b 0x0 d 0 0 1
  | .rdtinf d sel => encR 0x1b 0x1 d 0 0 sel
  | .realign a t => encR 0x1b 0x2 0 a 0 t
  | .twait a t => encR 0x1b 0x3 0 a 0 t
  | .realignResume .. => []
  | .twaitExpiry .. => []
  | .tnext d => encR 0x1c 0x0 d 0 0 0
  | .tinfo d sel => encR 0x1c 0x1 d 0 0 sel
  | .gbarRelease .. => []
  | .klaunch d a b => encR 0x1c 0x3 d a b 0
  | .sxin d a b => encR 0x1c 0x4 d a b 0
  | .sxout d a b => encR 0x1c 0x5 d a b 0
  | .swait d a => encR 0x1c 0x6 d a 0 0
  | .evget d => encR 0x1c 0x7 d 0 0 0
  | .evgetNb d => encR 0x1c 0x7 d 0 0 1
  | .lcancel a => encR 0x1c 0x8 0 a 0 0
  | .tret d a => encR 0x1d 0x0 d a 0 0
  | .tretEmu d a => encR 0x1d 0x0 d a 0 1
  | .tretKill d a => encR 0x1d 0x0 d a 0 2
  | .tqwait d => encR 0x1d 0x1 d 0 0 0
  | .rdsr d a => encR 0x1d 0x2 d a 0 0
  | .wrsr a b => encR 0x1d 0x3 0 a b 0
  | .ibinv a => encR 0x1d 0x4 0 a 0 0
  | .cpatch d a b => encR 0x1d 0x5 d a b 0
  | .pswap d a b => encR 0x1d 0x6 d a b 0
  | .ctxsv d a b => encR 0x1d 0x7 d a b 0
  | .ctxld d a => encR 0x1d 0x8 d a 0 0
  | .ptupd d a b => encR 0x1d 0x9 d a b 0
  | .tlbinv a b => encR 0x1d 0xa 0 a b 0
  | .xlat d a m => encR 0x1d 0xb d a 0 m
  | .wqry d a sel => encR 0x1d 0xc d a 0 sel
  | .wset d a b => encR 0x1d 0xd d a b 0
  | .scanComplete .. => []
  | .replicaStep .. => []
  | .cellHalt .. => []
  | .pswapExchange .. => []
  | .restoredGangDispatch .. => []
  | .wqTailWrite .. => []
  | .wqCancel .. => []
  | .launchStart .. => []
  | .launchCompletion .. => []
  | .kernelEligible .. => []
  | .gangDispatch .. => []
  | .gangBaseCycle .. => []
  | .streamTransfer .. => []
  | .streamCompletion .. => []
  | .cellExit .. => []
  | .gangExit .. => []
  | .samplingIntervalEnd .. => []
  | .mirrorTimeout .. => []
  | .contextSaveComplete .. => []
  | .scalarWritePerformed .. => []
  | .tqheadWrite .. => []
  | .wqcfgWrite .. => []
  | .sysregWrite .. => []
  | .packageReset .. => []
  | .monitorAlarm .. => []
  | .patrolScrub .. => []
  | .mirrorAck .. => []
  | .bufferDieFailure .. => []
  | .eyeMarginPrediction .. => []
  | .hostLinkDown .. => []
  | .hostMemoryAccess .. => []
  | .hsemAcquire .. => []
  | .hsemRelease .. => []
  | .formPartition .. => []
  | .dissolvePartition .. => []
  | .writeWpol .. => []
  | .writeCethr .. => []
  | .stageFirmware .. => []
  | .layoutReservedOp .. => []
  | .getVersion .. => []
  | .getCapabilities .. => []
  | .negotiateAlgorithms .. => []
  | .getDigests .. => []
  | .getCertificate .. => []
  | .challenge .. => []
  | .getMeasurements .. => []
  | .pskExchange .. => []
  | .hostLinkUp .. => []
  | .mirrorWriteReceive .. => []
  | .softError .. => []
  | .arrayUndervolt .. => []
  | .ideKmKeyProg .. => []
  | .exit => encW 0x01 0x9 0 0
  | .nop => encS 0x0 0 0
  | .mpopShort => encS 0x8 0 0
  | .minvShort => encS 0x9 0 0
  | .retShort => encS 0xa 0 0
  | .exitShort => encS 0xb 0 0
  | .gbar => encR 0x1c 0x2 0 0 0 0
  | .launchAgeing => []
  | .lifetimeCommit => []
  | .errorWindowEnd => []
  | .packageLinkUp => []

/-- The bytes of an instruction, as memory holds them. -/
def encodeBytes (i : Instr) : List Byte := (encode i).flatMap parcelBytes

/-! ## The table's numbering -/

/-- The parcels of an instruction whose bits are numbered as spec/opcode_table.json numbers them: a 16-bit word is one
parcel, and each 32-bit word gives its bits 31:16 first. Zero parcels follow, up to the longest instruction. -/
def tableParcels (nbits w : Nat) : List Parcel :=
  let word (k : Nat) : List Parcel := [BitVec.ofNat 16 (w >>> (32 * k + 16)), BitVec.ofNat 16 (w >>> (32 * k))]
  if nbits ≤ 16 then [BitVec.ofNat 16 w, 0, 0, 0, 0, 0] else word 0 ++ word 1 ++ word 2

/-- The instruction that the decoder reads from an instruction whose bits are `w`. -/
def decodeTableWord (nbits w : Nat) : Option Instr :=
  match decode (tableParcels nbits w) with
  | .ok (i, _) => some i
  | .error _ => none

/-! ## Pages -/

/-- Which pages accept an instruction (03 Table 3-2, Table 3-4, R48, R55): `x` is the tag of the page. -/
def acceptedOn (x : Bool) : Instr → Bool
  | .blkImmediate .. => true
  | .blkRegister s _ => !x || decide (32 ≤ s.toNat)
  | .nop => true
  | .brk .. => true
  | .exitShort => true
  | .bqtShort .. => true
  | .bqt .. => true
  | .bqf .. => true
  | .mvShort .. => x
  | .mv .. => x
  | .mvi .. => x
  | .br .. => !x
  | .bz .. => !x
  | .bnz .. => !x
  | .dcbnz .. => !x
  | .call .. => !x
  | .callr .. => !x
  | .ret .. => !x
  | .bqpush .. => !x
  | .halt .. => !x
  | .addShort .. => !x
  | .addiShort .. => !x
  | .brShort .. => !x
  | .cwaitShort .. => !x
  | .cincShort .. => !x
  | .tnextShort .. => !x
  | .movShort .. => !x
  | .subShort .. => !x
  | .dcbnzShort .. => !x
  | .add .. => !x
  | .sub .. => !x
  | .and .. => !x
  | .or .. => !x
  | .xor .. => !x
  | .andn .. => !x
  | .shl .. => !x
  | .shr .. => !x
  | .sra .. => !x
  | .slt .. => !x
  | .sltu .. => !x
  | .min .. => !x
  | .max .. => !x
  | .minu .. => !x
  | .maxu .. => !x
  | .mov .. => !x
  | .addi .. => !x
  | .andi .. => !x
  | .ori .. => !x
  | .xori .. => !x
  | .shli .. => !x
  | .shri .. => !x
  | .srai .. => !x
  | .slti .. => !x
  | .sltiu .. => !x
  | .mini .. => !x
  | .maxi .. => !x
  | .seqi .. => !x
  | .li .. => !x
  | .lsh .. => !x
  | .lown .. => !x
  | .lpc .. => !x
  | .clz .. => !x
  | .ffs .. => !x
  | .popc .. => !x
  | .padd .. => !x
  | .psub .. => !x
  | .bfx .. => !x
  | .mul .. => !x
  | .mulh .. => !x
  | .mulhu .. => !x
  | .div .. => !x
  | .rem .. => !x
  | .divu .. => !x
  | .remu .. => !x
  | .madd .. => !x
  | .moveTransport .. => false
  | .xseqOperationComplete .. => false
  | .xseqFreezeEnd .. => false
  | .bqEntryVisible .. => false
  | .ld .. => !x
  | .lds .. => !x
  | .st .. => !x
  | .pref .. => !x
  | .loadReturn .. => false
  | .qld .. => !x
  | .qst .. => !x
  | .qldi .. => !x
  | .qsti .. => !x
  | .queueLoadFill .. => false
  | .cadrG .. => !x
  | .cadrB .. => !x
  | .pchk .. => !x
  | .bind .. => !x
  | .unbind .. => !x
  | .acq .. => !x
  | .rel .. => !x
  | .fence .. => !x
  | .xfer .. => !x
  | .oinit .. => !x
  | .releasePerformed .. => false
  | .xferPerformed .. => false
  | .cwait .. => !x
  | .cwaitlt .. => !x
  | .cinc .. => !x
  | .crinc .. => !x
  | .cset .. => !x
  | .cread .. => !x
  | .cstat .. => !x
  | .tinv .. => !x
  | .tval .. => !x
  | .tread .. => !x
  | .crincArrival .. => false
  | .amo .. => !x
  | .red .. => !x
  | .swap .. => !x
  | .cas .. => !x
  | .atomicPerform .. => false
  | .accalloc .. => !x
  | .accfree .. => !x
  | .mxmm .. => !x
  | .mxld .. => !x
  | .mxclr .. => !x
  | .mxmma .. => !x
  | .mxmv .. => !x
  | .mxmark .. => !x
  | .mxmarkStamped .. => !x
  | .mxdrn .. => !x
  | .mxepl .. => !x
  | .mxcks .. => !x
  | .mxdrs .. => !x
  | .mxshp .. => !x
  | .mxcv .. => !x
  | .drainCheckResolve .. => false
  | .vadd .. => !x
  | .vsub .. => !x
  | .vmul .. => !x
  | .vfma .. => !x
  | .vmin .. => !x
  | .vmax .. => !x
  | .vdiv .. => !x
  | .vsqrt .. => !x
  | .vsgn .. => !x
  | .vcmp .. => !x
  | .vrsc .. => !x
  | .vrst .. => !x
  | .viadd .. => !x
  | .visub .. => !x
  | .vimul .. => !x
  | .vilog .. => !x
  | .vishf .. => !x
  | .vicmp .. => !x
  | .vsel .. => !x
  | .vcvt .. => !x
  | .vred .. => !x
  | .vdot .. => !x
  | .vscan .. => !x
  | .vbcast .. => !x
  | .mpush .. => !x
  | .minv .. => !x
  | .mpop .. => !x
  | .bmz .. => !x
  | .tfn .. => !x
  | .tfnx .. => !x
  | .tver .. => !x
  | .tvchk .. => !x
  | .cpy .. => !x
  | .cpy2 .. => !x
  | .cfill .. => !x
  | .cpym .. => !x
  | .cpym2 .. => !x
  | .ccrc .. => !x
  | .gth .. => !x
  | .sct .. => !x
  | .gred .. => !x
  | .topk .. => !x
  | .psort .. => !x
  | .gscan .. => !x
  | .ghist .. => !x
  | .rndh .. => !x
  | .lred .. => !x
  | .lopen .. => !x
  | .lord .. => !x
  | .lwag .. => !x
  | .lordArrival .. => false
  | .waggleArrival .. => false
  | .engineCommandStart .. => false
  | .granuleCommit .. => false
  | .tagWait .. => false
  | .translationReply .. => false
  | .stampStart .. => false
  | .engineCommandComplete .. => false
  | .rdcyc .. => !x
  | .rdgcyc .. => !x
  | .rdtinf .. => !x
  | .realign .. => !x
  | .twait .. => !x
  | .realignResume .. => false
  | .twaitExpiry .. => false
  | .tnext .. => !x
  | .tinfo .. => !x
  | .gbarRelease .. => false
  | .klaunch .. => !x
  | .sxin .. => !x
  | .sxout .. => !x
  | .swait .. => !x
  | .evget .. => !x
  | .evgetNb .. => !x
  | .lcancel .. => !x
  | .tret .. => !x
  | .tretEmu .. => !x
  | .tretKill .. => !x
  | .tqwait .. => !x
  | .rdsr .. => !x
  | .wrsr .. => !x
  | .ibinv .. => !x
  | .cpatch .. => !x
  | .pswap .. => !x
  | .ctxsv .. => !x
  | .ctxld .. => !x
  | .ptupd .. => !x
  | .tlbinv .. => !x
  | .xlat .. => !x
  | .wqry .. => !x
  | .wset .. => !x
  | .scanComplete .. => false
  | .replicaStep .. => false
  | .cellHalt .. => false
  | .pswapExchange .. => false
  | .restoredGangDispatch .. => false
  | .wqTailWrite .. => false
  | .wqCancel .. => false
  | .launchStart .. => false
  | .launchCompletion .. => false
  | .kernelEligible .. => false
  | .gangDispatch .. => false
  | .gangBaseCycle .. => false
  | .streamTransfer .. => false
  | .streamCompletion .. => false
  | .cellExit .. => false
  | .gangExit .. => false
  | .samplingIntervalEnd .. => false
  | .mirrorTimeout .. => false
  | .contextSaveComplete .. => false
  | .scalarWritePerformed .. => false
  | .tqheadWrite .. => false
  | .wqcfgWrite .. => false
  | .sysregWrite .. => false
  | .packageReset .. => false
  | .monitorAlarm .. => false
  | .patrolScrub .. => false
  | .mirrorAck .. => false
  | .bufferDieFailure .. => false
  | .eyeMarginPrediction .. => false
  | .hostLinkDown .. => false
  | .hostMemoryAccess .. => false
  | .hsemAcquire .. => false
  | .hsemRelease .. => false
  | .formPartition .. => false
  | .dissolvePartition .. => false
  | .writeWpol .. => false
  | .writeCethr .. => false
  | .stageFirmware .. => false
  | .layoutReservedOp .. => false
  | .getVersion .. => false
  | .getCapabilities .. => false
  | .negotiateAlgorithms .. => false
  | .getDigests .. => false
  | .getCertificate .. => false
  | .challenge .. => false
  | .getMeasurements .. => false
  | .pskExchange .. => false
  | .hostLinkUp .. => false
  | .mirrorWriteReceive .. => false
  | .softError .. => false
  | .arrayUndervolt .. => false
  | .ideKmKeyProg .. => false
  | .exit => !x
  | .mpopShort => !x
  | .minvShort => !x
  | .retShort => !x
  | .gbar => !x
  | .launchAgeing => false
  | .lifetimeCommit => false
  | .errorWindowEnd => false
  | .packageLinkUp => false

/-- The 32-bit word numbered as the manual writes it, from its two parcels, or a 16-bit word: "the first word of the
instruction" of 18 R354. -/
def firstWord (i : Instr) : BitVec 32 :=
  match encode i with
  | p :: q :: _ => if i.isShort then p.setWidth 32 else p ++ q
  | [p] => p.setWidth 32
  | [] => 0

end Sys2Proof
end

