-- ==== Sys2Proof/Machine/Memory.lean ====
section
/-! DEFINITION. Keyed lists, bytes of memory in their one canonical form, and byte order (00 R4). -/

namespace Sys2Proof

/-! ## Keyed lists -/

/-- The value of a key. -/
def AMap.find? {V : Type} (m : AMap V) (k : Nat) : Option V :=
  match m with
  | [] => none
  | (j, v) :: rest => if j = k then some v else AMap.find? rest k

/-- The value of a key, or a default. -/
def AMap.getD {V : Type} (m : AMap V) (k : Nat) (d : V) : V := (m.find? k).getD d

/-- The list with a key's value set; keys stay rising. -/
def AMap.insert {V : Type} (m : AMap V) (k : Nat) (v : V) : AMap V :=
  match m with
  | [] => [(k, v)]
  | (j, w) :: rest =>
    if k < j then (k, v) :: (j, w) :: rest
    else if j = k then (k, v) :: rest
    else (j, w) :: AMap.insert rest k v

/-- The list without a key. -/
def AMap.remove {V : Type} (m : AMap V) (k : Nat) : AMap V := m.filter (fun p => p.1 != k)

/-- Change a key's value, if it has one. -/
def AMap.modify {V : Type} (m : AMap V) (k : Nat) (f : V → V) : AMap V :=
  m.map (fun p => if p.1 = k then (p.1, f p.2) else p)

/-- The list without the keys from `lo` up to `hi`, `hi` not included. -/
def AMap.dropRange {V : Type} (m : AMap V) (lo hi : Nat) : AMap V :=
  m.filter (fun p => decide (p.1 < lo) || decide (hi ≤ p.1))

/-- A span lies in the union of ranges (base, length): the end of each range that holds its rest is the start of the next. -/
def covers (rs : List (Nat × Nat)) : Nat → Nat → Nat → Bool
  | 0, _, len => len == 0
  | fuel + 1, a, len =>
    len == 0 || (match rs.find? (fun r => decide (r.1 ≤ a) && decide (a < r.1 + r.2)) with
      | some r => covers rs fuel (r.1 + r.2) (len - (r.1 + r.2 - a))
      | none => false)

/-- Every byte of a span lies in some range of a list. -/
def inRanges (rs : List (Nat × Nat)) (a len : Nat) : Bool := covers rs (rs.length + 1) a len

/-- The entries from `lo` up to `hi`, by their distance from `lo`. -/
def AMap.window {V : Type} (m : AMap V) (lo hi : Nat) : AMap V :=
  (m.filter (fun p => decide (lo ≤ p.1) && decide (p.1 < hi))).map (fun p => (p.1 - lo, p.2))

/-- Keys strictly rising. -/
def AMap.rising {V : Type} : AMap V → Bool
  | [] => true
  | [_] => true
  | (j, _) :: (k, w) :: rest => decide (j < k) && AMap.rising ((k, w) :: rest)

namespace Machine

/-! ## Bytes -/

/-- An unlisted byte reads as 0 (log 1). -/
def readByte (m : AMap Byte) (a : Nat) : Byte := m.getD a 0

/-- Writing 0 removes the entry, so that equal memories are equal lists. -/
def writeByte (m : AMap Byte) (a : Nat) (b : Byte) : AMap Byte := if b = 0 then m.remove a else m.insert a b

/-- Keys rising, and no entry equal to what an unlisted byte reads as. -/
def memoryWf (m : AMap Byte) : Bool := m.rising && m.all (fun p => p.2 != 0)

def readBytes (m : AMap Byte) (a : Nat) : Nat → List Byte
  | 0 => []
  | n + 1 => readByte m a :: readBytes m (a + 1) n

def writeBytes (m : AMap Byte) (a : Nat) : List Byte → AMap Byte
  | [] => m
  | b :: rest => writeBytes (writeByte m a b) (a + 1) rest

/-- The value of bytes, the first the least significant (00 R4). -/
def leValue : List Byte → Nat
  | [] => 0
  | b :: rest => b.toNat + 256 * leValue rest

/-- The low `n` bytes of a value, the least significant first (00 R4). -/
def leBytes : Nat → Nat → List Byte
  | 0, _ => []
  | n + 1, v => BitVec.ofNat 8 v :: leBytes n (v / 256)

def readLE (m : AMap Byte) (a n : Nat) : Nat := leValue (readBytes m a n)

def writeLE (m : AMap Byte) (a n v : Nat) : AMap Byte := writeBytes m a (leBytes n v)

/-! ## Fields of values -/

/-- Bits `hi` down to `lo` of a value. -/
def bits (v hi lo : Nat) : Nat := (v >>> lo) % 2 ^ (hi + 1 - lo)

def bit (v k : Nat) : Bool := v.testBit k

/-- The two's complement reading of the low `w` bits (00 R8). -/
def signedOf (w v : Nat) : Int := if v % 2 ^ w < 2 ^ (w - 1) then (v % 2 ^ w : Nat) else (v % 2 ^ w : Nat) - (2 ^ w : Nat)

/-- The low `w` bits of an integer (00 R8). -/
def wrap (w : Nat) (x : Int) : Nat := (x % (2 ^ w : Nat)).toNat

def clampInt (x lo hi : Int) : Int := if x < lo then lo else if hi < x then hi else x

def ceilDiv (a b : Nat) : Nat := (a + b - 1) / b

/-- Serial comparison (07 R164): (x - y) mod 2^n < 2^(n-1). -/
def serialGE (x y n : Nat) : Bool := decide ((x + 2 ^ n - y % 2 ^ n) % 2 ^ n < 2 ^ (n - 1))

/-- A list with one element replaced; an index beyond the list changes nothing. -/
def setAt {α : Type} (l : List α) (k : Nat) (v : α) : List α := l.set k v

end Machine

/-- Two spans share a byte. -/
def overlap (a n b m : Nat) : Bool := decide (a < b + m) && decide (b < a + n)

end Sys2Proof
end

