-- ==== Sys2Proof/Machine/State.lean ====
section
/-! DEFINITION. The state of the JMD-9640 as plain data, the reasons a step can stop, and the state after reset.
The keys of the sparse maps are:
* cells: `(partition * 1024 + GID) * 512 + logical index`; gangs: `partition * 1024 + GID`;
* units of the package: `slot * 32 + unit`;
* bytes of memory: HBM physical address p at p, host physical address a at `2^48 + a`, byte o of the slice of unit u at
  `2^49 + u * 2^30 + o` (00 R4, 06 R120, R122, R128). -/

namespace Sys2Proof.Machine

/-! ## Sequencers -/

/-- The type of a cell (01 R12). -/
inductive CellType where
  | matrix
  | vector
  | gather
  deriving DecidableEq, Repr

/-- The level at which a control core runs (00 R10). -/
inductive Priv where
  | user
  | supervisor
  | root
  deriving DecidableEq, Repr

/-- One active loop level (04 Table 4-1): START, END, ln and lx. -/
structure Level where
  start : Word
  stop : Word
  ln : Word
  lx : Word
  deriving DecidableEq, Repr

/-- The instruction that tret.emu has supplied for the word at PC (18 R361): it is issued in place of that word, and its
end handling uses the Q and N of the stored instruction. -/
structure Emulated where
  instr : Instr
  last : Word
  next : Word
  deriving DecidableEq, Repr

/-- The position of one sequencer (04 Table 4-1); the levels stand top first. `boundary` says that it stands at an
iteration boundary (04 R77). `buf` is the loop buffer (03 R57): words of the body of the level that was the top one at depth
`bufDepth`, by address; `bufEnds` holds Q and N of the body of each header among them. -/
structure Pos where
  pc : Word
  levels : List Level
  exited : Bool
  boundary : Bool
  emu : Option Emulated
  buf : List (Word × Instr) := []
  bufDepth : Nat := 0
  bufEnds : List (Word × Word × Word) := []
  deriving DecidableEq, Repr

/-- The operation of an atomic (08 Table 8-6). -/
inductive AtomicOp where
  | amo (op : BitVec 3)
  | swap
  | cas
  deriving DecidableEq, Repr

/-- What an outstanding access of an A-seq does when it is performed (06 R136, R138; 07 R160; 08 R187). -/
inductive AccessKind where
  | load (signed : Bool) (dest : BitVec 5)
  | queueLoad (q : Nat) (slot : Nat)
  | store (data : Word)
  | atomic (op : AtomicOp) (dest : Option (BitVec 5)) (data expected : Word)
  | release (dest : BitVec 5)
  | xfer (dest : BitVec 5) (owner : BitVec 16)
  deriving DecidableEq, Repr

/-- An access, release or xfer that has issued and is not yet performed. -/
structure Access where
  id : Nat
  kind : AccessKind
  ea : Word
  /-- Bytes of the access; 8 for a release or xfer. -/
  width : Nat
  /-- First word of the instruction (18 R354). -/
  first : BitVec 32
  /-- Path checks and translation have passed (06 R136). -/
  committed : Bool
  /-- The place in `State.mem`, once committed; none in the slice of an exited cell (06 R132). -/
  loc : Option Nat
  /-- The comb names of the objects that the written bytes are bound to (07 R154). -/
  bound : List Nat
  /-- A post-increment that takes place when the access is re-issued (06 R141). -/
  inc : Option (BitVec 5 × Word)
  /-- The write is performed in local HBM and waits for the neighbour's acknowledgement (22 R420). -/
  mirrored : Bool
  /-- The entry that a queue store has popped: its queue, its value and the cycle of its push. A path fault gives it back,
  since a faulting access has no effect on queues (06 R121). -/
  popped : Option (Nat × Word × Word) := none
  /-- What the frame field DATA of the access holds beyond what the access uses (00 R6, 18 Table 18-5). -/
  spare : Word := 0
  deriving DecidableEq, Repr

/-- The A-seq of a cell, or the sequencer of a control core (04 R70, 05 R91, 06 R136). -/
structure ASeq where
  pos : Pos
  /-- s0 to s31; s0 is held as 0. -/
  regs : Vector Word 32
  mb : Vector Word 16
  /-- Outstanding accesses, releases and xfers, in issue order. -/
  out : List Access
  /-- Number given to the next access. -/
  nextId : Nat
  /-- Cycles that the last word still takes (04 Table 4-3). -/
  busy : Nat := 0
  deriving DecidableEq, Repr

/-- An entry of a branch-outcome queue: the bit, the cycle of the push, and whether it can be popped (04 R84). -/
structure BqEntry where
  bit : Bool
  pushed : Word
  visible : Bool
  deriving DecidableEq, Repr

/-- A pending move of an X-seq (05 R106). -/
structure Move where
  /-- X-seq cycles until it transports. -/
  delay : Nat
  dst : BitVec 7
  rm : BitVec 3
  src : BitVec 5
  /-- The immediate of mvi. -/
  value : Option Word
  /-- The word of the instruction (18 R354). -/
  first : BitVec 32
  deriving DecidableEq, Repr

/-- An operation in flight in a column of an X-seq (05 R110), with the operands read at its trigger. -/
structure XOp where
  left : Nat
  dst : BitVec 7
  rm : BitVec 3
  t : Word
  o : Word
  addend : Word
  first : BitVec 32
  deriving DecidableEq, Repr

/-- The X-seq of a cell (05 R106 to R119). -/
structure XSeq where
  pos : Pos
  g : Vector Word 16
  iO : Word
  iR : Word
  iM : Word
  fO : Word
  fA : Word
  fR : Word
  cO : Word
  cR : Word
  cf : Bool
  wcol : Bool
  tcol : Bool
  moves : List Move
  ops : List XOp
  /-- What the frozen cycle needs before it takes place (05 R109), empty when not frozen: entries to pop from lq0 to lq3
  (0 to 3), room in sq0 to sq3 (4 to 7), an entry in BQAX (8), room in BQXA (9). -/
  frozen : List (Nat × Nat)
  /-- This cycle's word has issued, its moves have not transported. -/
  issued : Bool
  /-- Cycles that the last word still takes (04 Table 4-3); the save area has no word for them (log 20). -/
  idle : Nat
  deriving DecidableEq, Repr

/-! ## Traps -/

/-- The class of a trap (18 R346). -/
inductive TrapClass where
  | replayable
  | fatal
  | event
  deriving DecidableEq, Repr

/-- A trap record (18 Table 18-3), without RSEQ, which is given when it is written. -/
structure TrapRecord where
  kind : Nat
  code : Nat
  cls : TrapClass
  sq : Bool
  eng : Bool
  cc : Bool
  cell : Nat
  gid : Nat
  queue : Nat
  seq : BitVec 32
  info : Word
  cyc : Word
  pc : Word
  addr : Word
  deriving DecidableEq, Repr

/-- The trap on which a cell or control core is stopped (18 R353). -/
structure Trap where
  record : TrapRecord
  held : Bool
  deriving DecidableEq, Repr

/-! ## Engines -/

/-- The state of an engine command (18 R354). -/
inductive CmdState where
  | queued
  | active
  | suspended
  | withheld
  deriving DecidableEq, Repr

/-- A range of an engine command (08 R179): the closed span from the lowest to the highest byte of an operand, with the
name under which its bytes are compared. -/
structure Rng where
  addr : Word
  name : Nat
  translated : Bool
  len : Nat
  write : Bool
  tagged : Bool
  deriving DecidableEq, Repr

/-- An entry of a binding table (07 R152). `perCell` gives the role of a .bind entry; its addresses are own-slice
offsets. A gang entry's object and region are comb names or 48-bit translated addresses. -/
structure Binding where
  object : Nat
  base : Nat
  len : Nat
  perCell : Option Nat
  /-- The region of a gang entry lies in the translated space. -/
  translated : Bool
  deriving DecidableEq, Repr

/-- An engine command that has issued and has not completed (08 R180 to R182, 18 R354). -/
structure Cmd where
  id : Nat
  instr : Instr
  /-- Captured register values, in the form's operand order. -/
  vals : List Word
  /-- 0 matrix, 1 vector, 2 table, 3 gather, 4 copy, 5 link. -/
  queue : Nat
  /-- Copy slot or lane. -/
  slot : Nat
  state : CmdState
  /-- Absolute start cycle of a stamped command, and whether it is elastic (16 R317). -/
  startAt : Option Word
  elastic : Bool
  /-- The form's progress record: units of work done, and the form's other progress words. -/
  prog : Nat
  aux : List Word
  /-- Its ranges; those that depend on a slot are known from its start on (10 R224). -/
  ranges : List Rng
  /-- Accumulator tiles it names, and the one whose P its failure sets (09 R199, R200; 10 R218). -/
  tiles : List Nat
  dtile : Option Nat
  /-- Objects to acquire at the start and to release at the end, by comb name (07 R166). -/
  acqObjs : List Nat
  relObjs : List Nat
  /-- The binding table at issue, kept for a command whose ranges depend on a slot (07 R154). -/
  table : List Binding
  /-- Mask level of a vector command at issue (11 R254). -/
  maskLevel : Nat
  /-- Tiles of tagged ranges claimed, and those whose final change is made, by comb name / 4096 (08 R185). -/
  claims : List Nat
  passed : List Nat
  /-- Write ranges of earlier commands that have failed (08 R181). -/
  failedW : List Rng
  /-- The number of accesses that the A-seq had issued before it (06 R135). -/
  afterAcc : Nat
  /-- A check of the command has corrected its tile (08 Table 8-1). -/
  corr : Bool
  /-- The failure it ends with. -/
  failed : Option Nat
  /-- OPND and address of a translation fault that suspends it. -/
  fault : Option (Nat × Word)
  /-- What the acquires of a stamped command gave when it became ready: 0, or the status with which it fails (16 R446). -/
  acquired : Option Nat := none
  /-- The writes of its next unit are made, and the neighbour has not acknowledged them all (22 R420); the unit then leaves
  these progress words. -/
  sent : Bool := false
  ahead : List Word := []
  deriving DecidableEq, Repr

/-- A slot of a load-data queue: its value once filled, with the cycle of the fill (06 R138, 05 R109). -/
structure LqSlot where
  value : Option Word
  since : Word
  deriving DecidableEq, Repr

/-- A load-data queue: head slot number, and slots from the head on. -/
structure Lq where
  head : Nat
  slots : List LqSlot
  deriving DecidableEq, Repr

/-- A store-data queue: head slot number, and entries with the cycle of their push. -/
structure Sq where
  head : Nat
  entries : List (Word × Word)
  deriving DecidableEq, Repr

/-- The flags and check state of an accumulator tile (09 R190, R200; 10 R225). -/
structure Tile where
  sat : Bool
  partialK : Bool
  cv : Bool
  cm : Nat
  cn : Nat
  nf : Bool
  /-- μR and μC, FP32, 64 each; elements beyond the list are 0. -/
  muR : List (BitVec 32)
  muC : List (BitVec 32)
  deriving DecidableEq, Repr

/-- A lane of a link receive unit (15 R304). -/
structure Lane where
  opened : Bool
  op : Nat
  fmt : Nat
  count : Nat
  rows : Nat
  staging : Word
  dest : Word
  arrived : List Nat
  poisoned : List Nat
  deriving DecidableEq, Repr

/-- A mask slot of a vector cell (11 R254, R256). -/
structure MaskSlot where
  bits : BitVec 65536
  any : Bool
  psn : Bool
  deriving DecidableEq, Repr

/-- A leaf entry that ptupd has installed (19 R373, R375); `granted` is the scanner's grant of X. -/
structure PageEntry where
  base : Nat
  leaf : Word
  granted : Bool
  deriving DecidableEq, Repr

/-- What a cell or control core waits for, once a form that stalls has taken effect in part. -/
inductive GangWait where
  /-- `passed`: every cell has arrived, and the cell goes on once it runs. -/
  | gbar (passed : Bool)
  | realign (target : Word) (timed : Bool) (at_ : Word)
  deriving DecidableEq, Repr

/-- The state of one cell of a gang (04 R70, 05, 06 R138, 08 R169, 09, 10, 11, 15, 16, 17). -/
structure Cell where
  ctype : CellType
  /-- Role number, role-relative index and the role's cell count (17 R342). -/
  role : Nat
  r : Nat
  nR : Nat
  /-- Physical slot and unit (16 R322). -/
  slot : Nat
  unit : Nat
  /-- The cell has exited; its unit is free (06 R132). -/
  gone : Bool
  a : ASeq
  x : XSeq
  bqax : List BqEntry
  bqxa : List BqEntry
  lq : Vector Lq 4
  sq : Vector Sq 4
  cc : Vector (BitVec 32) 32
  csw : Vector Word 32
  cmds : List Cmd
  nextCmd : Nat
  /-- Declared banks D, and banks held (09 R191). -/
  declared : Nat
  banks : BitVec 256
  elems : AMap (BitVec 32)
  /-- Elements that an uncorrectable error has poisoned (22 R416), and those with an upset that no scrub has found (22 R415). -/
  poisonElems : List Nat
  upsetElems : List Nat
  tiles : AMap Tile
  epilogue : Vector (Option (BitVec 512)) 4
  shapes : Vector (Option (BitVec 512)) 4
  masks : List MaskSlot
  mdi : Nat
  fpc : Vector (BitVec 32) 24
  lanes : Vector Lane 16
  /-- Tile walker (17 R342). -/
  walk : BitVec 32
  first : Nat
  count : Nat
  schmiss : Word
  dndf : Bool
  /-- gbar ordinals completed, and the arrival that the A-seq waits on (17 R345, 16 R323). -/
  bars : Nat
  waiting : Option GangWait
  /-- A time fault was resumed: the word at PC is issued as elastic (16 R320). -/
  asElastic : Bool
  /-- twait or an expired stall lets the A-seq go on from this cycle (16 R324). -/
  until_ : Option Word
  trap : Option Trap
  emuCtl : Word
  emu : Vector Word 4
  /-- A halt request has been met (18 R366). -/
  halted : Bool
  /-- The queue that the A-seq stalled on in this cycle, numbered as `XSeq.frozen` numbers them, and 8 for room in BQAX (04 R87). -/
  stalled : Option Nat := none
  /-- The cell's TLB, newest entry first (19 R379). -/
  tlb : List PageEntry := []
  /-- A package cycle that is one of the cell's own: the last one on which its words had to issue (16 R315, R323, R324), from
  which a derated cell counts its clock (log 99). -/
  phase : Word := 0
  /-- What a wrsr has written to DATA of slots of the A-seq replay table that hold no entry, by slot (00 R6, 18 Table 18-5). -/
  spareData : AMap Word := []
  deriving DecidableEq, Repr

/-- A context in a cap-bank buffer (18 R367): the cell, with the live window, marks and tags of its slice by offset. -/
structure Parked where
  cell : Cell
  live : AMap Byte
  marks : AMap Nat
  tags : AMap Nat
  /-- NEXP of its waggle lines, by offset. -/
  waggles : AMap Nat := []
  /-- An uncorrectable error has struck the buffer (22 Table 22-1). -/
  corrupt : Bool
  deriving DecidableEq, Repr

/-! ## Gangs, launches, cores -/

/-- A remote increment in flight (08 R175). -/
structure RemoteInc where
  sender : Nat
  target : Nat
  counter : BitVec 5
  amount : Nat
  deriving DecidableEq, Repr

/-- Where a gang stands (17 R334, 18 R366 to R371). -/
inductive GangState where
  /-- Dispatched; its first words issue on the base cycle. -/
  | starting
  | resident
  /-- A halt request is outstanding. -/
  | halting
  /-- Parked in its cells' cap banks. -/
  | parked
  /-- Read by ctxld and waiting for cells. -/
  | restored
  /-- Stopped by a fatal trap until tret.kill. -/
  | stopped
  deriving DecidableEq, Repr

/-- The tile nest after overrides (17 R341). -/
structure Nest where
  ndim : Nat
  extents : List Nat
  perm : List Nat
  total : Nat
  deriving DecidableEq, Repr

structure Gang where
  /-- The model's own: tells gangs apart that have held one GID. -/
  uid : Nat
  /-- Launch and handle of the klaunch; none for a restored gang whose launch is not here (18 R371). -/
  launch : Option Nat
  handle : Nat
  queue : Nat
  seq : BitVec 32
  seed : BitVec 32
  gnum : Nat
  /-- 0 prompt, 1 token. -/
  cl : Nat
  ncells : Nat
  state : GangState
  base : Word
  timed : Bool
  live : Nat
  plat : Nat
  det : Bool
  nest : Nest
  bindings : List Binding
  incs : List RemoteInc
  /-- FP-event totals of exited cells, DNDF of exited cells, wear charged (11 R258, 16 R322, 21 R408). -/
  fpx : Vector (BitVec 32) 24
  dndf : Bool
  wear : Word
  /-- Counters of which an interrupt was sent (11 R259). -/
  fpSent : List Nat
  /-- Cycle of the halt, while parked or restored (16 R315). -/
  haltedAt : Word
  /-- Cycle on which its words issue, while starting: the base cycle, or that of a resume. -/
  startsAt : Word
  /-- Save area of a restored gang (18 R371). -/
  saveArea : Word
  /-- A cancel or kill that takes effect when the exchange or save it meets ends, with its status (18 R368). -/
  doomed : Option Nat
  deriving DecidableEq, Repr

/-- The kind of a command of a launch program (17 R340). -/
inductive StreamKind where
  | klaunch
  | sxin
  | sxout
  deriving DecidableEq, Repr

/-- A role of a kernel image (17 Table 17-5). -/
structure Role where
  ctype : CellType
  count : Nat
  dlen : Nat
  aEntry : Word
  xEntry : Word
  data : Word
  acc : Nat
  bfirst : Nat
  bcount : Nat
  /-- The bytes of the .data image. -/
  bytes : List Byte
  deriving DecidableEq, Repr

/-- What the controller has read of a kernel's descriptor and image (17 R337, R338). -/
structure Kernel where
  gnum : Nat
  cl : Nat
  mbs : List Word
  roles : List Role
  binds : List (Nat × Nat × Nat)
  nest : Nest
  live : Nat
  plat : Nat
  timed : Bool
  deriving DecidableEq, Repr

/-- A command of a launch program on the scoreboard (17 R335, R336). -/
structure StreamCmd where
  handle : Nat
  /-- It is the `number`-th command that its program has issued, counting from 1. -/
  number : Nat
  kind : StreamKind
  desc : Word
  /-- The numbers of the commands that its wait list names. -/
  waits : List Nat
  /-- The cycle on which it became eligible (17 R330, R336). -/
  eligibleAt : Option Word
  status : Option Nat
  consumed : Bool
  kernel : Option Kernel
  gang : Option Nat
  /-- Bytes transferred. -/
  moved : Nat
  /-- SRC, DST and LEN of the stream descriptor, once read (17 R339). -/
  xfer : Option (Word × Word × Nat)
  /-- Page of a replayable fault already recorded, and the table changes seen then (17 R339). -/
  blocked : Option (Nat × Nat)
  deriving DecidableEq, Repr

structure Launch where
  part : Nat
  queue : Nat
  port : Bool
  seq : BitVec 32
  seed : BitVec 32
  ctx : Nat
  gnum : Nat
  crec : Word
  core : Option Nat
  /-- The control core that it was started on. -/
  home : Nat
  /-- The band that it had aged to when it was started (17 R330). -/
  band : Nat
  /-- Its kernels run on derated cells only (21 R411). -/
  derated : Bool
  issued : Nat
  cmds : List StreamCmd
  /-- The launch program has ended, with this status and halt code (17 R332). -/
  ended : Option (Nat × BitVec 16)
  nkern : BitVec 32
  fpx : Vector (BitVec 32) 24
  wear : Word
  dndf : Bool
  deriving DecidableEq, Repr

/-- What a control core waits for after a form has issued (19 R387, 18 R363, R368, R370). -/
inductive CoreWait where
  /-- ptupd waits for the stores of its core, and then, with a number, for its turn at the table-update engine. -/
  | ptupdTurn (dest : BitVec 5) (list : Word) (n : Nat) (turn : Option Nat)
  /-- ptupd waits for replicas and scans; an ECODE was not zero. -/
  | ptupd (dest : BitVec 5) (bad : Bool)
  /-- tlbinv has dropped the cached entries of its range, and waits for what had been translated through them: accesses, and
  mirrored writes in transit. -/
  | tlbinv (accs : List (Agent × Nat)) (writes : List Nat)
  | cpatch (dest : BitVec 5)
  | pswap (dest : BitVec 5)
  | ctxsv (dest : BitVec 5)
  deriving DecidableEq, Repr

structure Core where
  a : ASeq
  priv : Priv
  /-- The partition that owns the core; none before its layout. -/
  part : Option Nat
  launch : Option Nat
  dndf : Bool
  trap : Option Trap
  wait : Option CoreWait
  /-- The core runs code. -/
  running : Bool
  deriving DecidableEq, Repr

/-! ## Partitions and the package -/

/-- A die's replica of a partition's table (19 R376). -/
structure Replica where
  gen : Word
  entries : List PageEntry
  deriving DecidableEq, Repr

/-- A scan in progress: where its outcome goes (03 R65, 18 R363, 19 R386). -/
structure Scan where
  /-- Page base and size; physical location of the bytes to scan, in pieces. -/
  base : Nat
  size : Nat
  tag : Bool
  leaf : Word
  locs : List (Nat × Nat)
  /-- The code that decides without reading, 0x0D or 0x0E. -/
  fixed : Option Nat
  /-- The core that waits, and where the entry's ERES word goes; none for cpatch. -/
  core : Nat
  eres : Option (Nat × Nat)
  /-- cpatch: the image's bytes and the place they go to. -/
  patch : Option (List Byte × List (Nat × Nat))
  deriving DecidableEq, Repr

/-- A pswap in progress (18 R368). -/
structure Swap where
  core : Nat
  outGid : Option Nat
  inGid : Option Nat
  deriving DecidableEq, Repr

/-- A ctxsv in progress (18 R370). -/
structure Save where
  core : Nat
  gid : Nat
  area : Word
  wasParked : Bool
  deriving DecidableEq, Repr

/-- What a full save leaves behind in the device of a context, under the launch link and gang time of its save area: the
items of the gang and its cells for which the area's layout has no word (18 Tables 18-5, 18-11; log 20). -/
structure SavedContext where
  part : Nat
  queue : Nat
  seq : BitVec 32
  handle : Nat
  gtime : Word
  gang : Gang
  cells : List (Nat × Cell)
  waggles : List (Nat × AMap Nat)
  deriving DecidableEq, Repr

/-- The layout root gives a partition (23 R428). -/
structure Layout where
  det : Bool
  test : Bool
  /-- Units of each slot that are the partition's. -/
  share : Vector (BitVec 32) 32
  /-- Slots of its buffer dies, ascending. -/
  buffers : List Nat
  /-- HBM ranges (base, length). -/
  hbm : List (Nat × Nat)
  cap : Nat
  scoreboard : Nat
  cores : BitVec 16
  firstQueue : Nat
  queueCount : Nat
  port : Bool
  deriving DecidableEq, Repr

/-- What a mirrored write belongs to. -/
inductive MirrorOwner where
  | access (ag : Agent) (id : Nat)
  | command (cell : Nat) (id : Nat)
  | stream (launch : Nat) (handle : Nat)
  /-- Its owner was discarded. -/
  | nobody
  deriving DecidableEq, Repr

/-- A mirrored write that the neighbour has not acknowledged (22 R420). -/
structure MirrorWrite where
  /-- The model's own: tells writes apart. -/
  id : Nat
  ea : Word
  loc : Nat
  data : List Byte
  since : Word
  owner : MirrorOwner
  deriving DecidableEq, Repr

/-- A gang's time on a cell in the sampling interval that runs, or since `start` (21 R408). -/
structure Stay where
  unit : Nat
  /-- The gang and its `Gang.uid`: what it owes is added to the gang while that stands in its cells. -/
  gang : Nat
  uid : Nat
  launch : Option Nat
  part : Nat
  ctx : Option Nat
  start : Word
  stop : Option Word
  deriving DecidableEq, Repr

structure Partition where
  formed : Bool
  stopped : Bool
  layout : Layout
  cpscan : Word
  dremap : Word
  cktol : Word
  errinj : BitVec 32
  fpxthr : Word
  tqcfg : Word
  tqhead : BitVec 32
  tqtail : BitVec 32
  /-- Replayable and event records that wait for space, in detection order (18 R351). -/
  heldRecords : List TrapRecord
  pfatal : Word
  plimit : Word
  tgen : Word
  entries : List PageEntry
  /-- Table generation that the engine has sent to the replicas (19 R376). -/
  sentGen : Word
  replicas : AMap Replica
  /-- Completed table changes, for the retries of 17 R339. -/
  changes : Nat
  scans : List Scan
  swaps : List Swap
  saves : List Save
  wpol : BitVec 2
  wqtab : Word
  mirst : Word
  /-- Mirrored writes awaiting acknowledgement, oldest first (22 R420). -/
  mirrorOut : List MirrorWrite
  /-- Number given to the next mirrored write. -/
  nextMirror : Nat
  deriving DecidableEq, Repr

/-- The lifetime record and clock state of a unit (21 R402 to R407, R413; 22 R415, R421, R422). -/
structure UnitLife where
  wused : Word
  wstate : BitVec 2
  cause : BitVec 4
  alarms : BitVec 16
  key : BitVec 32
  nomhold : Bool
  deriving DecidableEq, Repr

/-- The part of the lifetime record that is held in non-volatile storage (21 R404). -/
structure UnitRecord where
  wused : Word
  wstate : BitVec 2
  cause : BitVec 4
  alarms : BitVec 16
  deriving DecidableEq, Repr

/-- The error count and supply margin of an array of a unit (22 R415, R421, R422). -/
structure ArrayState where
  errors : BitVec 32
  /-- The array runs below nominal voltage. -/
  below : Bool
  /-- The array is locked at nominal voltage. -/
  locked : Bool
  holds : Nat
  deriving DecidableEq, Repr

/-- The device's side of a work queue (17 R328, R330, R333). -/
structure Queue where
  head : BitVec 32
  tail : BitVec 32
  cseq : BitVec 32
  cvalid : Bool
  /-- Cancels whose records the ring may still hold: CSEQ, and TAIL when the cancel was observed (17 R333). -/
  cancels : List (BitVec 32 × BitVec 32)
  readySince : Option Word
  deriving DecidableEq, Repr

/-- What a host port has been given: the bytes of a read, or poison (22 R416, 23 R432). -/
structure HostReply where
  port : Bool
  data : List Byte
  poison : Bool
  deriving DecidableEq, Repr

/-- What dispatch decisions see of the mix and of the states of cells: their values as the cycle began (01 R22, 21 R406). -/
structure DispatchView where
  diemix : Vector (BitVec 32) 32
  diecell : Vector (BitVec 32) 32
  life : AMap UnitLife
  deriving DecidableEq, Repr

/-- An interrupt sent to a host port (23 R425). -/
structure Interrupt where
  port : Bool
  vector : Nat
  data : Word
  deriving DecidableEq, Repr

/-- The host semaphore (23 R426). -/
structure Hsem where
  seq : BitVec 16
  owner : Bool
  held : Bool
  deriving DecidableEq, Repr

/-- Why a step stops. -/
inductive Fault where
  /-- The agent that `State.focus` names does not exist or is not issuing; raised by the meanings of encoded forms when
  they are run outside `step`. Safe: the model stops where the hardware has no such step. -/
  | noAgent
  /-- The word belongs to the other kind of sequencer; raised by the meanings of encoded forms when they are run outside
  `step`, since fetch checks the tag (03 R48). Safe. -/
  | wrongSequencer
  /-- The bytes at PC are no instruction; raised by `step` when a page was changed after its scan. The run-time decoders
  carry no legality checks and the spec gives such words no effect (03 R65). Safe. -/
  | undecodable
  deriving DecidableEq, Repr

/-- Why a step has no meaning. -/
inductive Refusal where
  /-- The instruction has no meaning yet; raised by arms of `exec`. Safe. -/
  | notModelled (mnemonic : String)
  deriving DecidableEq, Repr

structure State where
  /-- Package cycle counter (16 R313). -/
  now : Word
  diemix : Vector (BitVec 32) 32
  diecell : Vector (BitVec 32) 32
  mixgen : BitVec 32
  /-- The mix and the wear states before the updates of this cycle. -/
  view : DispatchView
  rdymap0 : Word
  rdymap1 : Word
  pkgstat : Word
  hsem : Hsem
  lstatBusy : Bool
  lstatCode : BitVec 8
  lcmd : Word
  mr : Vector (BitVec 512) 8
  /-- Per port: last SPDM request and response (23 R431). -/
  spdm : Vector (List Byte × List Byte) 2
  /-- Per port: IDE keys programmed (23 R423). -/
  ide : Vector (List Byte) 2
  /-- Per port: a secured session is established (23 R431). -/
  session : Vector Bool 2
  /-- Images staged by root, oldest first (23 R428). -/
  staged : List (List Byte)
  cethr : Word
  tblver : Word
  lnkst : AMap Word
  wqcfg : AMap Word
  queues : AMap Queue
  /-- Queue served last in each band, by `partition * 8 + band` (17 R330). -/
  served : AMap Nat
  life : AMap UnitLife
  committed : AMap UnitRecord
  stays : List Stay
  /-- Arrays by `unit * 64 + array`. -/
  arrays : AMap ArrayState
  portUp : Vector Bool 2
  packageUp : Bool
  /-- Outputs, newest first. -/
  interrupts : List Interrupt
  /-- Trap records of this cycle with their partitions, not yet delivered (18 R348). -/
  records : List (Nat × TrapRecord)
  hostReplies : List HostReply
  mirrorSent : List (Nat × List Byte)
  mirrorAcks : Nat
  /-- Memory, all agents' (06 R120 to R132). -/
  mem : AMap Byte
  /-- Poisoned aligned 8-byte units, by location / 8 (22 R416); the value is 1. -/
  poison : AMap Nat
  /-- Units of slices with a single-bit upset that no scrub has found, by location / 8 (22 R415). -/
  upsets : List Nat
  /-- Buffer dies that have failed, with the AVAIL bits that they had: none for one that failed self-test (01 R23, 22 R419). -/
  lostDies : AMap (BitVec 32)
  /-- The TLB that the cells of a die share, by slot, newest entry first, each entry with its partition (19 R379). -/
  dieTlb : AMap (List (Nat × PageEntry))
  /-- Lines of the read-only caches, by `slot * 2^48 + location / 64` (06 R127). -/
  roCache : AMap (List Byte)
  /-- Object marks, by location / 64 (07 R149); the value is 1. -/
  marks : AMap Nat
  /-- Tags V (bit 0) and claims C (bit 1) of tiles, by location / 4096 (08 R184). -/
  tags : AMap Nat
  /-- NEXP of the step that a waggle line holds, by location (15 R309). -/
  waggles : AMap Nat
  partitions : Vector Partition 8
  gangs : AMap Gang
  cells : AMap Cell
  launches : AMap Launch
  nextLaunch : Nat
  nextGang : Nat
  cores : Vector Core 16
  /-- Parked contexts: gangs and cells by the keys their cells had (18 R367). -/
  parked : AMap Parked
  /-- Saved contexts, newest first (18 R370). -/
  contexts : List SavedContext
  /-- The model's own: number that the next ptupd to reach the table-update engine takes (19 R376). -/
  nextPtupd : Nat
  /-- The model's own: counter of free values, the agent that issues, the number of the next turn in this cycle, steps to come. -/
  fresh : Nat
  focus : Agent
  cursor : Nat
  agenda : List Instr
  deriving DecidableEq, Repr

/-! ## Reset -/

/-- A sequencer that has not started. -/
def ASeq.idle : ASeq :=
  { pos := { pc := 0, levels := [], exited := false, boundary := false, emu := none }, regs := Vector.replicate 32 0,
    mb := Vector.replicate 16 0, out := [], nextId := 0 }

/-- A control core before any layout gives it to a partition. -/
def Core.idle : Core :=
  { a := ASeq.idle, priv := .user, part := none, launch := none, dndf := false, trap := none, wait := none,
    running := false }

def Layout.none : Layout :=
  { det := false, test := false, share := Vector.replicate 32 0, buffers := [], hbm := [], cap := 0, scoreboard := 0,
    cores := 0, firstQueue := 0, queueCount := 0, port := false }

/-- A partition that is not formed; its registers hold the values that forming gives them (06 R123, 10 R226, R231,
11 R259, 18 R349, R366, 19 R376, R377, 21 R409, 22 R420). -/
def Partition.unformed : Partition :=
  { formed := false, stopped := false, layout := Layout.none, cpscan := 0,
    dremap := 0x000000FFFFFFFFFF, cktol := 0x10, errinj := 0, fpxthr := 0, tqcfg := 0, tqhead := 0, tqtail := 0,
    heldRecords := [], pfatal := 0, plimit := 0xFFFFFFFF000B0000, tgen := 0, entries := [], sentGen := 0,
    replicas := [], changes := 0, scans := [], swaps := [], saves := [], wpol := 0, wqtab := 0,
    mirst := 0x28000000, mirrorOut := [], nextMirror := 0 }

/-- The machine right after package reset (01 R14, 12 R269, 15 R311, 16 R313, 17 R327, 21 R404, 22 R421, 23 R426 to
R432); where the spec gives no value, the log names it (log 5, log 6). -/
def State.reset : State :=
  { now := 0, diemix := Vector.replicate 32 0x00001F30, diecell := Vector.replicate 32 0, mixgen := 0,
    view := { diemix := Vector.replicate 32 0x00001F30, diecell := Vector.replicate 32 0, life := [] },
    rdymap0 := 0, rdymap1 := 0, pkgstat := 0, hsem := { seq := 0, owner := false, held := false },
    lstatBusy := false, lstatCode := 0, lcmd := 0, mr := Vector.replicate 8 0, spdm := Vector.replicate 2 ([], []),
    ide := Vector.replicate 2 [], session := Vector.replicate 2 false, staged := [], cethr := 0x80000040, tblver := 0x0000111111111111, lnkst := [],
    wqcfg := [], queues := [], served := [], life := [], committed := [], stays := [], arrays := [],
    portUp := Vector.replicate 2 true, packageUp := true, interrupts := [], records := [], hostReplies := [], mirrorSent := [], mirrorAcks := 0,
    mem := [], poison := [], upsets := [], lostDies := [], dieTlb := [], roCache := [], marks := [], tags := [], waggles := [], partitions := Vector.replicate 8 Partition.unformed,
    gangs := [], cells := [], launches := [], nextLaunch := 0, nextGang := 0, cores := Vector.replicate 16 Core.idle, parked := [], contexts := [],
    nextPtupd := 0, fresh := 0, focus := .core 0, cursor := 0, agenda := [] }

end Sys2Proof.Machine
end

