-- ==== Sys2Proof/Machine/Ops.lean ====
section
/-! DEFINITION. The named operations over the state: keys, registers, positions, path checks and translation, taking a
trap and returning from one, and the frames of the meanings of encoded forms. -/

/-- The gang of an agent, if it is a cell's. -/
def Sys2Proof.Agent.gang? : Sys2Proof.Agent → Option Nat
  | .aseq k => some (k / 512)
  | .xseq k => some (k / 512)
  | .core _ => none

/-- The cell of an agent, if it is a cell's. -/
def Sys2Proof.Agent.cell? : Sys2Proof.Agent → Option Nat
  | .aseq k => some k
  | .xseq k => some k
  | .core _ => none

namespace Sys2Proof.Machine

/-! ## Keys and maps -/

def partOfCell (k : Nat) : Nat := k / 524288
def gangOfCell (k : Nat) : Nat := k / 512
def indexOfCell (k : Nat) : Nat := k % 512
def partOfGang (g : Nat) : Nat := g / 1024
def gidOfGang (g : Nat) : Nat := g % 1024
def cellKey (gang c : Nat) : Nat := gang * 512 + c
def unitKey (slot unit : Nat) : Nat := slot * 32 + unit

/-- Where host memory and slices stand in `State.mem`. -/
def hostLoc (a : Nat) : Nat := 2 ^ 48 + a
def sliceLoc (unit off : Nat) : Nat := 2 ^ 49 + unit * 2 ^ 30 + off

/-- Slice sizes in bytes (06 R122). -/
def CellType.sliceSize : CellType → Nat
  | .matrix => 0x600000
  | .vector => 0x400000
  | .gather => 0x400000

def bufferSliceSize : Nat := 0xA00000

/-- The cluster of a slot (01 Table 1-2): 0 prompt, 1 token, 2 shared, 3 none. -/
def slotCluster (s : Nat) : Nat :=
  if s = 0 || s = 27 || s = 28 then 2
  else if s ≤ 8 || s = 13 || s = 14 || (17 ≤ s && s ≤ 19) || s = 25 then 0
  else if s ≤ 26 then 1 else 3

def State.part (s : State) (p : Nat) : Partition := s.partitions[p % 8]'(Nat.mod_lt _ (by decide))

def State.setPart (s : State) (p : Nat) (x : Partition) : State :=
  { s with partitions := s.partitions.set (p % 8) x (Nat.mod_lt _ (by decide)) }

def State.core (s : State) (k : Nat) : Core := s.cores[k % 16]'(Nat.mod_lt _ (by decide))

def State.setCore (s : State) (k : Nat) (x : Core) : State :=
  { s with cores := s.cores.set (k % 16) x (Nat.mod_lt _ (by decide)) }

def State.cell? (s : State) (k : Nat) : Option Cell := s.cells.find? k

def State.setCell (s : State) (k : Nat) (c : Cell) : State := { s with cells := s.cells.insert k c }

def State.modCell (s : State) (k : Nat) (f : Cell → Cell) : State := { s with cells := s.cells.modify k f }

/-- Change each cell of a gang that has not exited, at once. -/
def State.modGangCells (s : State) (g : Nat) (f : Cell → Cell) : State :=
  { s with cells := s.cells.map (fun p => if gangOfCell p.1 = g && !p.2.gone then (p.1, f p.2) else p) }

def State.gang? (s : State) (g : Nat) : Option Gang := s.gangs.find? g

def State.setGang (s : State) (g : Nat) (x : Gang) : State := { s with gangs := s.gangs.insert g x }

def State.modGang (s : State) (g : Nat) (f : Gang → Gang) : State := { s with gangs := s.gangs.modify g f }

def State.modLaunch (s : State) (l : Nat) (f : Launch → Launch) : State := { s with launches := s.launches.modify l f }

/-- A free value, and the state that has used it (log 9). -/
def State.free (s : State) : Word × State := (Config.freeValue s.fresh, { s with fresh := s.fresh + 1 })

/-- Keys of the cells of a gang that are not gone, in logical order. -/
def State.gangCells (s : State) (g : Nat) : List (Nat × Cell) :=
  s.cells.filter (fun p => gangOfCell p.1 == g)

/-! ## Registers of an A-seq -/

/-- Reading s0 gives 0 (05 R91). -/
def ASeq.reg (a : ASeq) (d : BitVec 5) : Word := if d = 0 then 0 else a.regs[d.toNat]'(by have := d.isLt; omega)

/-- Writing s0 is ignored (05 R91). -/
def ASeq.setReg (a : ASeq) (d : BitVec 5) (v : Word) : ASeq :=
  if d = 0 then a else { a with regs := a.regs.set d.toNat v (by have := d.isLt; omega) }

/-- The register that an outstanding access will write. -/
def AccessKind.dest : AccessKind → Option (BitVec 5)
  | .load _ d => some d
  | .queueLoad .. => none
  | .store _ => none
  | .atomic _ d _ _ => d
  | .release d => some d
  | .xfer d _ => some d

/-- Some register of the list waits for an outstanding access (05 R93). -/
def ASeq.pending (a : ASeq) (use : List (BitVec 5)) : Bool :=
  a.out.any (fun x => (match x.kind.dest with
    | some d => d != 0 && use.contains d
    | none => false) || (match x.inc with
    | some i => use.contains i.1
    | none => false))

def State.aseq? (s : State) : Agent → Option ASeq
  | .aseq k => (s.cell? k).map (·.a)
  | .xseq k => (s.cell? k).map (·.a)
  | .core k => if k < 16 then some (s.core k).a else none

def State.setASeq (s : State) (ag : Agent) (a : ASeq) : State :=
  match ag with
  | .aseq k => s.modCell k (fun c => { c with a })
  | .xseq k => s.modCell k (fun c => { c with a })
  | .core k => s.setCore k { s.core k with a }

/-- The partition of an agent (00 R9); a control core that no layout has given to a partition names partition 0 (log 106). -/
def State.agentPart (s : State) : Agent → Nat
  | .aseq k => partOfCell k
  | .xseq k => partOfCell k
  | .core k => ((s.core k).part).getD 0

/-- The level at which an agent runs: cells run at user level (00 R10). -/
def State.agentPriv (s : State) : Agent → Priv
  | .core k => (s.core k).priv
  | _ => .user

/-! ## Positions (04) -/

/-- Pop or repeat the levels that end on `q` (04 R75); levels stand top first. -/
def endLevels (q n : Word) : List Level → List Level × Word
  | [] => ([], n)
  | l :: rest =>
    if l.stop = q then
      if l.ln - 1 = 0 then endLevels q n rest
      else ({ l with ln := l.ln - 1, lx := l.lx + 1 } :: rest, l.start)
    else (l :: rest, n)

/-- EndHandling(Q, N) (04 R75). -/
def Pos.endHandling (p : Pos) (q n : Word) : Pos :=
  let r := endLevels q n p.levels
  { p with levels := r.1, pc := r.2, emu := none, boundary := match p.levels with
      | l :: _ => decide (l.stop = q)
      | [] => false }

/-- The Q and N of an instruction of `size` bytes at PC; an emulated instruction has those of the stored one (18 R361). -/
def Pos.last (p : Pos) (size : Nat) : Word :=
  match p.emu with
  | some e => e.last
  | none => p.pc + BitVec.ofNat 64 (size - 4)

def Pos.next (p : Pos) (size : Nat) : Word :=
  match p.emu with
  | some e => e.next
  | none => p.pc + BitVec.ofNat 64 size

/-- End handling of an instruction of `size` bytes that transfers no control. -/
def Pos.retire (p : Pos) (size : Nat) : Pos := p.endHandling (p.last size) (p.next size)

/-- Transfer(T) (04 R79): levels that do not hold the target are popped. -/
def Pos.transfer (p : Pos) (t : Word) : Pos :=
  { p with
    pc := t
    levels := p.levels.dropWhile (fun l => !(decide (l.start ≤ t) && decide (t ≤ l.stop)))
    boundary := false
    emu := none }

/-- lxk and lnk of absolute level k, 0 when vacant (04 R71). -/
def Pos.level? (p : Pos) (k : Nat) : Option Level := p.levels.reverse[k]?

def Pos.lx (p : Pos) (k : Nat) : Word := ((p.level? k).map (·.lx)).getD 0
def Pos.ln (p : Pos) (k : Nat) : Word := ((p.level? k).map (·.ln)).getD 0

/-- The position at launch (04 R72). -/
def Pos.entry (pc : Word) : Pos := { pc, levels := [], exited := false, boundary := false, emu := none }

def ASeq.retire (a : ASeq) (size : Nat) : ASeq := { a with pos := a.pos.retire size }

def ASeq.fresh (pc : Word) (mb : Vector Word 16) : ASeq :=
  { pos := Pos.entry pc, regs := Vector.replicate 32 0, mb, out := [], nextId := 0 }

/-! ## Who issues -/

/-- The gang stands in its cells and runs (17 R334). -/
def GangState.runs : GangState → Bool
  | .resident => true
  | .halting => true
  | _ => false

/-- A partition that is formed and not stopped (18 R351). -/
def Partition.live (p : Partition) : Bool := p.formed && !p.stopped

/-- Both sequencers of the cell may issue words (18 R347, R366). -/
def State.cellRuns (s : State) (k : Nat) (c : Cell) : Bool :=
  !c.gone && c.trap.isNone && !c.halted && (s.part (partOfCell k)).live &&
    (match s.gang? (gangOfCell k) with
     | some g => g.state.runs
     | none => false)

/-- The lifetime record and key of a unit (21 R404, R407). -/
def UnitLife.new : UnitLife := { wused := 0, wstate := 0, cause := 0, alarms := 0, key := 0, nomhold := false }

def State.unitLife (s : State) (u : Nat) : UnitLife := s.life.getD u UnitLife.new

def Cell.unitOf (c : Cell) : Nat := unitKey c.slot c.unit

/-- The package cycle `t` is one of the cell's own. A cell that is healthy, or whose nominal clock is held, misses none; any
other works in four package cycles of five (00 R5, 16 R313, 21 Table 21-1; log 99). -/
def State.clockedAt (s : State) (c : Cell) (t : Word) : Bool :=
  let l := s.unitLife c.unitOf
  l.wstate == 0 || l.nomhold || (t - c.phase).toNat % 5 != 4

def State.clocked (s : State) (key : Nat) : Bool :=
  match s.cell? key with
  | some c => s.clockedAt c s.now
  | none => true

/-- The cell's own cycles after package cycle `t`, up to eight package cycles back (00 R5). -/
def State.ownAge (s : State) (c : Cell) (t : Word) : Nat :=
  (List.range (min 8 (s.now - t).toNat)).countP (fun k => s.clockedAt c (s.now - BitVec.ofNat 64 k))

/-- A halt request is outstanding and the A-seq stands at an iteration boundary: it issues nothing further (18 R366). -/
def State.heldAtBoundary (s : State) (k : Nat) (c : Cell) : Bool :=
  c.a.pos.boundary && (match s.gang? (gangOfCell k) with
    | some g => g.state == .halting
    | none => false)

/-- The sequencer may issue a word now. -/
def State.issuing (s : State) : Agent → Bool
  | .aseq k =>
    match s.cell? k with
    | some c => s.cellRuns k c && !c.a.pos.exited && c.waiting.isNone && c.until_.isNone && !s.heldAtBoundary k c
    | none => false
  | .xseq k =>
    match s.cell? k with
    | some c => s.cellRuns k c && !c.x.issued &&
        (!c.x.pos.exited || !c.x.moves.isEmpty || !c.x.ops.isEmpty)
    | none => false
  | .core k => decide (k < 16) &&
    (let c := s.core k
     c.running && c.trap.isNone && c.wait.isNone && !c.a.pos.exited && s.pkgstat.getLsbD 0 == false &&
      (match c.part with
       | some p => (s.part p).live
       | none => decide (c.priv = .root)))

/-! ## Paths (06 R120 to R124) -/

/-- How an access uses its entry (19 R381). -/
inductive Probe where
  | read
  | write
  | fetch
  | atomic
  deriving DecidableEq, Repr

def Probe.writes : Probe → Bool
  | .write => true
  | .atomic => true
  | _ => false

/-- Must-be-zero bits of a path (06 Table 6-1). -/
def pathMbz (p ea : Nat) : Nat :=
  if p = 1 then bits ea 59 40 else if p = 3 then bits ea 59 30 else bits ea 59 48

/-- The index of the t-th set bit below `n`, if there is one. -/
def nthSet (mask : Nat) : Nat → Nat → Nat → Option Nat
  | 0, _, _ => none
  | n + 1, k, t =>
    if mask.testBit k then (if t = 0 then some k else nthSet mask n (k + 1) (t - 1)) else nthSet mask n (k + 1) t

/-- The physical slot of logical buffer die k, 0x1F beyond NBUF (06 Table 6-4). -/
def Partition.bufferSlot (p : Partition) (k : Nat) : Nat := bits p.dremap.toNat (5 * k + 4) (5 * k)

def Partition.nbuf (p : Partition) : Nat := bits p.dremap.toNat 43 40

/-- The t-th usable slice of a buffer die (06 R122); one that failed at run time keeps its numbering (22 R419). -/
def State.bufferUnit (s : State) (slot t : Nat) : Option Nat :=
  nthSet ((s.lostDies.getD slot (s.diecell[slot % 32]'(Nat.mod_lt _ (by decide)))).toNat % 2 ^ 16) 16 0 t

/-- Where a comb name leads: a byte of a slice, or a byte of the slice of an exited cell (06 R132), or a code of
06 Table 6-2. `gang` is the issuer's gang; a control core has none. -/
inductive CombLoc where
  | at_ (loc : Nat)
  | exited
  | code (c : Nat)
  deriving DecidableEq, Repr

def State.combLoc (s : State) (part : Nat) (gang : Option Nat) (ea : Nat) : CombLoc :=
  let d := bits ea 39 35
  let t := bits ea 34 30
  let off := bits ea 29 0
  if d < 14 then
    let n := ((gang.bind s.gang?).map (·.ncells)).getD 0
    if n = 0 || d > (n - 1) / 32 then .code 0x03
    else if 32 * d + t ≥ n then .code 0x04
    else match gang.bind (fun g => s.cell? (cellKey g (32 * d + t))) with
      | some c =>
        if off ≥ c.ctype.sliceSize then .code 0x05
        else if c.gone then .exited
        else .at_ (sliceLoc (unitKey c.slot c.unit) off)
      | none => .exited
  else if d < 16 || 24 ≤ d then .code 0x03
  else if d - 16 ≥ (s.part part).nbuf then .code 0x03
  else
    let slot := (s.part part).bufferSlot (d - 16)
    match s.bufferUnit slot t with
    | none => .code 0x04
    | some u => if off ≥ bufferSliceSize then .code 0x05 else .at_ (sliceLoc (unitKey slot u) off)

/-- The comb name of an own-slice or comb address (07 R148). -/
def combName (cell : Nat) (ea : Nat) : Nat :=
  if bits ea 63 60 = 3 then
    let c := indexOfCell cell
    2 ^ 60 + (c / 32) * 2 ^ 35 + (c % 32) * 2 ^ 30 + bits ea 29 0
  else ea

/-- Where a comb or own-slice access of an agent leads; `code 0x07` for an own-slice access of a control core. -/
def State.sliceTarget (s : State) (ag : Agent) (ea : Nat) : CombLoc :=
  if bits ea 63 60 = 3 then
    match ag.cell? with
    | none => .code 0x07
    | some k =>
      match s.cell? k with
      | some c =>
        if bits ea 29 0 ≥ c.ctype.sliceSize then .code 0x05
        else if c.gone then .exited else .at_ (sliceLoc (unitKey c.slot c.unit) (bits ea 29 0))
      | none => .exited
  else s.combLoc (s.agentPart ag) ag.gang? ea

/-- The code of the issue-stage checks of 06 Table 6-2, the lowest that applies; 0 for none. -/
def State.pathCode (s : State) (ag : Agent) (ea : Word) (w : Nat) (write : Bool) : Nat :=
  let a := ea.toNat
  let p := bits a 63 60
  let align := if a % w = 0 then 0 else 0x0B
  if p > 5 then 0x01
  else if pathMbz p a ≠ 0 then 0x02
  else if p = 1 || p = 3 then
    match s.sliceTarget ag a with
    | .code c => c
    | _ => align
  else if p = 2 && write then 0x06
  else align

/-! ## Translation (19) -/

/-- The size in bytes of a leaf entry (19 Table 19-1). -/
def leafSize (leaf : Word) : Nat :=
  match bits leaf.toNat 62 61 with
  | 0 => 0x1000
  | 1 => 0x10000
  | 2 => 0x200000
  | _ => 0x40000000

def PageEntry.size (e : PageEntry) : Nat := leafSize e.leaf
def PageEntry.mtype (e : PageEntry) : Nat := bits e.leaf.toNat 60 59
def PageEntry.covers (e : PageEntry) (va : Nat) : Bool := decide (e.base ≤ va) && decide (va < e.base + e.size)
def PageEntry.pa (e : PageEntry) (va : Nat) : Nat := bits e.leaf.toNat 47 12 * 2 ^ 12 + (va - e.base)

def findEntry (es : List PageEntry) (va : Nat) : Option PageEntry := es.find? (·.covers va)

/-- The entries that translate on a die: those of its replica of the partition's table (19 R376). A die that has dropped its
replica has the same translations as any other (19 R378): a gang that is still resident there runs on (01 R22, log 111). -/
def State.replica (s : State) (part slot : Nat) : List PageEntry :=
  (((s.part part).replicas.find? slot).map (·.entries)).getD (s.part part).entries

/-- The slot of the die that issues an agent's accesses (01 R445). -/
def State.agentSlot (s : State) (ag : Agent) : Nat :=
  ((ag.cell?.bind s.cell?).map (·.slot)).getD 0

/-- The check of 19 Table 19-3 that fails first; 0 for none. -/
def xlatCode (e : Option PageEntry) (user : Bool) (pr : Probe) : Nat :=
  match e with
  | none => 0x01
  | some e =>
    let l := e.leaf
    if pr = .fetch && !e.granted then 0x01
    else if user && !l.getLsbD 54 then 0x06
    else if (pr = .read || pr = .atomic) && !l.getLsbD 58 then 0x04
    else if pr.writes && !l.getLsbD 57 then 0x05
    else if l.getLsbD 53 && !l.getLsbD 52 then 0x02
    else if pr.writes && l.getLsbD 53 && !l.getLsbD 51 then 0x03
    else 0

/-- Replayable translation codes (19 Table 19-3). -/
def xlatReplayable (code : Nat) : Bool := code == 1 || code == 2 || code == 3

/-- The TLB entry that covers an address for an agent: its cell's, then that of its die (19 R379). -/
def State.cached (s : State) (ag : Agent) (va : Nat) : Option PageEntry :=
  match (ag.cell?.bind s.cell?).bind (fun c => findEntry c.tlb va) with
  | some e => some e
  | none => findEntry (((s.dieTlb.getD (s.agentSlot ag) []).filter (fun e => e.1 == s.agentPart ag)).map (·.2)) va

/-- An entry is an upgrade of an older one (19 R382): the same base, size, frame and type, no permission, U or TAG removed,
AT unchanged or cleared, A and D kept or set. -/
def PageEntry.upgrades (e old : PageEntry) : Bool :=
  let same : Word := 0xF800FFFFFFFFF000#64
  let kept : Word := 0x07D8000000000000#64
  e.base == old.base && e.leaf &&& same == old.leaf &&& same && (old.leaf &&& kept) &&& ~~~e.leaf == 0 &&
    (old.leaf.getLsbD 53 || !e.leaf.getLsbD 53)

/-- The entry that decides a translation: the replica's, but where a cached one whose checks pass has been downgraded since,
which goes on serving (19 R379, R380, R383). -/
def State.lookup (s : State) (ag : Agent) (user : Bool) (va : Nat) (pr : Probe) : Option PageEntry :=
  let now := findEntry (s.replica (s.agentPart ag) (s.agentSlot ag)) va
  match s.cached ag va with
  | some e => if xlatCode (some e) user pr = 0 && !now.any (·.upgrades e) then some e else now
  | none => now

def PageEntry.meets (e x : PageEntry) : Bool := overlap e.base e.size x.base x.size

/-- Entries of the TLBs of a cell and of a die (19 R379). -/
def cellTlbSize : Nat := 64
def dieTlbSize : Nat := 4096

/-- An entry enters the TLBs of the agent's cell and die: what it overlaps goes, and then the oldest (log 10). -/
def State.fillTlb (s : State) (ag : Agent) (e : PageEntry) : State :=
  let put (es : List PageEntry) : List PageEntry :=
    if es.contains e then es else (e :: es.filter (fun x => !x.meets e)).take cellTlbSize
  let s := match ag.cell? with
    | some k => s.modCell k (fun c => { c with tlb := put c.tlb })
    | none => s
  let d := s.dieTlb.getD (s.agentSlot ag) []
  let p := s.agentPart ag
  let d' := ((p, e) :: d.filter (fun x => !(x.1 == p && x.2.meets e))).take dieTlbSize
  if d.contains (p, e) then s else { s with dieTlb := s.dieTlb.insert (s.agentSlot ag) d' }

/-- A translation that passes its checks fills the TLBs with its entry. -/
def State.touch (s : State) (ag : Agent) (user : Bool) (va : Nat) (pr : Probe) : State :=
  match s.lookup ag user va pr with
  | some e => if xlatCode (some e) user pr = 0 then s.fillTlb ag e else s
  | none => s

/-- Whether a path accepts a memory type (06 Table 6-5). -/
def pathAccepts (path mtype : Nat) (write : Bool) : Bool :=
  match path, mtype with
  | 0, 0 => true
  | 0, 1 => !write
  | 2, 0 => !write
  | 2, 1 => !write
  | 5, 1 => true
  | 4, 2 => true
  | _, _ => false

/-- The host port that an agent's host accesses travel over (06 R128). -/
def State.agentPort (s : State) (ag : Agent) : Bool :=
  let viaLaunch (l : Option Nat) : Option Bool := (l.bind s.launches.find?).map (·.port)
  let l := match ag with
    | .core k => (s.core k).launch
    | ag => (ag.gang?.bind s.gang?).bind (·.launch)
  (viaLaunch l).getD (s.part (s.agentPart ag)).layout.port

/-- A switch die is active (01 R23). -/
def State.switchUp (s : State) : Bool :=
  bits (s.diemix[27]).toNat 7 6 == 1 || bits (s.diemix[28]).toNat 7 6 == 1

/-- An access from a cell of one cluster to a target of the other finds no active switch die (01 R23, R445). -/
def State.cannotCross (s : State) (fromSlot toSlot : Nat) : Bool :=
  let a := slotCluster fromSlot
  let b := slotCluster toSlot
  decide (a < 2) && decide (b < 2) && decide (a ≠ b) && !s.switchUp

/-- The slot that carries the stack of an HBM address (01 R445). -/
def hbmSlot (pa : Nat) : Nat := 17 + (pa / 2 ^ 36) / 2

/-- What an access meets after its issue-stage checks. -/
inductive Resolved where
  /-- The place in `State.mem`; none in the slice of an exited cell. -/
  | place (loc : Option Nat)
  | pathFault (code : Nat)
  | xlatFault (code : Nat)
  deriving DecidableEq, Repr

/-- Resolve an address that has passed its issue-stage checks (06 R122 to R128, 19 R381). -/
def State.resolve (s : State) (ag : Agent) (user : Bool) (ea : Word) (pr : Probe) : Resolved :=
  let a := ea.toNat
  let p := bits a 63 60
  if p = 1 || p = 3 then
    match s.sliceTarget ag a with
    | .code c => .pathFault c
    | .exited => .place none
    | .at_ l =>
      if p = 1 && s.cannotCross (s.agentSlot ag) ((l - 2 ^ 49) / 2 ^ 30 / 32) then .pathFault 0x0A else .place (some l)
  else
    let va := bits a 47 0
    let e := s.lookup ag user va pr
    let c := xlatCode e user pr
    if c ≠ 0 then .xlatFault c
    else match e with
      | none => .xlatFault 0x01
      | some e =>
        if !pathAccepts p e.mtype pr.writes then .pathFault 0x08
        else if p = 4 then
          if (s.portUp[(s.agentPort ag).toNat]'(by cases s.agentPort ag <;> decide)) then .place (some (hostLoc (e.pa va)))
          else .pathFault 0x09
        else if s.cannotCross (s.agentSlot ag) (hbmSlot (e.pa va)) then .pathFault 0x0A
        else .place (some (e.pa va))

/-- The path checks and the resolution together, for an engine, the stream controller or a device agent. -/
def State.access (s : State) (ag : Agent) (user : Bool) (ea : Word) (w : Nat) (pr : Probe) : Resolved :=
  let c := s.pathCode ag ea w pr.writes
  if c ≠ 0 then .pathFault c else s.resolve ag user ea pr

/-- The pieces of a span: it is cut where a page or slice may end, at multiples of 4,096. -/
def spanPieces (a : Nat) : Nat → Nat → List (Nat × Nat)
  | 0, _ => []
  | _, 0 => []
  | fuel + 1, len =>
    let n := min len (4096 - a % 4096)
    (a, n) :: spanPieces (a + n) fuel (len - n)

/-- The fault ends what meets it, with no replay. -/
def Resolved.fatal : Resolved → Bool
  | .place _ => false
  | .pathFault _ => true
  | .xlatFault c => !xlatReplayable c

/-- The places of the bytes of a span, in order, or its first fault with the address: a fatal one before a replayable one
(09 R213). Control paths and translation are checked for every piece. -/
def State.span (s : State) (ag : Agent) (user : Bool) (ea : Word) (len : Nat) (pr : Probe) :
    Except (Word × Resolved) (List (Option Nat × Nat)) :=
  (spanPieces ea.toNat (len / 4096 + 2) len).foldr (fun pc acc =>
    let a := BitVec.ofNat 64 pc.1
    match s.access ag user a 1 pr with
    | .place l =>
      match acc with
      | .ok ls => .ok ((l, pc.2) :: ls)
      | .error e => .error e
    | r =>
      match acc with
      | .ok _ => .error (a, r)
      | .error e => if e.2.fatal && !r.fatal then .error e else .error (a, r)) (.ok [])

/-- The bytes of places; the slice of an exited cell reads 0 (06 R132). -/
def State.readPlaces (s : State) (ls : List (Option Nat × Nat)) : List Byte :=
  ls.flatMap (fun p => match p.1 with
    | some l => readBytes s.mem l p.2
    | none => List.replicate p.2 0)

/-! ### The read-only caches (06 R127) -/

/-- The line of a die's read-only cache that holds a place. -/
def roLine (slot loc : Nat) : Nat := slot * 2 ^ 48 + loc / 64

/-- A byte as a die's read-only path gives it: from the cache, which may hold an older value, or from memory. -/
def State.roByte (s : State) (slot loc : Nat) : Byte :=
  match s.roCache.find? (roLine slot loc) with
  | some l => l.getD (loc % 64) 0
  | none => readByte s.mem loc

/-- The bytes of places as a path gives them. -/
def State.readPath (s : State) (slot path : Nat) (ls : List (Option Nat × Nat)) : List Byte :=
  if path = 2 then
    ls.flatMap (fun p => match p.1 with
      | some l => (List.range p.2).map (fun i => s.roByte slot (l + i))
      | none => List.replicate p.2 0)
  else s.readPlaces ls

/-- A read brings its line into the cache. -/
def State.fillRo (s : State) (slot loc : Nat) : State :=
  if (s.roCache.find? (roLine slot loc)).isSome then s
  else { s with roCache := s.roCache.insert (roLine slot loc) (readBytes s.mem (loc / 64 * 64) 64) }

/-- The lines of a span leave the cache. -/
def State.dropRo (s : State) (slot loc len : Nat) : State :=
  { s with roCache := s.roCache.filter (fun l => !(decide (roLine slot loc ≤ l.1) && decide (l.1 ≤ roLine slot (loc + len - 1)))) }

/-- The whole cache of a die is invalidated. -/
def State.clearRo (s : State) (slot : Nat) : State := { s with roCache := s.roCache.filter (fun l => l.1 / 2 ^ 48 != slot) }

/-- The slot of the die that holds a place; none for host memory. -/
def dieOf (loc : Nat) : Option Nat :=
  if loc < 2 ^ 48 then some (hbmSlot loc) else if loc < 2 ^ 49 then none else some ((loc - 2 ^ 49) / 2 ^ 35)

/-- The place lies on a buffer die that failed at run time (22 R419). -/
def State.onLostDie (s : State) (loc : Nat) : Bool :=
  match dieOf loc with
  | some d => (s.lostDies.find? d).isSome
  | none => false

/-- A place holds poison (22 R416), or lies on a lost die: every access there consumes poison (22 R419). -/
def State.poisoned (s : State) (loc len : Nat) : Bool :=
  s.onLostDie loc || s.poison.any (fun p => decide (loc / 8 ≤ p.1) && decide (p.1 ≤ (loc + len - 1) / 8))

def State.placesPoisoned (s : State) (ls : List (Option Nat × Nat)) : Bool :=
  ls.any (fun p => match p.1 with
    | some l => p.2 != 0 && s.poisoned l p.2
    | none => false)

/-- A write that covers an aligned 8-byte unit whole clears its poison (22 R416). -/
def State.clearPoison (s : State) (loc len : Nat) : State :=
  { s with poison := s.poison.filter (fun p => !(decide (loc ≤ 8 * p.1) && decide (8 * p.1 + 8 ≤ loc + len))) }

/-- A write of a whole unit leaves nothing of an upset of it (22 R415). -/
def State.clearUpsets (s : State) (loc len : Nat) : State :=
  { s with upsets := s.upsets.filter (fun u => !(decide (loc ≤ 8 * u) && decide (8 * u + 8 ≤ loc + len))) }

/-- Write bytes at a place; a write to a unit that it covers whole clears that unit's poison. -/
def State.putBytes (s : State) (loc : Nat) (bs : List Byte) : State :=
  { (s.clearUpsets loc bs.length).clearPoison loc bs.length with mem := writeBytes s.mem loc bs }

/-- A write of part of a poisoned unit consumes the poison (22 R416). -/
def State.partialPoison (s : State) (loc len : Nat) : Bool :=
  s.onLostDie loc || s.poison.any (fun p => decide (loc / 8 ≤ p.1) && decide (p.1 ≤ (loc + len - 1) / 8) &&
    !(decide (loc ≤ 8 * p.1) && decide (8 * p.1 + 8 ≤ loc + len)))

/-- Some of the places lie on a die that failed. -/
def State.placesLost (s : State) (ls : List (Option Nat × Nat)) : Bool := ls.any (fun p => p.1.any s.onLostDie)

/-- Write bytes over places; bytes that fall in the slice of an exited cell are discarded (06 R132). -/
def State.writePlaces (s : State) : List (Option Nat × Nat) → List Byte → State
  | [], _ => s
  | (some l, n) :: rest, bs => (s.putBytes l (bs.take n)).writePlaces rest (bs.drop n)
  | (none, n) :: rest, bs => s.writePlaces rest (bs.drop n)

/-! ## Marks, tags -/

def State.marked (s : State) (loc : Nat) : Bool := (s.marks.find? (loc / 64)).isSome

def State.setMark (s : State) (loc : Nat) (m : Bool) : State :=
  { s with marks := if m then s.marks.insert (loc / 64) 1 else s.marks.remove (loc / 64) }

/-- A write meets a hardware-maintained byte of a marked line: bits 127:0 or 511:192 (07 R151). -/
def State.hitsObject (s : State) (loc len : Nat) : Bool :=
  decide (2 ^ 49 ≤ loc) && (List.range len).any (fun i =>
    s.marked (loc + i) && (decide ((loc + i) % 64 < 16) || decide (24 ≤ (loc + i) % 64)))

def State.tagV (s : State) (loc : Nat) : Bool := (s.tags.getD (loc / 4096) 0).testBit 0
def State.tagC (s : State) (loc : Nat) : Bool := (s.tags.getD (loc / 4096) 0).testBit 1

def State.setTag (s : State) (loc : Nat) (v c : Bool) : State :=
  let x := v.toNat + 2 * c.toNat
  { s with tags := if x = 0 then s.tags.remove (loc / 4096) else s.tags.insert (loc / 4096) x }

/-! ## Interrupts and partition stops -/

def State.interrupt (s : State) (port : Bool) (vector : Nat) (data : Word) : State :=
  { s with interrupts := { port, vector, data } :: s.interrupts }

/-- A queue-error interrupt, with EN of the queue cleared (17 R328, R329, R332). -/
def State.queueError (s : State) (n : Nat) : State :=
  let cfg := s.wqcfg.getD n 0
  let p := bits cfg.toNat 59 57
  { s.interrupt (cfg.getLsbD 56) (4 * p + 1) (BitVec.ofNat 64 n) with
    wqcfg := s.wqcfg.insert n (cfg &&& ~~~(1#64 <<< 63)) }

/-- PFATAL (18 Table 18-4). -/
def packPfatal (cause part kind code gid cell : Nat) (cc : Bool) : Word :=
  BitVec.ofNat 64 (2 ^ 63 + cause * 2 ^ 61 + part * 2 ^ 58 + kind % 256 * 2 ^ 48 + code % 256 * 2 ^ 40 + gid % 1024 * 2 ^ 30 +
    cell % 512 * 2 ^ 21 + cc.toNat * 2 ^ 20)

/-- A partition stop: PFATAL is latched and both ports are interrupted (18 R351, R352). -/
def State.stopPartition (s : State) (p : Nat) (cause : Nat) (r : TrapRecord) : State :=
  let pt := s.part p
  if pt.stopped then s
  else
    let s := s.setPart p { pt with
      stopped := true
      pfatal := packPfatal cause p r.kind r.code r.gid r.cell r.cc }
    (s.interrupt false (4 * p) 0).interrupt true (4 * p) 0

/-- A trap in root firmware stops every partition, with the partition-stop interrupts of each, and the package
(18 R352, 23 R429). -/
def State.stopPackage (s : State) (r : TrapRecord) : State :=
  let s := (List.range 8).foldl (fun s p => if (s.part p).formed then s.stopPartition p 0 r else s)
    { s with pkgstat := s.pkgstat ||| 1 }
  (s.interrupt false 32 0).interrupt true 32 0

/-! ## The trap queue (18 R349 to R351) -/

def TrapClass.code : TrapClass → Nat
  | .replayable => 0
  | .fatal => 1
  | .event => 2

/-- A trap record as 64 bytes; RSEQ is the value of TAIL when it is written (18 Table 18-3). -/
def TrapRecord.low24 (r : TrapRecord) : Nat :=
  1 + r.eng.toNat * 2 ^ 4 + r.sq.toNat * 2 ^ 5 + r.cls.code * 2 ^ 6 + r.kind % 256 * 2 ^ 8 + r.code % 256 * 2 ^ 16

def TrapRecord.pack (r : TrapRecord) (rseq : BitVec 32) : Nat :=
  r.low24 + rseq.toNat * 2 ^ 128 + r.cc.toNat * 2 ^ 182 + r.cell % 512 * 2 ^ 183 + r.gid % 1024 * 2 ^ 192 +
    r.queue % 65536 * 2 ^ 208 + r.seq.toNat * 2 ^ 224 + r.info.toNat * 2 ^ 256 + r.cyc.toNat * 2 ^ 320 +
    r.pc.toNat * 2 ^ 384 + r.addr.toNat * 2 ^ 448

def Partition.trapSpace (p : Partition) : Nat := 256 - (p.tqtail - p.tqhead).toNat

def Partition.trapEnabled (p : Partition) : Bool := p.tqcfg.getLsbD 63

/-- The ring entry of a record number: path 0x0 (18 R349). -/
def Partition.trapEntry (p : Partition) (k : Nat) : Word :=
  BitVec.ofNat 64 (bits p.tqcfg.toNat 47 14 * 2 ^ 14 + 64 * (k % 256))

/-- The translation of a device agent's access at supervisor level, made on the control die. An access to a die that has
failed faults, since it consumes poison there (22 R419). -/
def State.deviceSpan (s : State) (part : Nat) (ea : Word) (len : Nat) (pr : Probe) :
    Option (List (Option Nat × Nat)) :=
  let piece (a : Nat) : Option Nat :=
    let path := bits a 63 60
    if (path ≠ 0 && path ≠ 4) || bits a 59 48 ≠ 0 then none
    else match findEntry (s.replica part 0) (bits a 47 0) with
      | none => none
      | some e =>
        if xlatCode (some e) false pr ≠ 0 || !pathAccepts path e.mtype pr.writes then none
        else
          let l := if path = 4 then hostLoc (e.pa (bits a 47 0)) else e.pa (bits a 47 0)
          if s.onLostDie l then none else some l
  (spanPieces ea.toNat (len / 4096 + 2) len).foldr (fun pc acc =>
    match piece pc.1, acc with
    | some l, some ls => some ((some l, pc.2) :: ls)
    | _, _ => none) (some [])

/-- Write a record to the ring and increment TAIL; a write that faults stops the partition (18 R350, R351). -/
def State.writeRecord (s : State) (p : Nat) (r : TrapRecord) : State :=
  let pt := s.part p
  match s.deviceSpan p (pt.trapEntry pt.tqtail.toNat) 64 .write with
  | none => s.stopPartition p 3 r
  | some ls =>
    let s := s.writePlaces ls (leBytes 64 (r.pack pt.tqtail))
    s.setPart p { s.part p with tqtail := pt.tqtail + 1 }

/-- The trap, marked as held or not if the record is its own. -/
def Trap.mark (t : Trap) (r : TrapRecord) (h : Bool) : Trap := if t.record = r then { t with held := h } else t

/-- Mark the trap of a cell or core as held, or not (18 Table 18-5, TSTAT.HELD). -/
def State.setHeld (s : State) (p : Nat) (r : TrapRecord) (h : Bool) : State :=
  if r.cls ≠ .replayable then s
  else if r.cc then
    s.setCore r.cell { s.core r.cell with trap := (s.core r.cell).trap.map (·.mark r h) }
  else
    let mark (c : Cell) : Cell := { c with trap := c.trap.map (·.mark r h) }
    let key := cellKey (p * 1024 + r.gid) r.cell
    { s.modCell key mark with parked := s.parked.modify key (fun x => { x with cell := mark x.cell }) }

/-- A record of a trap that is detected in this cycle (18 R348). -/
def State.report (s : State) (p : Nat) (r : TrapRecord) : State := { s with records := s.records ++ [(p, r)] }

/-- Deliver a record: written, held, or the partition stops (18 R351). -/
def State.deliver (s : State) (p : Nat) (r : TrapRecord) : State :=
  let pt := s.part p
  match r.cls with
  | .fatal => if pt.trapEnabled && decide (1 ≤ pt.trapSpace) then s.writeRecord p r else s.stopPartition p 1 r
  | _ =>
    if pt.trapEnabled && decide (4 < pt.trapSpace) && pt.heldRecords.isEmpty then s.writeRecord p r
    else (s.setHeld p r true).setPart p { (s.setHeld p r true).part p with heldRecords := pt.heldRecords ++ [r] }

/-- The order of the records of one cycle: by GID, then by cell, control cores last (18 R348). -/
def TrapRecord.rank (r : TrapRecord) : Nat := if r.cc then 2 ^ 20 + r.cell else r.gid * 512 + r.cell

/-- Insert a record after those that do not rank above it. -/
def insertRecord (x : Nat × TrapRecord) : List (Nat × TrapRecord) → List (Nat × TrapRecord)
  | [] => [x]
  | y :: rest => if x.2.rank < y.2.rank then x :: y :: rest else y :: insertRecord x rest

/-- The cycle ends: the records of its traps are delivered, in order. -/
def State.deliverAll (s : State) : State :=
  (s.records.foldl (fun l x => insertRecord x l) []).foldl (fun s x =>
    if (s.part x.1).formed then s.deliver x.1 x.2 else s) { s with records := [] }

/-- Write held records, in detection order, while there is space (18 R351). -/
def State.drainHeld (s : State) (p : Nat) : Nat → State
  | 0 => s
  | fuel + 1 =>
    let pt := s.part p
    match pt.heldRecords with
    | [] => s
    | r :: rest =>
      if pt.live && pt.trapEnabled && decide (4 < pt.trapSpace) then
        ((((s.setPart p { pt with heldRecords := rest }).setHeld p r false).writeRecord p r).drainHeld p fuel)
      else s

/-! ## Taking a trap (18 R347) -/

/-- Program end of a control core (04 R85, R86; 17 R332): the launch is told its status and halt code. -/
def State.endProgram (s : State) (k : Nat) (status : Nat) (hcode : BitVec 16) : State :=
  let c := s.core k
  let s := match c.launch with
    | some l => s.modLaunch l (fun x =>
        { x with core := none, dndf := x.dndf || c.dndf
                 ended := match x.ended with
                   | some e => some e
                   | none => some (status, hcode) })
    | none => s
  s.setCore k { c with running := false, launch := none, priv := .user, trap := none, wait := none,
                       a := { c.a with busy := 0 } }

/-- The record of a trap raised by an agent, or by an engine command of its cell. -/
def State.trapRecord (s : State) (ag : Agent) (kind code : Nat) (cls : TrapClass) (eng : Bool) (info addr : Word) :
    TrapRecord :=
  match ag with
  | .core k =>
    let c := s.core k
    let l := c.launch.bind s.launches.find?
    { kind, code, cls, sq := false, eng, cc := true, cell := k, gid := 0, queue := (l.map (·.queue)).getD 0,
      seq := (l.map (·.seq)).getD 0, info, cyc := s.now, pc := if cls = .event then 0 else c.a.pos.pc, addr }
  | ag =>
    let k := (ag.cell?).getD 0
    let g := s.gang? (gangOfCell k)
    let pc := match ag, s.cell? k with
      | .xseq _, some c => c.x.pos.pc
      | _, some c => c.a.pos.pc
      | _, none => 0
    { kind, code, cls, sq := (match ag with | .xseq _ => true | _ => false), eng, cc := false, cell := indexOfCell k,
      gid := gidOfGang (gangOfCell k), queue := (g.map (·.queue)).getD 0, seq := (g.map (·.seq)).getD 0, info,
      cyc := s.now, pc := if cls = .event then 0 else pc, addr }

/-- A trap raised by an agent: the one way every trap is taken (18 R347, R348, R350, R351; 23 R429). Its record is delivered
at the end of the cycle. A cell stops, with its
positions as they stand; a fatal trap stops its gang; on a control core a fatal trap ends the launch program and a
replayable one stops the core; a trap at supervisor level stops the partition and one at root level the package. -/
def State.raiseTrap (s : State) (ag : Agent) (kind code : Nat) (cls : TrapClass) (info addr : Word)
    (eng : Bool := false) : State :=
  let r := s.trapRecord ag kind code cls eng info addr
  let p := s.agentPart ag
  match ag with
  | .core k =>
    match (s.core k).priv with
    | .root => s.stopPackage r
    | .supervisor => s.stopPartition p 2 r
    | .user =>
      match cls with
      | .fatal => (s.report p r).endProgram k 2 (if kind = 0x06 then BitVec.ofNat 16 info.toNat else 0)
      | .replayable => (s.setCore k { s.core k with trap := some { record := r, held := false } }).report p r
      | .event => s.report p r
  | ag =>
    let k := (ag.cell?).getD 0
    match cls with
    | .event => s.report p r
    | .replayable => (s.modCell k (fun c => { c with trap := some { record := r, held := false } })).report p r
    | .fatal =>
      ((s.modCell k (fun c => { c with trap := some { record := r, held := false } })).modGang (gangOfCell k)
        (fun g => { g with state := .stopped })).report p r

/-- INFO of kinds 0x01 and 0x04 (18 R346). -/
def wordInfo (major minor : Nat) (short : Bool) : Word := BitVec.ofNat 64 (short.toNat * 512 + major * 16 + minor)

def State.privilegeTrap (s : State) (ag : Agent) (major minor : Nat) : State :=
  s.raiseTrap ag 0x01 0 .fatal (wordInfo major minor false) 0

def State.unitAbsent (s : State) (ag : Agent) (major minor : Nat) (short : Bool := false) : State :=
  s.raiseTrap ag 0x04 0 .fatal (wordInfo major minor short) 0

def State.pathTrap (s : State) (ag : Agent) (code : Nat) (addr : Word) : State :=
  s.raiseTrap ag 0x08 code .fatal 0 addr

/-- A translation fault of an agent's own access or fetch (18 kinds 0x09 and 0x0A). -/
def State.xlatTrap (s : State) (ag : Agent) (code : Nat) (addr : Word) : State :=
  if xlatReplayable code then s.raiseTrap ag 0x09 code .replayable 0 addr
  else s.raiseTrap ag 0x0A code .fatal 0 addr

/-- The array that holds a place (22 R418). -/
def arrayOf (loc : Nat) : Nat := if loc < 2 ^ 48 then 6 else if loc < 2 ^ 49 then 9 else 0

/-- A machine check raised by an agent (22 R418). -/
def State.machineCheck (s : State) (ag : Agent) (code : Nat) (cls : TrapClass) (info addr : Word) : State :=
  s.raiseTrap ag 0x13 code cls info addr

/-! ## The frames of meanings -/

/-- An A-seq form: the agent in focus issues it if its registers are ready, and stalls otherwise (05 R93). -/
def onA (s : State) (use : List (BitVec 5)) (k : Agent → ASeq → State) : Host.Outcome State Fault Refusal :=
  match s.focus with
  | .xseq _ => .fault .wrongSequencer
  | ag =>
    if s.issuing ag then
      match s.aseq? ag with
      | some a => if a.pending use then .next s else .next (k ag a)
      | none => .fault .noAgent
    else .fault .noAgent

/-- A form of cells: a control core takes the unit-absent trap (03 R49). -/
def onCell (s : State) (use : List (BitVec 5)) (major minor : Nat) (short : Bool) (k : Nat → Cell → State) :
    Host.Outcome State Fault Refusal :=
  onA s use (fun ag _ =>
    match ag with
    | .aseq key =>
      match s.cell? key with
      | some c => k key c
      | none => s
    | ag => s.unitAbsent ag major minor short)

/-- A form of control cores: a cell takes the unit-absent trap (03 R49). -/
def onCore (s : State) (use : List (BitVec 5)) (major minor : Nat) (k : Nat → Core → State) :
    Host.Outcome State Fault Refusal :=
  onA s use (fun ag _ =>
    match ag with
    | .core n => k n (s.core n)
    | ag => s.unitAbsent ag major minor)

/-- A supervisor form: it runs at supervisor or root level on a control core, and anywhere else it takes the privilege
trap (18 R355). -/
def onSupervisor (s : State) (use : List (BitVec 5)) (major minor : Nat) (k : Nat → Core → State) :
    Host.Outcome State Fault Refusal :=
  onA s use (fun ag _ =>
    match ag with
    | .core n => if (s.core n).priv = .user then s.privilegeTrap ag major minor else k n (s.core n)
    | ag => s.privilegeTrap ag major minor)

/-- A step of the device, a host or the neighbour: it takes place when its condition holds, and otherwise leaves the
state as it is (log 3). -/
def event (guard : Bool) (s t : State) : Host.Outcome State Fault Refusal := .next (if guard then t else s)

/-- Write a register and retire an A-seq instruction of `size` bytes. -/
def State.finish (s : State) (ag : Agent) (a : ASeq) (size : Nat) : State := s.setASeq ag (a.retire size)

end Sys2Proof.Machine
end

