-- ==== Sys2Proof/Machine/Cells.lean ====
section
/-! DEFINITION. A cell at dispatch (04 R72, 05 R119, 08 R169, 17 R342). -/

namespace Sys2Proof.Machine

def XSeq.fresh (pc : Word) : XSeq :=
  { pos := Pos.entry pc, g := Vector.replicate 16 0, iO := 0, iR := 0, iM := 0, fO := 0, fA := 0, fR := 0, cO := 0, cR := 0,
    cf := false, wcol := false, tcol := false, moves := [], ops := [], frozen := [], issued := false, idle := 0 }

def Lane.closed : Lane :=
  { opened := false, op := 0, fmt := 0, count := 0, rows := 0, staging := 0, dest := 0, arrived := [], poisoned := [] }

def Tile.clear : Tile :=
  { sat := false, partialK := false, cv := false, cm := 0, cn := 0, nf := false, muR := [], muC := [] }

/-- A cell as its first words find it. -/
def Cell.fresh (ctype : CellType) (slot unit : Nat) (a x : Word) (mb : Vector Word 16) : Cell :=
  { ctype, role := 0, r := 0, nR := 1, slot, unit, gone := false, a := ASeq.fresh a mb, x := XSeq.fresh x, bqax := [], bqxa := [],
    lq := Vector.replicate 4 { head := 0, slots := [] }, sq := Vector.replicate 4 { head := 0, entries := [] },
    cc := Vector.replicate 32 0, csw := Vector.replicate 32 0, cmds := [], nextCmd := 0, declared := 0, banks := 0, elems := [],
    poisonElems := [], upsetElems := [], tiles := [], epilogue := Vector.replicate 4 none, shapes := Vector.replicate 4 none, masks := [],
    mdi := 0, fpc := Vector.replicate 24 0, lanes := Vector.replicate 16 Lane.closed, walk := 0, first := 0,
    count := 0, schmiss := 0, dndf := false, bars := 0, waiting := none, asElastic := false, until_ := none, trap := none,
    emuCtl := 0, emu := Vector.replicate 4 0, halted := false }

end Sys2Proof.Machine
end

