-- ==== Sys2Proof/Machine/Commands.lean ====
section
/-! DEFINITION. What the engine-command forms have in common: their flags, opcodes, queues, stamps and captured registers
(03 R50, R51; 08 R182; 18 R354). Forms that are no engine commands have none of these. -/

/-- The common fields of an engine command. -/
def Sys2Proof.Instr.flags : Sys2Proof.Instr → Sys2Proof.EngineFlags
  | .mxmm e _ _ _ _ _ _ _ _ _ _ _ _ => e
  | .mxld e _ _ _ _ _ _ _ => e
  | .mxclr e _ _ _ => e
  | .mxmma e _ _ _ _ _ _ _ => e
  | .mxmv e _ _ _ _ => e
  | .mxmark e => e
  | .mxmarkStamped e _ _ => e
  | .mxdrn e _ _ _ _ _ _ _ _ => e
  | .mxepl e _ _ => e
  | .mxcks e _ => e
  | .mxdrs e _ _ _ _ _ _ => e
  | .mxshp e _ _ => e
  | .mxcv e _ _ _ _ _ _ _ _ _ _ => e
  | .vadd e _ _ _ _ _ _ _ => e
  | .vsub e _ _ _ _ _ _ _ => e
  | .vmul e _ _ _ _ _ _ _ => e
  | .vdiv e _ _ _ _ _ _ _ => e
  | .vfma e _ _ _ _ _ _ _ _ => e
  | .vmin e _ _ _ _ _ => e
  | .vmax e _ _ _ _ _ => e
  | .vsqrt e _ _ _ _ _ _ => e
  | .vsgn e _ _ _ _ _ _ => e
  | .vcmp e _ _ _ _ _ _ => e
  | .vrsc e _ _ _ _ _ _ _ _ => e
  | .vrst e _ _ _ _ _ _ => e
  | .viadd e _ _ _ _ _ _ => e
  | .visub e _ _ _ _ _ _ => e
  | .vimul e _ _ _ _ _ _ _ => e
  | .vilog e _ _ _ _ _ _ => e
  | .vishf e _ _ _ _ _ _ => e
  | .vicmp e _ _ _ _ _ _ => e
  | .vsel e _ _ _ _ _ _ => e
  | .vcvt e _ _ _ _ _ _ _ _ _ => e
  | .vred e _ _ _ _ _ _ => e
  | .vdot e _ _ _ _ _ _ => e
  | .vscan e _ _ _ _ _ _ => e
  | .vbcast e _ _ _ _ => e
  | .mpush e _ => e
  | .minv e => e
  | .mpop e => e
  | .tfn e _ _ _ _ _ _ => e
  | .tfnx e _ _ _ _ _ _ _ _ => e
  | .tver e _ => e
  | .tvchk e _ => e
  | .cpy e _ _ _ _ _ _ _ => e
  | .cpy2 e _ _ _ _ _ _ _ _ => e
  | .cfill e _ _ _ _ _ _ _ => e
  | .cpym e _ _ _ _ _ _ _ _ => e
  | .cpym2 e _ _ _ _ _ _ _ _ _ => e
  | .ccrc e _ _ _ _ _ _ => e
  | .gth e _ _ _ _ _ => e
  | .sct e _ _ _ _ _ _ _ => e
  | .gred e _ _ _ _ _ _ _ _ => e
  | .topk e _ _ _ _ _ _ _ => e
  | .psort e _ _ _ _ _ _ _ => e
  | .gscan e _ _ _ _ _ _ _ => e
  | .ghist e _ _ _ _ _ => e
  | .rndh e _ _ _ _ _ => e
  | .lred e _ _ _ _ => e
  | .lopen e _ _ _ _ _ => e
  | .lord e _ _ _ => e
  | .lwag e _ _ _ _ => e
  | _ => { ce := false, cnt := 0, acq := false, rel := false, scope := 0, tag := false }

/-- Major and minor of an engine command (03 Table 3-2). -/
def Sys2Proof.Instr.opcode : Sys2Proof.Instr → Nat × Nat
  | .mxmm .. => (0x0f, 0x0)
  | .mxld .. => (0x0f, 0x1)
  | .mxclr .. => (0x0f, 0x2)
  | .mxmma .. => (0x0f, 0x3)
  | .mxmv .. => (0x0f, 0x4)
  | .mxmark .. => (0x0f, 0x5)
  | .mxmarkStamped .. => (0x0f, 0x5)
  | .mxdrn .. => (0x10, 0x0)
  | .mxepl .. => (0x10, 0x1)
  | .mxcks .. => (0x10, 0x2)
  | .mxdrs .. => (0x10, 0x3)
  | .mxshp .. => (0x11, 0x0)
  | .mxcv .. => (0x11, 0x1)
  | .vadd .. => (0x12, 0x0)
  | .vsub .. => (0x12, 0x1)
  | .vmul .. => (0x12, 0x2)
  | .vdiv .. => (0x12, 0x6)
  | .vfma .. => (0x12, 0x3)
  | .vmin .. => (0x12, 0x4)
  | .vmax .. => (0x12, 0x5)
  | .vsqrt .. => (0x12, 0x7)
  | .vsgn .. => (0x12, 0x8)
  | .vcmp .. => (0x12, 0x9)
  | .vrsc .. => (0x12, 0xa)
  | .vrst .. => (0x12, 0xb)
  | .viadd .. => (0x13, 0x0)
  | .visub .. => (0x13, 0x1)
  | .vimul .. => (0x13, 0x2)
  | .vilog .. => (0x13, 0x3)
  | .vishf .. => (0x13, 0x4)
  | .vicmp .. => (0x13, 0x5)
  | .vsel .. => (0x13, 0x6)
  | .vcvt .. => (0x13, 0x7)
  | .vred .. => (0x14, 0x0)
  | .vdot .. => (0x14, 0x1)
  | .vscan .. => (0x14, 0x2)
  | .vbcast .. => (0x14, 0x3)
  | .mpush .. => (0x15, 0x0)
  | .minv .. => (0x15, 0x1)
  | .mpop .. => (0x15, 0x2)
  | .bmz .. => (0x15, 0x3)
  | .tfn .. => (0x16, 0x0)
  | .tfnx .. => (0x16, 0x1)
  | .tver .. => (0x16, 0x2)
  | .tvchk .. => (0x16, 0x3)
  | .cpy .. => (0x17, 0x0)
  | .cpy2 .. => (0x17, 0x1)
  | .cfill .. => (0x17, 0x2)
  | .cpym .. => (0x17, 0x3)
  | .cpym2 .. => (0x17, 0x4)
  | .ccrc .. => (0x17, 0x5)
  | .gth .. => (0x18, 0x0)
  | .sct .. => (0x18, 0x1)
  | .gred .. => (0x18, 0x2)
  | .topk .. => (0x19, 0x0)
  | .psort .. => (0x19, 0x1)
  | .gscan .. => (0x19, 0x2)
  | .ghist .. => (0x19, 0x3)
  | .rndh .. => (0x19, 0x4)
  | .lred .. => (0x1a, 0x0)
  | .lopen .. => (0x1a, 0x1)
  | .lord .. => (0x1a, 0x2)
  | .lwag .. => (0x1a, 0x3)
  | .mpopShort => (0x15, 0x2)
  | .minvShort => (0x15, 0x1)
  | _ => (0, 0)

/-- The queue of an engine command (18 R354): 0 matrix, 1 vector, 2 table, 3 gather, 4 copy, 5 link. -/
def Sys2Proof.Instr.engineQueue (i : Sys2Proof.Instr) : Nat :=
  let m := i.opcode.1
  if m ≤ 0x11 then 0 else if m ≤ 0x15 then 1 else if m = 0x16 then 2 else if m = 0x17 then 4 else if m ≤ 0x19 then 3 else 5

/-- The stamp mode of an engine command: 0 none, 1 timed, 2 elastic (09 R201, 16 R317). -/
def Sys2Proof.Instr.stampMode : Sys2Proof.Instr → Nat
  | .mxmm _ _ _ _ _ tm _ _ _ _ _ _ _ => tm.toNat
  | .mxld _ _ _ tm _ _ _ _ => tm.toNat
  | .mxclr _ tm _ _ => tm.toNat
  | .mxmma _ _ _ tm _ _ _ _ => tm.toNat
  | .mxmv _ _ tm _ _ => tm.toNat
  | .mxmarkStamped _ tm _ => tm.toNat
  | .mxdrn _ _ _ tm _ _ _ _ _ => tm.toNat
  | .mxdrs _ _ _ tm _ _ _ => tm.toNat
  | .mxcv _ _ _ _ _ tm _ _ _ _ _ => tm.toNat
  | .cpy _ _ tm _ _ _ _ _ => tm.toNat
  | .cpy2 _ _ tm _ _ _ _ _ _ => tm.toNat
  | .cfill _ _ tm _ _ _ _ _ => tm.toNat
  | .cpym _ _ tm _ _ _ _ _ _ => tm.toNat
  | .cpym2 _ _ tm _ _ _ _ _ _ _ => tm.toNat
  | .ccrc _ _ tm _ _ _ _ => tm.toNat
  | _ => 0

/-- The registers that a command captures at issue, in the order of its argument fields (03 R51, 18 R354). -/
def Sys2Proof.Instr.captured : Sys2Proof.Instr → List (BitVec 5)
  | .mxmm _ _ _ _ _ _ sA sB sS sD sT sXA sXB => [sA, sB, sS, sD, sT, sXA, sXB]
  | .mxld _ _ _ _ sA sS sD sT => [sA, sS, sD, sT]
  | .mxclr _ _ sD sT => [sD, sT]
  | .mxmma _ _ _ _ sB sS sD sT => [sB, sS, sD, sT]
  | .mxmv _ _ _ sD sT => [sD, sT]
  | .mxmarkStamped _ _ sT => [sT]
  | .mxdrn _ _ _ _ sA sB sS sD sT => [sA, sB, sS, sD, sT]
  | .mxepl _ _ sA => [sA]
  | .mxcks _ sD => [sD]
  | .mxdrs _ _ _ _ sB sD sT => [sB, sD, sT]
  | .mxshp _ _ sA => [sA]
  | .mxcv _ _ _ _ _ _ sA sB sS sD sT => [sA, sB, sS, sD, sT]
  | .vadd _ _ _ _ sD sA sB sE => [sD, sA, sB, sE]
  | .vsub _ _ _ _ sD sA sB sE => [sD, sA, sB, sE]
  | .vmul _ _ _ _ sD sA sB sE => [sD, sA, sB, sE]
  | .vdiv _ _ _ _ sD sA sB sE => [sD, sA, sB, sE]
  | .vfma _ _ _ _ sD sA sB sC sE => [sD, sA, sB, sC, sE]
  | .vmin _ _ _ sD sA sB => [sD, sA, sB]
  | .vmax _ _ _ sD sA sB => [sD, sA, sB]
  | .vsqrt _ _ _ _ sD sA sE => [sD, sA, sE]
  | .vsgn _ _ _ _ sD sA sB => [sD, sA, sB]
  | .vcmp _ _ _ _ sD sA sB => [sD, sA, sB]
  | .vrsc _ _ _ _ sD sA sB sC sE => [sD, sA, sB, sC, sE]
  | .vrst _ _ _ _ sD sA sE => [sD, sA, sE]
  | .viadd _ _ _ _ sD sA sB => [sD, sA, sB]
  | .visub _ _ _ _ sD sA sB => [sD, sA, sB]
  | .vimul _ _ _ _ _ sD sA sB => [sD, sA, sB]
  | .vilog _ _ _ _ sD sA sB => [sD, sA, sB]
  | .vishf _ _ _ _ sD sA sB => [sD, sA, sB]
  | .vicmp _ _ _ _ sD sA sB => [sD, sA, sB]
  | .vsel _ _ _ sD sA sB sC => [sD, sA, sB, sC]
  | .vcvt _ _ _ _ _ sD sA _ sC sE => [sD, sA, sC, sE]
  | .vred _ _ _ _ sD sA sE => [sD, sA, sE]
  | .vdot _ _ _ sD sA sB sE => [sD, sA, sB, sE]
  | .vscan _ _ _ _ sD sA sE => [sD, sA, sE]
  | .vbcast _ _ _ sD sA => [sD, sA]
  | .mpush _ sA => [sA]
  | .tfn _ _ _ _ sD sA sE => [sD, sA, sE]
  | .tfnx _ _ _ _ sD sA sB sC sE => [sD, sA, sB, sC, sE]
  | .tver _ sD => [sD]
  | .tvchk _ sA => [sA]
  | .cpy _ _ _ sD sA sB sT sR => [sD, sA, sB, sT, sR]
  | .cpy2 _ _ _ sD sA sB sC sT sR => [sD, sA, sB, sC, sT, sR]
  | .cfill _ _ _ sD sB sC sT sR => [sD, sB, sC, sT, sR]
  | .cpym _ _ _ sD sA sB sT sM sR => [sD, sA, sB, sT, sM, sR]
  | .cpym2 _ _ _ sD sA sB sC sT sM sR => [sD, sA, sB, sC, sT, sM, sR]
  | .ccrc _ _ _ sA sB sT sR => [sA, sB, sT, sR]
  | .gth _ sD sA sB sC sE => [sD, sA, sB, sC, sE]
  | .sct _ _ _ sD sA sB sC sE => [sD, sA, sB, sC, sE]
  | .gred _ _ _ sD sA sB sC sE sO => [sD, sA, sB, sC, sE, sO]
  | .topk _ _ _ sD sA sB sC sE => [sD, sA, sB, sC, sE]
  | .psort _ _ _ sD sA sB sC sE => [sD, sA, sB, sC, sE]
  | .gscan _ _ _ sD sA sB sC sE => [sD, sA, sB, sC, sE]
  | .ghist _ _ _ _ sD sA => [sD, sA]
  | .rndh _ _ _ sD sA sB => [sD, sA, sB]
  | .lred _ _ _ sD sA => [sD, sA]
  | .lopen _ _ _ sD sA sB => [sD, sA, sB]
  | .lord _ _ sA sB => [sA, sB]
  | .lwag _ sA sB sC sE => [sA, sB, sC, sE]
  | _ => []

/-- The captured values in the order of the form's operands, as indexes of `captured`; operands that the form does not use are
left out (09 R204, 10 R219, 11 R246, R251, 13 R278; 18 R354). -/
def Sys2Proof.Instr.operands (i : Sys2Proof.Instr) : List Nat :=
  let stamp (k : Nat) : List Nat := if i.stampMode = 0 then [] else [k]
  let record (sR : BitVec 5) (k : Nat) : List Nat := if sR = 0 then [] else [k]
  match i with
  | .mxmm _ fmt _ _ _ _ _ _ _ _ _ _ _ => [3, 0, 1, 2] ++ stamp 4 ++ (if fmt = 6 then [5, 6] else [])
  | .mxld .. => [2, 0, 1] ++ stamp 3
  | .mxclr .. => [0] ++ stamp 1
  | .mxmma .. => [2, 0, 1] ++ stamp 3
  | .mxmv .. => [0] ++ stamp 1
  | .mxdrn .. => [3, 0, 1, 2] ++ stamp 4
  | .mxdrs .. => [1, 0] ++ stamp 2
  | .mxcv .. => [3, 0, 1, 2] ++ stamp 4
  | .vcvt _ df sf _ _ _ _ _ _ _ => if df = 9 || sf = 9 then [0, 1, 2, 3] else [0, 1, 3]
  | .cpy _ _ _ _ _ _ _ sR => [0, 1, 2] ++ record sR 4 ++ stamp 3
  | .cpy2 _ _ _ _ _ _ _ _ sR => [0, 1, 2, 3] ++ record sR 5 ++ stamp 4
  | .cfill _ _ _ _ _ _ _ sR => [0, 1, 2] ++ record sR 4 ++ stamp 3
  | .cpym _ _ _ _ _ _ _ _ sR => [0, 1, 2, 4] ++ record sR 5 ++ stamp 3
  | .cpym2 _ _ _ _ _ _ _ _ _ sR => [0, 1, 2, 3, 5] ++ record sR 6 ++ stamp 4
  | .ccrc .. => [0, 1, 3] ++ stamp 2
  | i => List.range i.captured.length
end

