-- ==== Sys2Proof/Machine/Flags.lean ====
section
/-! DEFINITION. Counters and completion status words (08 Table 8-1, R170, R171), and the other sticky flags that completions
and forms set. -/

namespace Sys2Proof.Machine

def Cell.ccOf (c : Cell) (n : BitVec 5) : BitVec 32 := c.cc[n.toNat]'(by have := n.isLt; omega)
def Cell.cswOf (c : Cell) (n : BitVec 5) : Word := c.csw[n.toNat]'(by have := n.isLt; omega)

def Cell.setCc (c : Cell) (n : BitVec 5) (v : BitVec 32) : Cell :=
  { c with cc := c.cc.set n.toNat v (by have := n.isLt; omega) }

def Cell.setCsw (c : Cell) (n : BitVec 5) (v : Word) : Cell :=
  { c with csw := c.csw.set n.toNat v (by have := n.isLt; omega) }

/-- An increment: the value saturates and OVF (bit 1) is set (08 R170). -/
def Cell.addCount (c : Cell) (n : BitVec 5) (v : Nat) : Cell :=
  let x := (c.ccOf n).toNat + v
  if x < 2 ^ 32 then c.setCc n (BitVec.ofNat 32 x)
  else (c.setCc n (BitVec.allOnes 32)).setCsw n (c.cswOf n ||| 2)

/-- A failed completion in the CSW: ERR, NERR, and the code, major and minor of the first (08 R171). -/
def cswFail (w : Word) (code major minor : Nat) : Word :=
  let nerr := bits w.toNat 31 16
  let nerr' := min (nerr + 1) 0xFFFF
  let base := (w &&& ~~~0xFFFF0000#64) ||| BitVec.ofNat 64 (nerr' * 2 ^ 16) ||| 1
  if bits w.toNat 63 56 = 0 then base ||| BitVec.ofNat 64 (code * 2 ^ 56 + major * 2 ^ 51 + minor * 2 ^ 47) else base

/-- The counter update of a completion (08 R171): status, SAT (bit 2) and CORR (bit 3), and the increment, in one update. -/
def Cell.completeCount (c : Cell) (n : BitVec 5) (failed : Option Nat) (sat corr : Bool) (major minor : Nat) : Cell :=
  let w := c.cswOf n
  let w := match failed with
    | some code => cswFail w code major minor
    | none => w
  let w := w ||| BitVec.ofNat 64 (4 * sat.toNat + 8 * corr.toNat)
  (c.setCsw n w).addCount n 1

/-- SCHMISS with one more slip (16 R319). -/
def addSlip (w slip : Word) : Word :=
  let count := min (bits w.toNat 63 32 + 1) (2 ^ 32 - 1)
  let cycles := min (bits w.toNat 31 0 + slip.toNat) (2 ^ 32 - 1)
  BitVec.ofNat 64 (count * 2 ^ 32 + cycles)

end Sys2Proof.Machine
end

