-- ==== Sys2Proof/Machine/Bindings.lean ====
section
/-! DEFINITION. Which objects a write is bound to (07 R148, R152 to R154). -/

namespace Sys2Proof.Machine

/-- The comb name of byte `off` of gang cell `c` (06 R122). -/
def combOfCell (c off : Nat) : Nat := 2 ^ 60 + (c / 32) * 2 ^ 35 + (c % 32) * 2 ^ 30 + off

/-- An address on a path of the translated space (06 R125). -/
def isTranslated (ea : Nat) : Bool := let p := bits ea 63 60; p == 0 || p == 2 || p == 4 || p == 5

/-- The name under which a byte is compared: its comb name, or its 48-bit virtual address (08 R179). -/
def compareName (cell : Nat) (ea : Nat) : Nat := if isTranslated ea then bits ea 47 0 else combName cell ea

/-- The objects that one entry binds to a span, for the cells of its role when it is a per-cell entry (07 R152). -/
def Binding.objectsOf (b : Binding) (cells : List (Nat × Cell)) (translated : Bool) (name len : Nat) : List Nat :=
  match b.perCell with
  | none => if b.translated = translated && overlap b.base b.len name len then [b.object] else []
  | some role =>
    if translated then []
    else (cells.filter (fun p => p.2.role = role && overlap (combOfCell (indexOfCell p.1) b.base) b.len name len)).map
      (fun p => combOfCell (indexOfCell p.1) b.object)

/-- Insert into an ascending list without repeats. -/
def insertAsc (x : Nat) : List Nat → List Nat
  | [] => [x]
  | y :: rest => if x < y then x :: y :: rest else if x = y then y :: rest else y :: insertAsc x rest

/-- The objects whose USER bytes a span of a slice meets (07 R154). -/
def State.userObjects (s : State) (ag : Agent) (name len : Nat) : List Nat :=
  let first := name / 64
  let last := (name + len - 1) / 64
  ((List.range (last + 1 - first)).map (fun i => (first + i) * 64)).filter (fun line =>
    overlap (line + 16) 8 name len &&
      (match s.combLoc (s.agentPart ag) ag.gang? line with
       | .at_ l => s.marked l
       | _ => false))

/-- The objects that the bytes of a span are bound to, ascending, at this moment in the agent's view (07 R154). -/
def State.boundObjects (s : State) (ag : Agent) (ea len : Nat) : List Nat :=
  match ag.gang? with
  | none => []
  | some g =>
    let t := isTranslated ea
    let name := compareName ((ag.cell?).getD 0) ea
    let fromTable := (((s.gang? g).map (·.bindings)).getD []).flatMap (fun b => b.objectsOf (s.gangCells g) t name len)
    let user := if t || len = 0 then [] else s.userObjects ag name len
    (fromTable ++ user).foldl (fun acc x => insertAsc x acc) []

end Sys2Proof.Machine
end

