-- ==== Sys2Proof/Machine/Fetch.lean ====
section
/-! DEFINITION. Fetching the word at the program counter (03 R43, R44, R48, R57, R69; 19 R379; 22 R417). -/

namespace Sys2Proof.Machine

/-- What a fetch gives: an instruction, a fetch that waits for a scan, a trap taken, or bytes that are no instruction. -/
inductive Fetched where
  | word (i : Instr)
  | wait
  | trapped (s : State)
  | undecodable
  deriving DecidableEq, Repr

/-- Walk the words of a page from its first parcel: is the parcel at offset `off` the start of a word that is no argument
word (03 R43, R44)? -/
def wordStart (m : AMap Byte) (page off : Nat) : Nat → Nat → Bool
  | 0, _ => false
  | fuel + 1, pos =>
    let hi := readLE m (page + pos) 2
    if pos = off then !(bits hi 15 10 == 0x3F)
    else if off < pos then false
    else wordStart m page off fuel (pos + (if bit hi 15 then 4 else 2))

/-- The offsets of the last of `n` words and of the end of the words, from the word at `pos` on (03 R55). -/
def walkWords (m : AMap Byte) (loc : Nat) : Nat → Nat → Nat × Nat
  | 0, pos => (pos, pos)
  | 1, pos => (pos, pos + (if bit (readLE m (loc + pos) 2) 15 then 4 else 2))
  | n + 2, pos => walkWords m loc (n + 1) (pos + (if bit (readLE m (loc + pos) 2) 15 then 4 else 2))

/-! ## The loop buffer (03 R57) -/

/-- The word stands in the body of the level. -/
def Level.holds (l : Level) (pc : Word) : Bool := decide (l.start ≤ pc) && decide (pc ≤ l.stop)

/-- The word that the loop buffer gives for the program counter: that of a body of which the first pass is over. -/
def Pos.buffered (p : Pos) : Option Instr :=
  match p.levels with
  | l :: _ =>
    if l.lx ≠ 0 && l.holds p.pc && p.bufDepth == p.levels.length then (p.buf.find? (fun w => w.1 = p.pc)).map (·.2) else none
  | [] => none

/-- The body of a level has at most 256 words, which stand at `loc`. -/
def bodyFits (m : AMap Byte) (loc : Nat) (l : Level) : Bool := decide ((l.stop - l.start).toNat ≤ (walkWords m loc 256 0).1)

/-- A word of the innermost active block enters the loop buffer; one of another level finds it empty. -/
def Pos.keepWord (p : Pos) (i : Instr) : Pos :=
  let buf := if p.bufDepth = p.levels.length then p.buf else []
  if buf.any (fun w => w.1 == p.pc) then p else { p with buf := buf ++ [(p.pc, i)], bufDepth := p.levels.length }

/-- Q and N of the body of `len` words that begins at `b` (04 R73). -/
def State.bodyEnds (s : State) (ag : Agent) (b : Word) (len : Nat) : Word × Word :=
  match s.lookup ag (decide (s.agentPriv ag = .user)) b.toNat .fetch with
  | none => (b, b)
  | some e =>
    let r := walkWords s.mem (e.pa b.toNat) len 0
    (b + BitVec.ofNat 64 r.1, b + BitVec.ofNat 64 r.2)

/-- The words of the body that a header announces. -/
def bodyLen : Instr → Option Nat
  | .blkImmediate _ l => some l.toNat
  | .blkRegister _ l => some l.toNat
  | _ => none

/-- A header that enters the loop buffer enters it with Q and N of its body. -/
def State.keepEnds (s : State) (ag : Agent) (i : Instr) (p : Pos) : Pos :=
  match bodyLen i with
  | some n => { p with bufEnds := (p.pc, s.bodyEnds ag (p.pc + 4) n) :: p.bufEnds.filter (fun w => w.1 ≠ p.pc) }
  | none => p

/-- A fetched word passes through the caches of its sequencer: its translation enters the TLBs, and it enters the loop buffer
if the body of the innermost active block, which holds it, fits. `e` is the entry of its page. -/
def State.keepFetched (s : State) (ag : Agent) (p : Pos) (i : Instr) : State × Pos :=
  if p.emu.isSome || p.buffered.isSome then (s, p)
  else
    let user := decide (s.agentPriv ag = .user)
    let e? := s.lookup ag user p.pc.toNat .fetch
    (s.touch ag user p.pc.toNat .fetch,
      match p.levels, e? with
      | l :: _, some e => if l.holds p.pc && bodyFits s.mem (e.pa l.start.toNat) l then s.keepEnds ag i (p.keepWord i) else p
      | _, _ => p)

/-- What a fetch leaves in the caches of the agent in focus (03 R57, 19 R379). -/
def State.fetched (s : State) (i : Instr) : State :=
  match s.focus with
  | .xseq k =>
    match s.cell? k with
    | none => s
    | some c =>
      let r := s.keepFetched s.focus c.x.pos i
      r.1.modCell k (fun c => { c with x := { c.x with pos := r.2 } })
  | ag =>
    match s.aseq? ag with
    | none => s
    | some a =>
      let r := s.keepFetched ag a.pos i
      match r.1.aseq? ag with
      | some a => r.1.setASeq ag { a with pos := r.2 }
      | none => r.1

/-! ## Fetch -/

/-- The bytes of the instruction whose first parcel is given: a command has its argument words with it (03 R43, R50). -/
def fetchLen (hi : Nat) : Nat :=
  if !bit hi 15 then 2 else if isEngineMajor (BitVec.ofNat 5 (bits hi 14 10)) then 4 + 4 * bits hi 9 8 else 4

/-- The bytes that an instruction at most has, up to the end of its page. -/
def fetchBytes (m : AMap Byte) (loc left : Nat) : List Byte := readBytes m loc (min 12 left)

/-- The instruction at the program counter of a sequencer. The checks come in the order of 03 R69: the path, the
translation, the word start, the tag; a word from the loop buffer meets none of them (03 R57). A page whose scan is queued behind
others, or is that of a cpatch, is one being scanned (log 10). `x` says that the sequencer is an X-seq. -/
def State.fetch (s : State) (ag : Agent) (pos : Pos) (x : Bool) : Fetched :=
  match pos.emu, pos.buffered with
  | some e, _ => .word e.instr
  | none, some i => .word i
  | none, none =>
    let pc := pos.pc
    let a := pc.toNat
    let p := bits a 63 60
    let user := decide (s.agentPriv ag = .user)
    if p > 5 then .trapped (s.pathTrap ag 0x01 pc)
    else if pathMbz p a ≠ 0 then .trapped (s.pathTrap ag 0x02 pc)
    else if p ≠ 0 then .trapped (s.pathTrap ag 0x0C pc)
    else if (s.part (s.agentPart ag)).scans.any (fun c => decide (c.base ≤ a) && decide (a < c.base + c.size)) then .wait
    else
      let e? := s.lookup ag user a .fetch
      let code := xlatCode e? user .fetch
      match e? with
      | none => .trapped (s.xlatTrap ag 0x01 pc)
      | some e =>
        if code ≠ 0 then .trapped (s.xlatTrap ag code pc)
        else if e.mtype = 2 then .trapped (s.pathTrap ag 0x08 pc)
        else if s.cannotCross (s.agentSlot ag) (hbmSlot (e.pa a)) then .trapped (s.pathTrap ag 0x0A pc)
        else
          let off := a - e.base
          if a % 2 = 1 || !wordStart s.mem (e.pa e.base) off (off / 2 + 1) 0 then
            .trapped (s.raiseTrap ag 0x02 0 .fatal 0 pc)
          else if e.leaf.getLsbD 55 != x then .trapped (s.raiseTrap ag 0x03 0 .fatal 0 pc)
          else
            let loc := e.pa a
            if s.poisoned loc 2 || s.poisoned loc (min (fetchLen (readLE s.mem loc 2)) (e.size - off)) then
              .trapped (s.machineCheck ag 0x02 .fatal (BitVec.ofNat 64 (arrayOf loc)) pc)
            else match decode (bytesToParcels (fetchBytes s.mem loc (e.size - off))) with
              | .error _ => .undecodable
              | .ok (i, _) => .word i

end Sys2Proof.Machine
end

