-- ==== Sys2Proof/Machine/Operands.lean ====
section
/-! DEFINITION. Operand forms: immediates, offsets, packed elements, the sources of mov, block counts, effective addresses
of scalar and queue accesses. -/

namespace Sys2Proof.Machine

/-! ## Immediates and targets -/

/-- A sign-extended immediate (00 R8). -/
def signed {w : Nat} (x : BitVec w) : Word := x.signExtend 64

/-- A zero-extended immediate. -/
def unsigned {w : Nat} (x : BitVec w) : Word := x.setWidth 64

/-- The target of an offset: the address of the word's first parcel plus twice the signed offset (03 R58). -/
def target {w : Nat} (pc : Word) (off : BitVec w) : Word := pc + signed off * 2

/-- The dcbnz short form reaches back 1 to 32 parcels, held as offset - 1 (03 Table 3-4). -/
def backTarget (pc : Word) (off1 : BitVec 5) : Word := pc - (unsigned off1 + 1) * 2

/-! ## Packed elements (05 R100) -/

/-- The element width that W selects (05 Table 5-7). -/
def elemWidth (w : BitVec 2) : Nat := 8 * 2 ^ w.toNat

/-- Element e of width w of a value. -/
def elem (v : Word) (w e : Nat) : Nat := (v.toNat >>> (w * e)) % 2 ^ w

/-- The value whose elements of width w are given, element 0 first. -/
def packElems (w : Nat) : List Nat → Nat
  | [] => 0
  | x :: rest => x % 2 ^ w + 2 ^ w * packElems w rest

/-- Each element of the result is computed from the elements with the same index (05 R100). -/
def packed (w : Nat) (f : Nat → Nat → Nat) (x y : Word) : Word :=
  BitVec.ofNat 64 (packElems w ((List.range (64 / w)).map (fun e => f (elem x w e) (elem y w e))))

/-! ## The sources of mov (05 Table 5-5) -/

def xstat (x : XSeq) : Word := BitVec.ofNat 64 (x.tcol.toNat + 2 * x.wcol.toNat)

/-- The value that a source class and number name; class 4 is XSTAT. -/
def movSource (a : ASeq) (x : Option XSeq) (cls n : BitVec 5) : Word :=
  match cls.toNat with
  | 0 => a.reg n
  | 1 => a.pos.lx n.toNat
  | 2 => a.pos.ln n.toNat
  | 3 => a.mb[n.toNat % 16]'(Nat.mod_lt _ (by decide))
  | _ => (x.map xstat).getD 0

/-! ## Block headers (03 R55, 04 R73) -/

/-- The register that SEL names: s0 to s31, then mb0 to mb15. -/
def blockCount (a : ASeq) (sel : BitVec 6) : Word :=
  if sel.toNat < 32 then a.reg (sel.setWidth 5) else a.mb[(sel.toNat - 32) % 16]'(Nat.mod_lt _ (by decide))

/-! ## Scalar and queue accesses (06 R139, R141) -/

/-- The access width in bytes that IMM[11:10] selects. -/
def accessWidth (imm : BitVec 12) : Nat := 2 ^ (imm.extractLsb' 10 2).toNat

/-- The offset in bytes: IMM[9:0], signed, counted in units of the width. -/
def accessOffset (imm : BitVec 12) : Word :=
  signed (imm.extractLsb' 0 10) * BitVec.ofNat 64 (accessWidth imm)

/-- The effective address of ld, lds, st, qld and qst. -/
def accessAddress (base : Word) (imm : BitVec 12) : Word := base + accessOffset imm

/-- The address of pref: the whole immediate counts lines of 64 bytes (06 R140). -/
def prefetchAddress (base : Word) (imm : BitVec 12) : Word := base + signed imm * 64

/-- The width in bytes of an atomic (08 R188). -/
def atomicWidth (m : BitVec 5) : Nat := if m.getLsbD 3 then 8 else 4

end Sys2Proof.Machine
end

