-- ==== Sys2Proof/Machine/Control.lean ====
section
/-! DEFINITION. Block headers, control transfers, branch-outcome queues, exit, halt and brk (04; 03 R54; 18 R362), with the
frame of the forms that an X-seq issues. -/

namespace Sys2Proof.Machine

/-! ## The X-seq as an issuer (05 R106, R109) -/

/-- The entries that can be popped from a load-data queue: filled before this cycle, in slot order (05 R109, 06 R138). -/
def Lq.poppable (q : Lq) (now : Word) : Nat :=
  (q.slots.takeWhile (fun x => x.value.isSome && decide (x.since ≠ now))).length

def Lq.used (q : Lq) : Nat := q.slots.length

/-- The resource that a need names has what is needed (05 R109). -/
def Cell.meets (c : Cell) (now : Word) (need : Nat × Nat) : Bool :=
  match need.1 with
  | 0 => decide (need.2 ≤ c.lq[0].poppable now)
  | 1 => decide (need.2 ≤ c.lq[1].poppable now)
  | 2 => decide (need.2 ≤ c.lq[2].poppable now)
  | 3 => decide (need.2 ≤ c.lq[3].poppable now)
  | 4 => decide (c.sq[0].entries.length + need.2 ≤ 32)
  | 5 => decide (c.sq[1].entries.length + need.2 ≤ 32)
  | 6 => decide (c.sq[2].entries.length + need.2 ≤ 32)
  | 7 => decide (c.sq[3].entries.length + need.2 ≤ 32)
  | 8 => match c.bqax with
    | e :: _ => e.visible
    | [] => false
  | _ => decide (c.bqxa.length + need.2 ≤ 8)

/-- The column of a destination: 1 I, 2 F, 3 C; 0 when it is no trigger (05 Table 5-12). -/
def triggerColumn (d : Nat) : Nat :=
  if 0x11 ≤ d && d ≤ 0x1F then 1
  else if 0x22 ≤ d && d ≤ 0x3B then 2
  else if 0x41 ≤ d && d ≤ 0x4E then 3 else 0

/-- What the moves that transport in this cycle need (05 R109). The last trigger of the C column is the one that starts, so it
alone can push an outcome (05 R108). -/
def moveNeeds (ms : List Move) : List (Nat × Nat) :=
  let now := ms.filter (fun m => m.delay = 0)
  let pops (q : Nat) := (now.filter (fun m => m.value.isNone && decide (m.src.toNat = 20 + q))).length
  let pushes (q : Nat) := (now.filter (fun m => decide (m.dst.toNat = 0x60 + q))).length
  let outcome := match (now.filter (fun m => triggerColumn m.dst.toNat == 3)).getLast? with
    | some m => if m.dst.toNat = 0x4E then 1 else 0
    | none => 0
  ([(0, pops 0), (1, pops 1), (2, pops 2), (3, pops 3), (4, pushes 0), (5, pushes 1), (6, pushes 2), (7, pushes 3),
    (9, outcome)]).filter (fun n => n.2 != 0)

/-- An X-seq form: the word issues if the cycle can take place, with the moves that would transport in it; otherwise the
X-seq freezes. The X-seq is busy with the word for `cost` cycles (04 Table 4-3). -/
def onX (s : State) (adds : List Move) (needs : List (Nat × Nat)) (cost : Nat) (k : Nat → Cell → State → State) :
    Host.Outcome State Fault Refusal :=
  match s.focus with
  | .xseq key =>
    if s.issuing (.xseq key) then
      match s.cell? key with
      | none => .fault .noAgent
      | some c =>
        let all := moveNeeds (c.x.moves ++ adds) ++ needs
        if all.all (c.meets s.now) then
          let c := { c with x := { c.x with moves := c.x.moves ++ adds, issued := true, idle := cost - 1, frozen := [] } }
          .next (k key c (s.setCell key c))
        else .next (s.setCell key { c with x := { c.x with frozen := all } })
    else .fault .noAgent
  | _ => .fault .wrongSequencer

/-- The X-seq of a cell retires a word of `size` bytes. -/
def State.retireX (s : State) (key : Nat) (c : Cell) (size : Nat) : State :=
  s.setCell key { c with x := { c.x with pos := c.x.pos.retire size } }

/-- A cycle of an X-seq that issues no word: it has exited, or its last word still takes cycles; frozen if its moves
cannot transport (05 R109, 04 R86). -/
def State.idleX (s : State) (key : Nat) : State :=
  s.modCell key (fun c =>
    let needs := moveNeeds c.x.moves
    if needs.all (c.meets s.now) then { c with x := { c.x with issued := true, idle := c.x.idle - 1, frozen := [] } }
    else { c with x := { c.x with frozen := needs } })

/-- Nothing that has issued can still fill, drain, push or pop for a stalled X-seq whose A-seq has exited (04 R87). -/
def Cell.orphanX (c : Cell) (need : Nat × Nat) : Bool :=
  c.a.pos.exited &&
    (if need.1 < 4 then !c.a.out.any (fun x => match x.kind with
      | .queueLoad q _ => q == need.1
      | _ => false)
     else if need.1 = 8 then c.bqax.isEmpty else true)

/-- Nothing that has issued can still fill, drain, push or pop for a stalled A-seq whose X-seq has exited (04 R87). -/
def Cell.orphanA (c : Cell) (need : Nat) : Bool :=
  c.x.pos.exited &&
    (if need < 4 then !c.x.moves.any (fun m => m.value.isNone && decide (m.src.toNat = 20 + need))
     else if need < 8 then !c.x.moves.any (fun m => decide (m.dst.toNat = 0x60 + (need - 4)))
     else if need = 9 then c.bqxa.isEmpty && !c.x.moves.any (fun m => decide (m.dst.toNat = 0x4E))
     else true)

/-- The A-seq's stall on a queue lasts: the queue is still full, or still holds nothing to pop. -/
def Cell.stillStalled (c : Cell) (need : Nat) : Bool :=
  if h : need < 4 then decide (32 ≤ c.lq[need].used)
  else if h : need < 8 then c.sq[need - 4].entries.isEmpty
  else if need = 8 then decide (8 ≤ c.bqax.length) else c.bqxa.isEmpty

/-- The queue that a sequencer of the cell is stalled on when nothing that has issued can end the stall: the A-seq's, or the
X-seq's (04 R87). -/
def Cell.orphaned (c : Cell) (now : Word) : Option (Bool × Nat) :=
  match c.stalled.filter (fun n => c.stillStalled n && c.orphanA n) with
  | some n => some (false, n)
  | none => (c.x.frozen.find? (fun n => !c.meets now n && c.orphanX n)).map (fun n => (true, n.1))

/-- At the end of a cycle, the sequencers that stall take the queue-orphan trap when its conditions hold (04 R87). -/
def State.judgeOrphans (s : State) : State :=
  let s := s.cells.foldl (fun s p =>
    if s.cellRuns p.1 p.2 then
      match p.2.orphaned s.now with
      | some o => s.raiseTrap (if o.1 then .xseq p.1 else .aseq p.1) 0x07 0 .fatal (BitVec.ofNat 64 o.2) 0
      | none => s
    else s) s
  { s with cells := s.cells.map (fun p => (p.1, { p.2 with stalled := none })) }

/-- An A-seq that stalls on a queue stays where it is. -/
def State.stallOn (s : State) (key : Nat) (c : Cell) (need : Nat) : State := s.setCell key { c with stalled := some need }

/-- A form that both kinds of sequencer issue. -/
def onBoth (s : State) (use : List (BitVec 5)) (needs : List (Nat × Nat)) (cost : Nat) (fa : Agent → ASeq → State)
    (fx : Nat → Cell → State → State) : Host.Outcome State Fault Refusal :=
  match s.focus with
  | .xseq _ => onX s [] needs cost fx
  | _ => onA s use fa

/-! ## Blocks (04 R73 to R75) -/

/-- Q and N of the body of a header of `len` words: a header from the loop buffer has them there (03 R57). -/
def State.headerEnds (s : State) (ag : Agent) (p : Pos) (len : Nat) : Word × Word :=
  if p.emu.isNone && p.buffered.isSome then
    ((p.bufEnds.find? (fun w => w.1 = p.pc)).map (·.2)).getD (s.bodyEnds ag (p.pc + 4) len)
  else s.bodyEnds ag (p.pc + 4) len

/-- The effect of a header on a position, or none for a loop-stack overflow (04 R73, R74). -/
def Pos.header (p : Pos) (count b q n : Word) : Option Pos :=
  if count = 0 then some { p.endHandling q n with boundary := true }
  else if p.levels.length ≥ 6 then none
  else some { p with
    levels := { start := b, stop := q, ln := count, lx := 0 } :: p.levels
    pc := b
    boundary := false
    emu := none
    buf := [] }

/-- The cost of a header (04 Table 4-3). -/
def headerCost (count b n : Word) : Nat := if count = 0 then 1 + ceilDiv ((n - b).toNat / 2) 16 else 1

/-- A header with count `c` read by the A-seq, or `cx` by the X-seq, and body length `len`. -/
def blockHeader (use : List (BitVec 5)) (ca : ASeq → Word) (len : Nat) (s : State) : Host.Outcome State Fault Refusal :=
  match s.focus with
  | .xseq key =>
    match s.cell? key with
    | none => .fault .noAgent
    | some c0 =>
      let b := c0.x.pos.pc + 4
      let e := s.headerEnds s.focus c0.x.pos len
      onX s [] [] (headerCost (ca c0.a) b e.2) (fun key c s =>
        match c.x.pos.header (ca c.a) b e.1 e.2 with
        | some p => s.setCell key { c with x := { c.x with pos := p } }
        | none => s.raiseTrap (.xseq key) 0x05 0 .fatal 0 0)
  | _ =>
    onA s use (fun ag q =>
      let b := q.pos.pc + 4
      let e := s.headerEnds ag q.pos len
      match q.pos.header (ca q) b e.1 e.2 with
      | some p => s.setASeq ag { q with pos := p, busy := headerCost (ca q) b e.2 - 1 }
      | none => s.raiseTrap ag 0x05 0 .fatal 0 0)

/-- A header with an immediate count (03 R55, 04 R73). -/
def execBlkImmediate (n : BitVec 13) (l : BitVec 12) (s : State) : Host.Outcome State Fault Refusal :=
  blockHeader [] (fun _ => unsigned n) l.toNat s

/-- A header with a register count (03 R55, 04 R73). -/
def execBlkRegister (sel : BitVec 6) (l : BitVec 12) (s : State) : Host.Outcome State Fault Refusal :=
  blockHeader (if sel.toNat < 32 then [sel.setWidth 5] else []) (fun q => blockCount q sel) l.toNat s

/-! ## Branches, calls (04 R81, R82) -/

/-- A branch of `size` bytes: a transfer when taken, after which the sequencer issues nothing for `extra` cycles (04 Table 4-3);
end handling otherwise. -/
def branch (size extra : Nat) (use : List (BitVec 5)) (t : Word → Word) (taken : ASeq → Bool) (s : State) :
    Host.Outcome State Fault Refusal :=
  onA s use (fun ag q =>
    if taken q then s.setASeq ag { q with pos := q.pos.transfer (t q.pos.pc), busy := extra } else s.finish ag q size)

/-- br (04 R81). -/
def execBr (off : BitVec 17) (s : State) : Host.Outcome State Fault Refusal :=
  branch 4 1 [] (fun pc => target pc off) (fun _ => true) s

/-- The short br (03 Table 3-4). -/
def execBrShort (off10 : BitVec 10) (s : State) : Host.Outcome State Fault Refusal :=
  branch 2 1 [] (fun pc => target pc off10) (fun _ => true) s

/-- bz (04 R81). -/
def execBz (a : BitVec 5) (off : BitVec 17) (s : State) : Host.Outcome State Fault Refusal :=
  branch 4 2 [a] (fun pc => target pc off) (fun q => q.reg a == 0) s

/-- bnz (04 R81). -/
def execBnz (a : BitVec 5) (off : BitVec 17) (s : State) : Host.Outcome State Fault Refusal :=
  branch 4 2 [a] (fun pc => target pc off) (fun q => q.reg a != 0) s

/-- The decrement and the decision of dcbnz (04 R81). -/
def decrementBranch (size : Nat) (a : BitVec 5) (t : Word → Word) (s : State) : Host.Outcome State Fault Refusal :=
  onA s [a] (fun ag q =>
    let q := q.setReg a (q.reg a - 1)
    if q.reg a ≠ 0 then s.setASeq ag { q with pos := q.pos.transfer (t q.pos.pc) } else s.finish ag q size)

/-- dcbnz (04 R81). -/
def execDcbnz (a : BitVec 5) (off : BitVec 17) (s : State) : Host.Outcome State Fault Refusal :=
  decrementBranch 4 a (fun pc => target pc off) s

/-- The short dcbnz reaches backward only (03 Table 3-4). -/
def execDcbnzShort (a off1 : BitVec 5) (s : State) : Host.Outcome State Fault Refusal :=
  decrementBranch 2 a (fun pc => backTarget pc off1) s

/-- A call writes the return address into s31 and keeps the loop stack (04 R79, R82); it takes `extra` more cycles. -/
def callTo (extra : Nat) (use : List (BitVec 5)) (t : ASeq → Word) (s : State) : Host.Outcome State Fault Refusal :=
  onA s (31 :: use) (fun ag q =>
    s.setASeq ag { q.setReg 31 (q.pos.next 4) with
      pos := { q.pos with pc := t q, boundary := false, emu := none }
      busy := extra })

/-- call (04 R82). -/
def execCall (off : BitVec 17) (s : State) : Host.Outcome State Fault Refusal := callTo 1 [] (fun q => target q.pos.pc off) s

/-- callr goes to S[a] as it stood before s31 was written (04 R82). -/
def execCallr (a : BitVec 5) (s : State) : Host.Outcome State Fault Refusal := callTo 3 [a] (fun q => q.reg a) s

/-- ret (04 R82). -/
def execRet (a : BitVec 5) (s : State) : Host.Outcome State Fault Refusal :=
  onA s [a] (fun ag q => s.setASeq ag { q with pos := q.pos.transfer (q.reg a), busy := 3 })

/-- The short ret stands for ret s31 (03 Table 3-4, 04 Table 4-2). -/
def execRetShort (s : State) : Host.Outcome State Fault Refusal :=
  onA s [31] (fun ag q => s.setASeq ag { q with pos := q.pos.transfer (q.reg 31), busy := 3 })

/-! ## Branch-outcome queues (04 R83, R84) -/

/-- bqpush pushes S[a] ≠ 0 into BQAX, or stalls while it is full. -/
def execBqpush (a : BitVec 5) (s : State) : Host.Outcome State Fault Refusal :=
  onCell s [a] 0x01 0x7 false (fun key c =>
    if c.bqax.length ≥ 8 then s.stallOn key c 8
    else s.setCell key { c with
      bqax := c.bqax ++ [{ bit := c.a.reg a != 0, pushed := s.now, visible := false }]
      a := c.a.retire 4 })

/-- Pop one entry and transfer when it is `want`; each sequencer pops its incoming queue. -/
def popBranch {w : Nat} (size minor : Nat) (off : BitVec w) (want : Bool) (s : State) : Host.Outcome State Fault Refusal :=
  match s.focus with
  | .xseq _ =>
    onX s [] [(8, 1)] 2 (fun key c s =>
      match c.bqax with
      | [] => s
      | e :: rest =>
        let p := if e.bit = want then c.x.pos.transfer (target c.x.pos.pc off) else c.x.pos.retire size
        s.setCell key { c with bqax := rest, x := { c.x with pos := p } })
  | _ =>
    onCell s [] 0x01 minor (size == 2) (fun key c =>
      match c.bqxa with
      | e :: rest =>
        if e.visible then
          let p := if e.bit = want then c.a.pos.transfer (target c.a.pos.pc off) else c.a.pos.retire size
          s.setCell key { c with bqxa := rest, a := { c.a with pos := p, busy := 1 } }
        else s
      | [] => s.stallOn key c 9)

/-- bqt (04 R83). -/
def execBqt (off : BitVec 17) (s : State) : Host.Outcome State Fault Refusal := popBranch 4 0xA off true s

/-- bqf (04 R83). -/
def execBqf (off : BitVec 17) (s : State) : Host.Outcome State Fault Refusal := popBranch 4 0xB off false s

/-- The short bqt (03 Table 3-4). -/
def execBqtShort (off10 : BitVec 10) (s : State) : Host.Outcome State Fault Refusal := popBranch 2 0xA off10 true s

/-- An entry that was pushed two of the cell's own cycles ago can be popped; `age` counts them (00 R5, 04 R84). -/
def BqEntry.due (e : BqEntry) (age : Word → Nat) : Bool := !e.visible && decide (2 ≤ age e.pushed)

def showDue (age : Word → Nat) (q : List BqEntry) : List BqEntry :=
  q.map (fun e => if e.due age then { e with visible := true } else e)

def Cell.bqDue (c : Cell) (age : Word → Nat) : Bool := c.bqax.any (·.due age) || c.bqxa.any (·.due age)

/-- Entries pushed in cycle t can be popped from cycle t + 2 (04 R84). -/
def execBqEntryVisible (cell : Nat) (s : State) : Host.Outcome State Fault Refusal :=
  event (((s.cell? cell).map (fun c => c.bqDue (s.ownAge c))).getD false) s
    (s.modCell cell (fun c => { c with bqax := showDue (s.ownAge c) c.bqax, bqxa := showDue (s.ownAge c) c.bqxa }))

/-! ## Ends and no-operations -/

/-- halt: the program-halt trap carries the code (04 R85). -/
def execHalt (code : BitVec 17) (s : State) : Host.Outcome State Fault Refusal :=
  onA s [] (fun ag _ => s.raiseTrap ag 0x06 0 .fatal (unsigned code) 0)

/-- The sequencer exits at a word of `size` bytes: it transfers no control, so it performs end handling (04 R75); it issues
nothing further and its stack is discarded (04 R86). -/
def Pos.exit (p : Pos) (size : Nat) : Pos := { p.retire size with levels := [], exited := true, boundary := false, emu := none }

/-- exit of an A-seq or, ending its program, of a control core (04 R86). -/
def State.exitA (s : State) (ag : Agent) (q : ASeq) (size : Nat) : State :=
  match ag with
  | .core k => (s.setASeq ag { q with pos := q.pos.exit size }).endProgram k 0 0
  | ag => s.setASeq ag { q with pos := q.pos.exit size }

/-- exit (04 R86). -/
def execExit (s : State) : Host.Outcome State Fault Refusal := onA s [] (fun ag q => s.exitA ag q 4)

/-- The short exit, on either kind of sequencer (03 Table 3-4, 04 R86). -/
def execExitShort (s : State) : Host.Outcome State Fault Refusal :=
  onBoth s [] [] 1 (fun ag q => s.exitA ag q 2)
    (fun key c s => s.setCell key { c with x := { c.x with pos := c.x.pos.exit 2 } })

/-- nop (03 R54). -/
def execNop (s : State) : Host.Outcome State Fault Refusal :=
  onBoth s [] [] 1 (fun ag q => s.finish ag q 2) (fun key c s => s.retireX key c 2)

/-- brk: a replayable breakpoint trap that carries its code (18 R362). -/
def execBrk (code10 : BitVec 10) (s : State) : Host.Outcome State Fault Refusal :=
  match s.focus with
  | .xseq key =>
    if s.issuing (.xseq key) then .next (s.raiseTrap (.xseq key) 0x11 0 .replayable (unsigned code10) 0)
    else .fault .noAgent
  | _ => onA s [] (fun ag _ => s.raiseTrap ag 0x11 0 .replayable (unsigned code10) 0)

end Sys2Proof.Machine
end

