-- ==== Sys2Proof/Machine/Integer.lean ====
section
/-! DEFINITION. The integer functions that the A-seq and the X-seq share (05 R95 to R105). -/

namespace Sys2Proof.Machine

/-! ## 05 Table 5-3 -/

/-- Shift amounts use y[5:0]. -/
def shiftAmount (y : Word) : Nat := y.toNat % 64

def intAdd (x y : Word) : Word := x + y
def intSub (x y : Word) : Word := x - y
def intAnd (x y : Word) : Word := x &&& y
def intOr (x y : Word) : Word := x ||| y
def intXor (x y : Word) : Word := x ^^^ y
def intAndn (x y : Word) : Word := x &&& ~~~y
def intShl (x y : Word) : Word := x <<< shiftAmount y
def intShr (x y : Word) : Word := x >>> shiftAmount y
def intSra (x y : Word) : Word := x.sshiftRight (shiftAmount y)
def intSlt (x y : Word) : Word := if x.slt y then 1 else 0
def intSltu (x y : Word) : Word := if x < y then 1 else 0
def intSeq (x y : Word) : Word := if x = y then 1 else 0
def intMin (x y : Word) : Word := if x.slt y then x else y
def intMax (x y : Word) : Word := if x.slt y then y else x
def intMinu (x y : Word) : Word := if x < y then x else y
def intMaxu (x y : Word) : Word := if x < y then y else x

/-! ## Bit counters (05 Table 5-8), on an element of width w -/

/-- The index of the lowest set bit, w when there is none. -/
def ffsElem (w v : Nat) : Nat := ((List.range w).find? (fun k => v.testBit k)).getD w

/-- The number of leading zero bits, w when v = 0. -/
def clzElem (w v : Nat) : Nat := ((List.range w).find? (fun k => v.testBit (w - 1 - k))).getD w

/-- The number of set bits. -/
def popcElem (w v : Nat) : Nat := ((List.range w).filter (fun k => v.testBit k)).length

/-! ## Packed sums (05 R102) -/

/-- The SAT rule: wrap, signed saturation, unsigned saturation. `op` adds or subtracts. -/
def satElem (sat : Nat) (op : Int → Int → Int) (w x y : Nat) : Nat :=
  match sat with
  | 0 => wrap w (op x y)
  | 1 => wrap w (clampInt (op (signedOf w x) (signedOf w y)) (-(2 ^ (w - 1) : Nat)) ((2 ^ (w - 1) : Nat) - 1))
  | _ => wrap w (clampInt (op x y) 0 ((2 ^ w : Nat) - 1))

/-- The field of len bits at pos, zero-extended; bits above bit 63 read 0 (05 R103). -/
def bitField (x y : Word) (len1 : BitVec 5) : Word :=
  BitVec.ofNat 64 ((x.toNat >>> shiftAmount y) % 2 ^ (len1.toNat + 1))

/-! ## Multiplication and division (05 R104, R105) -/

def intMul (x y : Word) : Word := x * y
def intMulh (x y : Word) : Word := BitVec.ofInt 64 ((x.toInt * y.toInt) / (2 ^ 64 : Nat))
def intMulhu (x y : Word) : Word := BitVec.ofNat 64 ((x.toNat * y.toNat) / 2 ^ 64)

/-- Signed division truncates toward zero; a zero divisor gives all ones; -2^63 by -1 gives -2^63. -/
def intDiv (x y : Word) : Word := if y = 0 then BitVec.allOnes 64 else BitVec.ofInt 64 (x.toInt.tdiv y.toInt)

/-- The signed remainder has the sign of the dividend; a zero divisor gives the dividend. -/
def intRem (x y : Word) : Word := if y = 0 then x else BitVec.ofInt 64 (x.toInt.tmod y.toInt)

def intDivu (x y : Word) : Word := if y = 0 then BitVec.allOnes 64 else BitVec.ofNat 64 (x.toNat / y.toNat)
def intRemu (x y : Word) : Word := if y = 0 then x else BitVec.ofNat 64 (x.toNat % y.toNat)

end Sys2Proof.Machine
end

