-- ==== Sys2Proof/Machine/Smem.lean ====
section
/-! DEFINITION. Scalar and queue accesses, address forming and checking, atomics, and the events in which accesses are
translated and performed (06 R133 to R144, 08 R187 to R189). -/

namespace Sys2Proof.Machine

/-! ## Outstanding accesses (06 R136) -/

def AccessKind.isSync : AccessKind → Bool
  | .release _ => true
  | .xfer .. => true
  | _ => false

def AccessKind.isWrite : AccessKind → Bool
  | .store _ => true
  | .atomic .. => true
  | _ => false

/-- A release or xfer is performed after an earlier one, and after the writes that it covers (07 R158, R160). -/
def Access.waitsFor (x y : Access) : Bool := y.kind.isSync || (y.kind.isWrite && y.bound.any (fun o => x.bound.contains o))

/-- The entry stands in the replay queue: an uncommitted access, or a release or xfer that waits for one that stands there
(07 R168, 18 R354). -/
def Access.heldBy (x : Access) (held : List Access) : Bool := if x.kind.isSync then held.any x.waitsFor else !x.committed

/-- The entries of the replay queue among outstanding ones, given those before them. -/
def replayQueue : List Access → List Access → List Access
  | _, [] => []
  | held, x :: rest => if x.heldBy held then x :: replayQueue (x :: held) rest else replayQueue held rest

def ASeq.replay (a : ASeq) : List Access := replayQueue [] a.out

/-- Accesses that have committed, and the releases and xfers that wait for no entry of the replay queue: they are performed
even when the cell stops (06 R136, 07 R168). -/
def ASeq.issued (a : ASeq) : List Access := a.out.filter (fun x => !a.replay.any (fun y => y.id == x.id))

/-- The replay queue holds as many entries as it can (06 R136, 18 R354). -/
def ASeq.crowded (a : ASeq) : Bool := decide (16 ≤ a.replay.length)

/-- Whether an access to an address must stall at issue: it would be a 17th entry of the replay queue, which an access that needs
no translation never enters, or a 65th outstanding access (06 R136, 18 R354). -/
def ASeq.full (a : ASeq) (ea : Word) : Bool :=
  (isTranslated ea.toNat && a.crowded) || decide (64 ≤ a.out.countP (fun x => !x.kind.isSync))

/-- Two accesses of one A-seq share a byte, by place or by name in the translated space (06 R134). -/
def Access.shares (x y : Access) : Bool :=
  (match x.loc, y.loc with
   | some a, some b => overlap a x.width b y.width
   | _, _ => false) ||
  (isTranslated x.ea.toNat && isTranslated y.ea.toNat && overlap (bits x.ea.toNat 47 0) x.width (bits y.ea.toNat 47 0) y.width)

/-- A read-only load does not come after an earlier store that shares a byte (06 Table 6-6, code F). -/
def passesStore (y x : Access) : Bool := y.kind.isWrite && bits x.ea.toNat 63 60 == 2

/-- The access may be performed: it is committed, and no earlier one that shares a byte is outstanding (06 R134). -/
def canPerform (out : List Access) (x : Access) : Bool :=
  x.committed && !x.mirrored &&
    !(out.takeWhile (fun y => y.id ≠ x.id)).any (fun y => !y.kind.isSync && !y.mirrored && y.shares x && !passesStore y x)

def ASeq.access? (a : ASeq) (id : Nat) : Option Access := a.out.find? (fun x => x.id = id)

def ASeq.drop (a : ASeq) (id : Nat) : ASeq := { a with out := a.out.filter (fun x => x.id ≠ id) }

/-- Add an access to the outstanding ones. -/
def ASeq.push (a : ASeq) (x : Access) : ASeq := { a with out := a.out ++ [{ x with id := a.nextId }], nextId := a.nextId + 1 }

def AccessKind.probe : AccessKind → Probe
  | .load .. => .read
  | .queueLoad .. => .read
  | .atomic .. => .atomic
  | _ => .write

/-- Issue an access. Path checks come first; a comb or own-slice access is then committed, an access of a translated path
waits for its translation (06 R121, R125, R136). A misaligned access that also cannot cross the clusters is 0x0B: the checks of the
issue stage come before routing (log 113). -/
def State.issueAccess (s : State) (ag : Agent) (q : ASeq) (kind : AccessKind) (ea : Word) (w : Nat) (first : BitVec 32)
    (size : Nat) : State :=
  let code := s.pathCode ag ea w kind.probe.writes
  if code ≠ 0 then s.pathTrap ag code ea
  else if q.full ea then s
  else
    let bound := if kind.isWrite then s.boundObjects ag ea.toNat w else []
    let x : Access := { id := 0, kind, ea, width := w, first, committed := false, loc := none, bound, inc := none, mirrored := false }
    if isTranslated ea.toNat then s.finish ag (q.push x) size
    else match s.resolve ag (decide (s.agentPriv ag = .user)) ea kind.probe with
      | .place l => s.finish ag (q.push { x with committed := true, loc := l }) size
      | .pathFault c => s.pathTrap ag c ea
      | .xlatFault c => s.xlatTrap ag c ea

/-- A load of the scalar forms. -/
def scalarLoad (sgn : Bool) (d a : BitVec 5) (imm : BitVec 12) (i : Instr) (s : State) : Host.Outcome State Fault Refusal :=
  onA s [d, a] (fun ag q =>
    s.issueAccess ag q (.load sgn d) (accessAddress (q.reg a) imm) (accessWidth imm) (firstWord i) 4)

/-- ld (06 R139). -/
def execLd (d a : BitVec 5) (imm : BitVec 12) (s : State) : Host.Outcome State Fault Refusal :=
  scalarLoad false d a imm (.ld d a imm) s

/-- lds (06 R139). -/
def execLds (d a : BitVec 5) (imm : BitVec 12) (s : State) : Host.Outcome State Fault Refusal :=
  scalarLoad true d a imm (.lds d a imm) s

/-- The low 8w bits of a register. -/
def lowBytes (v : Word) (w : Nat) : Word := BitVec.ofNat 64 (v.toNat % 2 ^ (8 * w))

/-- st (06 R139). -/
def execSt (d a : BitVec 5) (imm : BitVec 12) (s : State) : Host.Outcome State Fault Refusal :=
  onA s [d, a] (fun ag q =>
    s.issueAccess ag q (.store (lowBytes (q.reg d) (accessWidth imm))) (accessAddress (q.reg a) imm) (accessWidth imm)
      (firstWord (.st d a imm)) 4)

/-- What pref brings into a cache: the line at an address of the read-only path. -/
def State.prefetch (s : State) (ag : Agent) (ea : Word) : State :=
  if bits ea.toNat 63 60 ≠ 2 then s
  else match s.access ag (decide (s.agentPriv ag = .user)) ea 1 .read with
    | .place (some l) => if s.poisoned (l / 64 * 64) 64 then s else s.fillRo (s.agentSlot ag) l
    | _ => s

/-- pref never faults (06 R140). -/
def execPref (a : BitVec 5) (imm : BitVec 12) (s : State) : Host.Outcome State Fault Refusal :=
  onA s [a] (fun ag q => (s.prefetch ag (q.reg a + imm.signExtend 64 * 64)).finish ag q 4)

/-! ## Queue accesses (06 R138, R141) -/

/-- The translation of an access fills the TLBs (19 R379). -/
def State.touchAccess (s : State) (ag : Agent) (ea : Word) (pr : Probe) : State :=
  if isTranslated ea.toNat then s.touch ag (decide (s.agentPriv ag = .user)) (bits ea.toNat 47 0) pr else s

/-- Issue a queue access; post-increment forms translate at issue, since a faulting access makes no increment. -/
def State.issueQueue (s : State) (key : Nat) (c : Cell) (kind : AccessKind) (ea : Word) (w : Nat) (first : BitVec 32)
    (inc : Option (BitVec 5 × Word)) (popped : Option (Nat × Word × Word)) : State :=
  let ag := Agent.aseq key
  let bound := if kind.isWrite then s.boundObjects ag ea.toNat w else []
  let x : Access := { id := 0, kind, ea, width := w, first, committed := false, loc := none, bound, inc := none, mirrored := false, popped }
  let put (a : ASeq) : State := s.setCell key { c with a := a.retire 4 }
  let bump (a : ASeq) : ASeq := match inc with
    | some i => a.setReg i.1 (a.reg i.1 + i.2)
    | none => a
  if isTranslated ea.toNat && inc.isNone then put (c.a.push x)
  else match s.resolve ag true ea kind.probe with
    | .place l => (put (bump (c.a.push { x with committed := true, loc := l }))).touchAccess ag ea kind.probe
    | .pathFault code => s.pathTrap ag code ea
    | .xlatFault code =>
      if xlatReplayable code then (put (c.a.push { x with inc })).xlatTrap ag code ea
      else s.xlatTrap ag code ea

/-- A queue load reserves the tail slot of its queue, or stalls while the queue is full. -/
def queueLoad (n a : BitVec 5) (imm : BitVec 12) (post : Bool) (minor : Nat) (i : Instr) (s : State) :
    Host.Outcome State Fault Refusal :=
  onCell s [a] 0x09 minor false (fun key c =>
    let k := n.toNat % 4
    let q := c.lq[k]'(Nat.mod_lt _ (by decide))
    let ea := if post then c.a.reg a else accessAddress (c.a.reg a) imm
    let code := s.pathCode (.aseq key) ea (accessWidth imm) false
    if code ≠ 0 then s.pathTrap (.aseq key) code ea
    else if 32 ≤ q.used then s.stallOn key c k
    else if c.a.full ea then s
    else
      let slot := (q.head + q.used) % 32
      let c' := { c with lq := c.lq.set k { q with slots := q.slots ++ [{ value := none, since := s.now }] } (Nat.mod_lt _ (by decide)) }
      s.issueQueue key c' (.queueLoad k slot) ea (accessWidth imm) (firstWord i)
        (if post then some (a, accessOffset imm) else none) none)

/-- A queue store pops the head of its queue, or stalls while no entry can be popped. -/
def queueStore (n a : BitVec 5) (imm : BitVec 12) (post : Bool) (minor : Nat) (i : Instr) (s : State) :
    Host.Outcome State Fault Refusal :=
  onCell s [a] 0x09 minor false (fun key c =>
    let k := n.toNat % 4
    let q := c.sq[k]'(Nat.mod_lt _ (by decide))
    let ea := if post then c.a.reg a else accessAddress (c.a.reg a) imm
    let code := s.pathCode (.aseq key) ea (accessWidth imm) true
    if code ≠ 0 then s.pathTrap (.aseq key) code ea
    else if c.a.full ea then s
    else match q.entries with
      | [] => s.stallOn key c (4 + k)
      | (v, t) :: rest =>
        if t = s.now then s
        else
          let c' := { c with sq := c.sq.set k { head := (q.head + 1) % 32, entries := rest } (Nat.mod_lt _ (by decide)) }
          s.issueQueue key c' (.store (lowBytes v (accessWidth imm))) ea (accessWidth imm) (firstWord i)
            (if post then some (a, accessOffset imm) else none) (some (k, v, t)))

/-- qld (06 R141). -/
def execQld (q a : BitVec 5) (imm : BitVec 12) (s : State) : Host.Outcome State Fault Refusal :=
  queueLoad q a imm false 0 (.qld q a imm) s

/-- qst (06 R141). -/
def execQst (q a : BitVec 5) (imm : BitVec 12) (s : State) : Host.Outcome State Fault Refusal :=
  queueStore q a imm false 1 (.qst q a imm) s

/-- qldi: qld, then post-increment (06 R141). -/
def execQldi (q a : BitVec 5) (imm : BitVec 12) (s : State) : Host.Outcome State Fault Refusal :=
  queueLoad q a imm true 2 (.qldi q a imm) s

/-- qsti: qst, then post-increment (06 R141). -/
def execQsti (q a : BitVec 5) (imm : BitVec 12) (s : State) : Host.Outcome State Fault Refusal :=
  queueStore q a imm true 3 (.qsti q a imm) s

/-! ## Translation and performance -/

/-- The sequencer's accesses are processed: a stopped cell's uncommitted accesses wait (06 R136). -/
def State.accessesRun (s : State) : Agent → Bool
  | .core k => (s.core k).trap.isNone
  | ag => match ag.cell? with
    | some k => ((s.cell? k).map (fun c => s.cellRuns k c)).getD false
    | none => false

def State.access? (s : State) (ag : Agent) (id : Nat) : Option Access := (s.aseq? ag).bind (·.access? id)

def State.setAccess (s : State) (ag : Agent) (x : Access) : State :=
  match s.aseq? ag with
  | some a => s.setASeq ag { a with out := a.out.map (fun y => if y.id = x.id then x else y) }
  | none => s

def State.dropAccess (s : State) (ag : Agent) (id : Nat) : State :=
  match s.aseq? ag with
  | some a => s.setASeq ag (a.drop id)
  | none => s

/-- Change the registers of an agent. -/
def State.writeReg (s : State) (ag : Agent) (d : BitVec 5) (v : Word) : State :=
  match s.aseq? ag with
  | some a => s.setASeq ag (a.setReg d v)
  | none => s

/-- The store-data queue entry that a faulting access had popped stands at the head again (06 R121). -/
def Cell.giveBack (c : Cell) (e : Nat × Word × Word) : Cell :=
  let q := c.sq[e.1 % 4]'(Nat.mod_lt _ (by decide))
  { c with sq := c.sq.set (e.1 % 4) { head := (q.head + 31) % 32, entries := e.2 :: q.entries } (Nat.mod_lt _ (by decide)) }

/-- An access that faults is given up without effect. -/
def State.abandonAccess (s : State) (ag : Agent) (x : Access) : State :=
  match x.popped, ag.cell? with
  | some e, some k => (s.dropAccess ag x.id).modCell k (·.giveBack e)
  | _, _ => s.dropAccess ag x.id

def State.replyDue (s : State) (ag : Agent) (id : Nat) : Bool :=
  match s.access? ag id with
  | some x => !x.committed && !x.kind.isSync && s.accessesRun ag
  | none => false

/-- The translation of a scalar or queue access arrives: it commits, or it faults (06 R125, R126, R136). -/
def State.scalarReply (s : State) (ag : Agent) (id : Nat) : State :=
  match s.access? ag id with
  | none => s
  | some x =>
    match s.resolve ag (decide (s.agentPriv ag = .user)) x.ea x.kind.probe with
    | .place l =>
      let s := match x.inc, s.aseq? ag with
        | some i, some a => s.setASeq ag (a.setReg i.1 (a.reg i.1 + i.2))
        | _, _ => s
      (s.setAccess ag { x with committed := true, loc := l, inc := none }).touchAccess ag x.ea x.kind.probe
    | .pathFault c => (s.abandonAccess ag x).pathTrap ag c x.ea
    | .xlatFault c => if xlatReplayable c then s.xlatTrap ag c x.ea else (s.abandonAccess ag x).xlatTrap ag c x.ea

def State.performDue (s : State) (ag : Agent) (id : Nat) (want : AccessKind → Bool) : Bool :=
  match s.aseq? ag with
  | some a => match a.access? id with
    | some x => want x.kind && canPerform a.out x
    | none => false
  | none => false

/-- The value that an access reads; none when it meets poison (22 R417). -/
def State.readAccess (s : State) (ag : Agent) (x : Access) : Option Nat :=
  match x.loc with
  | none => some 0
  | some l =>
    if s.poisoned l x.width then none
    else some (leValue (s.readPath (s.agentSlot ag) (bits x.ea.toNat 63 60) [(some l, x.width)]))

/-- A load on the read-only path brings its line into the read-only cache of its die (06 R127). -/
def State.cacheLoad (s : State) (ag : Agent) (x : Access) : State :=
  match x.loc with
  | some l => if bits x.ea.toNat 63 60 = 2 then s.fillRo (s.agentSlot ag) l else s
  | none => s

/-- Poison met by an access: machine check 0x01 (22 R417). -/
def State.accessPoison (s : State) (ag : Agent) (x : Access) : State :=
  (s.dropAccess ag x.id).machineCheck ag 0x01 .fatal (BitVec.ofNat 64 (arrayOf (x.loc.getD 0))) x.ea

/-- A write on the mirrored path is duplicated: it waits for the neighbour's acknowledgement (06 R129, 22 R420). While the
package link is down it is held, and sent when the link comes back. -/
def State.sendMirror (s : State) (p : Nat) (owner : MirrorOwner) (ea loc : Nat) (bs : List Byte) : State :=
  let pt := s.part p
  let s := { s with mirrorSent := if s.packageUp then (loc, bs) :: s.mirrorSent else s.mirrorSent }
  s.setPart p { pt with 
    nextMirror := pt.nextMirror + 1
    mirrorOut := pt.mirrorOut ++ [{ id := pt.nextMirror, ea := BitVec.ofNat 64 ea, loc, data := bs, since := s.now, owner }] }

def isMirrored (ea : Word) : Bool := bits ea.toNat 63 60 == 5

/-- The write of an access is performed at its place, and leaves no older line in the read-only cache of its die (06 R127); on
the mirrored path it stays outstanding until it is acknowledged. -/
def State.performWrite (s : State) (ag : Agent) (x : Access) (loc : Nat) (bs : List Byte) : State :=
  let s := (s.putBytes loc bs).dropRo (s.agentSlot ag) loc bs.length
  if isMirrored x.ea then
    (s.setAccess ag { x with kind := .store 0, mirrored := true }).sendMirror (s.agentPart ag) (.access ag x.id) x.ea.toNat loc bs
  else s.dropAccess ag x.id

def wantLoad : AccessKind → Bool
  | .load .. => true
  | _ => false

/-- A scalar load returns: its value enters the register (06 R139). -/
def execLoadReturn (ag : Agent) (id : Nat) (s : State) : Host.Outcome State Fault Refusal :=
  event (s.performDue ag id wantLoad) s
    (match s.access? ag id with
     | none => s
     | some x =>
       match s.readAccess ag x with
       | none => s.accessPoison ag x
       | some v =>
         match x.kind with
         | .load sgn d =>
           let r := if sgn then BitVec.ofInt 64 (signedOf (8 * x.width) v) else BitVec.ofNat 64 v
           ((s.cacheLoad ag x).dropAccess ag id).writeReg ag d r
         | _ => s)

def wantQueueLoad : AccessKind → Bool
  | .queueLoad .. => true
  | _ => false

/-- Fill a reserved slot. -/
def Lq.fill (q : Lq) (slot : Nat) (v now : Word) : Lq :=
  { q with slots := q.slots.set ((slot + 32 - q.head) % 32) { value := some v, since := now } }

/-- Returning data fills the slot that its queue load reserved (06 R138). -/
def execQueueLoadFill (ag : Agent) (id : Nat) (s : State) : Host.Outcome State Fault Refusal :=
  event (s.performDue ag id wantQueueLoad) s
    (match s.access? ag id, ag.cell? with
     | some x, some key =>
       match s.readAccess ag x, x.kind with
       | none, _ => s.accessPoison ag x
       | some v, .queueLoad k slot =>
         ((s.cacheLoad ag x).dropAccess ag id).modCell key (fun c =>
           { c with lq := c.lq.set (k % 4) ((c.lq[k % 4]'(Nat.mod_lt _ (by decide))).fill slot (BitVec.ofNat 64 v) s.now) (Nat.mod_lt _ (by decide)) })
       | _, _ => s
     | _, _ => s)

def wantStore : AccessKind → Bool
  | .store _ => true
  | _ => false

/-- Sync fault 0x09: ADDR is the line of the access as the access names it (18 Table 18-1; log 115). -/
def State.objectFault (s : State) (ag : Agent) (x : Access) : State :=
  (s.dropAccess ag x.id).raiseTrap ag 0x0B 0x09 .fatal 0 (x.ea &&& ~~~63#64)

/-- A scalar or queue store is performed (06 R133, R138; 07 R151; 22 R416). -/
def execScalarWritePerformed (ag : Agent) (id : Nat) (s : State) : Host.Outcome State Fault Refusal :=
  event (s.performDue ag id wantStore) s
    (match s.access? ag id with
     | none => s
     | some x =>
       match x.kind, x.loc with
       | .store _, none => s.dropAccess ag id
       | .store v, some l =>
         if s.hitsObject l x.width then s.objectFault ag x
         else if (x.width < 8 && s.poisoned l x.width) || s.onLostDie l then s.accessPoison ag x
         else s.performWrite ag x l (leBytes x.width v.toNat)
       | _, _ => s)

/-! ## Atomics (08 R187 to R189) -/

/-- Op of 08 R188 at width w bytes. -/
def amoResult (op : BitVec 3) (w : Nat) (old y : Nat) : Nat :=
  let n := 8 * w
  match op.toNat with
  | 0 => (old + y) % 2 ^ n
  | 1 => old &&& y
  | 2 => old ||| y
  | 3 => old ^^^ y
  | 4 => if signedOf n old < signedOf n y then old else y
  | 5 => if signedOf n old < signedOf n y then y else old
  | 6 => min old y
  | _ => max old y

/-- The value an atomic writes, if it writes. -/
def atomicWrite (op : AtomicOp) (w : Nat) (old : Nat) (data expected : Word) : Option Nat :=
  match op with
  | .amo o => some (amoResult o w old (data.toNat % 2 ^ (8 * w)))
  | .swap => some (data.toNat % 2 ^ (8 * w))
  | .cas => if old = expected.toNat % 2 ^ (8 * w) then some (data.toNat % 2 ^ (8 * w)) else none

def atomicForm (use : List (BitVec 5)) (op : AtomicOp) (dest : Option (BitVec 5)) (a b m : BitVec 5) (exp : BitVec 5)
    (i : Instr) (s : State) : Host.Outcome State Fault Refusal :=
  onA s use (fun ag q =>
    s.issueAccess ag q (.atomic op dest (q.reg b) (q.reg exp)) (q.reg a) (atomicWidth m) (firstWord i) 4)

/-- amo (08 R189). -/
def execAmo (d a b m : BitVec 5) (s : State) : Host.Outcome State Fault Refusal :=
  atomicForm [d, a, b] (.amo (m.extractLsb' 0 3)) (some d) a b m 0 (.amo d a b m) s

/-- red (08 R189): no result. -/
def execRed (a b m : BitVec 5) (s : State) : Host.Outcome State Fault Refusal :=
  atomicForm [a, b] (.amo (m.extractLsb' 0 3)) none a b m 0 (.red a b m) s

/-- swap (08 R189). -/
def execSwap (d a b m : BitVec 5) (s : State) : Host.Outcome State Fault Refusal :=
  atomicForm [d, a, b] .swap (some d) a b m 0 (.swap d a b m) s

/-- cas: S[D] holds the expected value (08 R189). -/
def execCas (d a b m : BitVec 5) (s : State) : Host.Outcome State Fault Refusal :=
  atomicForm [d, a, b] .cas (some d) a b m d (.cas d a b m) s

def wantAtomic : AccessKind → Bool
  | .atomic .. => true
  | _ => false

/-- An atomic is performed, at once and alone (08 R187, R189). -/
def execAtomicPerform (ag : Agent) (id : Nat) (s : State) : Host.Outcome State Fault Refusal :=
  event (s.performDue ag id wantAtomic) s
    (match s.access? ag id with
     | none => s
     | some x =>
       match x.kind with
       | .atomic op dest data expected =>
         let give (t : State) (old : Nat) : State :=
           match dest with
           | some d => t.writeReg ag d (BitVec.ofNat 64 old)
           | none => t
         match x.loc with
         | none => give (s.dropAccess ag id) 0
         | some l =>
           if s.hitsObject l x.width then s.objectFault ag x
           else if s.poisoned l x.width then s.accessPoison ag x
           else
             let old := readLE s.mem l x.width
             match atomicWrite op x.width old data expected with
             | some v => give (s.performWrite ag x l (leBytes x.width v)) old
             | none => give (s.dropAccess ag id) old
       | _ => s)

/-! ## PATH (06 R142 to R144) -/

/-- The address that cadr forms (06 R143). -/
def combAddress (buffer : Bool) (c off : Word) : Word :=
  if (!buffer && decide (448 ≤ c.toNat)) || (buffer && decide (128 ≤ c.toNat)) || decide (2 ^ 30 ≤ off.toNat) then
    0x6000000000000000
  else
    let d := if buffer then 16 + c.toNat / 16 else c.toNat / 32
    let t := if buffer then c.toNat % 16 else c.toNat % 32
    BitVec.ofNat 64 (2 ^ 60 + d * 2 ^ 35 + t * 2 ^ 30 + off.toNat)

/-- cadr.g (06 R143). -/
def execCadrG (d a b : BitVec 5) (s : State) : Host.Outcome State Fault Refusal :=
  onA s [d, a, b] (fun ag q => s.finish ag (q.setReg d (combAddress false (q.reg a) (q.reg b))) 4)

/-- cadr.b (06 R143). -/
def execCadrB (d a b : BitVec 5) (s : State) : Host.Outcome State Fault Refusal :=
  onA s [d, a, b] (fun ag q => s.finish ag (q.setReg d (combAddress true (q.reg a) (q.reg b))) 4)

/-- pchk gives the code of the issue-stage checks (06 R144). -/
def execPchk (d a m : BitVec 5) (s : State) : Host.Outcome State Fault Refusal :=
  onA s [d, a] (fun ag q =>
    let code := s.pathCode ag (q.reg a) (2 ^ (m.extractLsb' 0 2).toNat) (m.getLsbD 2)
    s.finish ag (q.setReg d (BitVec.ofNat 64 code)) 4)

end Sys2Proof.Machine
end

