-- ==== Sys2Proof/Machine/Sync.lean ====
section
/-! DEFINITION. Synchronisation objects: bindings, acquire, release, fence, transfer, marks (07). Memory is one coherent
store (log 2), so that acquiring and releasing move no data: they order and count. -/

namespace Sys2Proof.Machine

/-- A sync trap (07 R165); ADDR names the object, by its comb-path name once ObjCheck has it (log 115). -/
def State.syncTrap (s : State) (ag : Agent) (code : Nat) (obj : Word) : State := s.raiseTrap ag 0x0B code .fatal 0 obj

/-- An owner value is valid (07 R150). -/
def ownerOk (v : Nat) : Bool := v == 0xFFFF || decide (v < 0x2000)

/-- What ObjCheck and the home give: the comb name and the place, or the state with a trap taken. -/
inductive ObjTarget where
  | object (name : Nat) (loc : Option Nat)
  | trapped (s : State)

/-- ObjCheck (07 R164): path checks as for a read of 8 bytes, path fault 0x0A on the way to the object among them, then
code 0x01 (07 R165; log 103). -/
def State.objTarget (s : State) (ag : Agent) (a : Word) : ObjTarget :=
  let code := s.pathCode ag a 8 false
  let p := bits a.toNat 63 60
  if code ≠ 0 then .trapped (s.pathTrap ag code a)
  else if p ≠ 1 && p ≠ 3 then .trapped (s.syncTrap ag 0x01 a)
  else match s.resolve ag true a .read with
    | .place l =>
      if a.toNat % 64 ≠ 0 then .trapped (s.syncTrap ag 0x01 a) else .object (combName ((ag.cell?).getD 0) a.toNat) l
    | .pathFault c => .trapped (s.pathTrap ag c a)
    | .xlatFault c => .trapped (s.xlatTrap ag c a)

/-- The line is an object; the slice of an exited cell has none (06 R132). -/
def State.isObject (s : State) (loc : Option Nat) : Bool :=
  match loc with
  | some l => s.marked l
  | none => false

def objRelseq (m : AMap Byte) (l : Nat) : Nat := readLE m l 8
def objGen (m : AMap Byte) (l : Nat) : Nat := readLE m (l + 8) 4
def objOwner (m : AMap Byte) (l : Nat) : Nat := readLE m (l + 12) 2

/-- The owner value of a gang's cells (07 R150). -/
def Gang.owner (g : Gang) : Nat := g.cl * 4096 + g.gnum % 4096

/-- Earlier accesses of the A-seq that touch a line are outstanding. -/
def ASeq.touches (a : ASeq) (loc : Option Nat) : Bool :=
  match loc with
  | none => false
  | some l => a.out.any (fun x => !x.kind.isSync && (match x.loc with
      | some y => overlap y x.width (l - l % 64) 64
      | none => false))

/-! ## Scopes (07 R146) -/

/-- The scope at which an agent's operation acts: for a control core values 0 to 3 act as 4. -/
def scopeOf (ag : Agent) (v : Nat) : Nat :=
  match ag with
  | .core _ => if v < 4 then 4 else v
  | _ => v

/-- A physical die holds a cell of the gang. -/
def State.gangOnDie (s : State) (g slot : Nat) : Bool := (s.gangCells g).any (fun p => p.2.slot == slot)

/-- The cluster of a cell's gang. -/
def State.clusterOf (s : State) (k : Nat) : Option Nat := (s.gang? (gangOfCell k)).map (·.cl)

/-- A party, named by its agent, that a scope value covers by itself for an issuer (07 Table 7-1). -/
def State.scopeAdds (s : State) (ag party : Agent) (v : Nat) : Bool :=
  match v, ag.cell?, party.cell? with
  | 0, some k, some q => k == q
  | 1, some k, some q => gangOfCell k == gangOfCell q
  | 2, some k, some q => partOfCell k == partOfCell q &&
      ((s.cell? q).map (fun c => s.gangOnDie (gangOfCell k) c.slot)).getD false
  | 3, some k, some q => partOfCell k == partOfCell q && s.clusterOf k == s.clusterOf q
  | 3, some _, none => s.agentPart ag == s.agentPart party
  | 4, _, _ => s.agentPart ag == s.agentPart party
  | _, _, _ => false

/-- The parties that a scope covers; the scopes nest (07 R146). Scope 5 adds parties in other packages only. -/
def State.covers (s : State) (ag : Agent) (v : Nat) (party : Agent) : Bool :=
  (List.range (scopeOf ag v + 1)).any (s.scopeAdds ag party)

/-- An acquire at die scope or wider invalidates the read-only cache of the issuer's die (06 R127, 07 R147). -/
def State.acquireScope (s : State) (ag : Agent) (v : Nat) : State :=
  if 2 ≤ scopeOf ag v then s.clearRo (s.agentSlot ag) else s

/-! ## bind, unbind -/

/-- The region of a bind is invalid (07 R164, code 0x03). -/
def State.badRegion (s : State) (ag : Agent) (base len : Word) : Bool :=
  let a := base.toNat
  let n := len.toNat
  n = 0 || decide (2 ^ 40 ≤ n) || s.pathCode ag base 1 false != 0 ||
    (if isTranslated a then decide (2 ^ 48 < bits a 47 0 + n)
     else match s.sliceTarget ag a, s.sliceTarget ag (a + n - 1) with
       | .code _, _ => true
       | _, .code _ => true
       | _, _ => decide (2 ^ 30 < bits a 29 0 + n))

/-- bind (07 R164): the entry enters every cell's view at once (log 11). -/
def execBind (d a b : BitVec 5) (s : State) : Host.Outcome State Fault Refusal :=
  onCell s [d, a, b] 0x0B 0x0 false (fun key c =>
    let ag := Agent.aseq key
    match s.objTarget ag (c.a.reg d) with
    | .trapped t => t
    | .object o loc =>
      let base := c.a.reg a
      let len := c.a.reg b
      let g := gangOfCell key
      let table := ((s.gang? g).map (·.bindings)).getD []
      let t := isTranslated base.toNat
      let name := compareName key base.toNat
      if s.badRegion ag base len then s.syncTrap ag 0x03 (BitVec.ofNat 64 o)
      else if 64 ≤ table.length then s.syncTrap ag 0x04 (BitVec.ofNat 64 o)
      else if (table.flatMap (fun e => e.objectsOf (s.gangCells g) t name len.toNat)).any (· != o) then
        s.syncTrap ag 0x05 (BitVec.ofNat 64 o)
      else if !s.isObject loc then s.syncTrap ag 0x02 (BitVec.ofNat 64 o)
      else
        let e : Binding := { object := o, base := name, len := len.toNat, perCell := none, translated := t }
        (s.setCell key { c with a := c.a.retire 4 }).modGang g (fun x => { x with bindings := x.bindings ++ [e] }))

/-- unbind (07 R164): every gang entry of the object and base goes (log 101). -/
def execUnbind (d a : BitVec 5) (s : State) : Host.Outcome State Fault Refusal :=
  onCell s [d, a] 0x0B 0x1 false (fun key c =>
    let ag := Agent.aseq key
    match s.objTarget ag (c.a.reg d) with
    | .trapped t => t
    | .object o _ =>
      let g := gangOfCell key
      let base := (c.a.reg a).toNat
      let hit (e : Binding) : Bool :=
        e.object == o && e.perCell.isNone && e.translated == isTranslated base && e.base == compareName key base
      if (((s.gang? g).map (·.bindings)).getD []).any hit then
        (s.setCell key { c with a := c.a.retire 4 }).modGang g (fun x => { x with bindings := x.bindings.filter (fun e => !hit e) })
      else s.syncTrap ag 0x06 (BitVec.ofNat 64 o))

/-! ## acq, fence, oinit -/

/-- The condition of an acq on the object at a place: none, a count, or a generation (07 R164). -/
def State.acqOpen (s : State) (l : Nat) (kind : Nat) (v : Word) : Bool :=
  kind = 0 || (kind = 1 && serialGE (objRelseq s.mem l) v.toNat 64) || (kind = 2 && serialGE (objGen s.mem l) (v.toNat % 2 ^ 32) 32)

/-- acq waits for its condition, then reads the count at the home (07 R164) and publishes at its scope (07 R147). -/
def execAcq (d a b m : BitVec 5) (s : State) : Host.Outcome State Fault Refusal :=
  onA s [d, a, b] (fun ag q =>
    match s.objTarget ag (q.reg a) with
    | .trapped t => t
    | .object o loc =>
      match loc with
      | none => s.syncTrap ag 0x02 (BitVec.ofNat 64 o)
      | some l =>
        let kind := (m.extractLsb' 3 2).toNat
        if !s.marked l then s.syncTrap ag 0x02 (BitVec.ofNat 64 o)
        else if s.poisoned l 16 then s.machineCheck ag 0x01 .fatal 0 (q.reg a)
        else
          let rs := objRelseq s.mem l
          let gn := objGen s.mem l
          if s.acqOpen l kind (q.reg b) then (s.acquireScope ag (m.extractLsb' 0 3).toNat).finish ag (q.setReg d (BitVec.ofNat 64 (if kind = 2 then gn else rs))) 4 else s)

/-- Something that a fence waits for is not performed yet. -/
def State.fenceBusy (s : State) (ag : Agent) (q : ASeq) : Bool :=
  !q.out.isEmpty || (match ag.cell?.bind s.cell? with
    | some c => !c.cmds.isEmpty
    | none => false)

/-- fence waits until every access, release, xfer and engine command issued before it is performed (07 R161); it does so
whatever its scope (log 12). -/
def execFence (_m : BitVec 5) (s : State) : Host.Outcome State Fault Refusal :=
  onA s [] (fun ag q => if s.fenceBusy ag q then s else s.finish ag q 4)

/-- The bytes of a fresh object: OWNER in bytes 12 and 13 (07 Table 7-2). -/
def objectBytes (owner : Nat) : List Byte := List.replicate 12 0 ++ leBytes 2 owner ++ List.replicate 50 0

/-- oinit sets or clears a mark (07 R164), in order after its agent's own earlier accesses to the line and after the issued
releases of the object (log 112); on a die that failed it consumes poison (22 R419). -/
def execOinit (a b : BitVec 5) (s : State) : Host.Outcome State Fault Refusal :=
  onA s [a, b] (fun ag q =>
    match s.objTarget ag (q.reg a) with
    | .trapped t => t
    | .object o loc =>
      let v := (q.reg b).toNat
      if 2 ^ 17 ≤ v || !ownerOk (v % 2 ^ 16) then s.syncTrap ag 0x08 (BitVec.ofNat 64 o)
      else if q.touches loc || q.out.any (fun x => x.kind.isSync && x.bound.contains o) then s
      else if loc.any s.onLostDie then s.machineCheck ag 0x01 .fatal 0 (q.reg a)
      else
        let s := match loc with
          | none => s
          | some l =>
            if v.testBit 16 then (s.putBytes l (List.replicate 64 0)).setMark l false
            else (s.putBytes l (objectBytes (v % 2 ^ 16))).setMark l true
        s.finish ag q 4)

/-! ## rel and xfer -/

/-- A release or xfer that has issued waits for the writes it covers (07 R158, R160); one that would be a 17th entry of the
replay queue stalls (18 R354). -/
def State.issueSync (s : State) (ag : Agent) (q : ASeq) (kind : AccessKind) (o : Nat) (first : BitVec 32) : State :=
  let x : Access := { id := 0, kind, ea := BitVec.ofNat 64 o, width := 8, first, committed := true, loc := none, bound := [o], inc := none, mirrored := false }
  if x.heldBy q.replay && q.crowded then s else s.finish ag (q.push x) 4

/-- rel (07 R164). -/
def execRel (d a m : BitVec 5) (s : State) : Host.Outcome State Fault Refusal :=
  onA s [d, a] (fun ag q =>
    match s.objTarget ag (q.reg a) with
    | .trapped t => t
    | .object o loc =>
      if !s.isObject loc then s.syncTrap ag 0x02 (BitVec.ofNat 64 o)
      else s.issueSync ag q (.release d) o (firstWord (.rel d a m)))

/-- xfer: code 0x08 is found at issue, before the home is reached (07 R164, R165). -/
def execXfer (d a b m : BitVec 5) (s : State) : Host.Outcome State Fault Refusal :=
  onCell s [d, a, b] 0x0B 0x5 false (fun key c =>
    let ag := Agent.aseq key
    match s.objTarget ag (c.a.reg a) with
    | .trapped t => t
    | .object o loc =>
      let v := (c.a.reg b).toNat
      if 2 ^ 16 ≤ v || !ownerOk v then s.syncTrap ag 0x08 (BitVec.ofNat 64 o)
      else if !s.isObject loc then s.syncTrap ag 0x02 (BitVec.ofNat 64 o)
      else s.issueSync ag c.a (.xfer d (BitVec.ofNat 16 v)) o (firstWord (.xfer d a b m)))

/-- The writes that a release covers are performed, and the releases issued before it (07 R158, R160). -/
def releaseReady (out : List Access) (x : Access) : Bool := !(out.takeWhile (fun y => y.id ≠ x.id)).any x.waitsFor

def State.syncDue (s : State) (ag : Agent) (id : Nat) (want : AccessKind → Bool) : Bool :=
  match s.aseq? ag with
  | some a => match a.access? id with
    | some x => want x.kind && releaseReady a.out x
    | none => false
  | none => false

/-- The place of an object by its comb name. -/
def State.objectLoc (s : State) (ag : Agent) (o : Nat) : Option Nat :=
  match s.combLoc (s.agentPart ag) ag.gang? o with
  | .at_ l => some l
  | _ => none

def wantRelease : AccessKind → Bool
  | .release _ => true
  | _ => false

/-- A release is performed at the home: RELSEQ is incremented (07 R164). -/
def execReleasePerformed (ag : Agent) (id : Nat) (s : State) : Host.Outcome State Fault Refusal :=
  event (s.syncDue ag id wantRelease) s
    (match s.access? ag id with
     | none => s
     | some x =>
       match x.kind, s.objectLoc ag x.ea.toNat with
       | .release d, some l =>
         if !s.marked l then (s.dropAccess ag id).syncTrap ag 0x02 x.ea
         else if s.poisoned l 8 then s.accessPoison ag { x with loc := some l }
         else
           let v := (objRelseq s.mem l + 1) % 2 ^ 64
           { (s.dropAccess ag id).writeReg ag d (BitVec.ofNat 64 v) with mem := writeLE s.mem l 8 v }
       | _, _ => (s.dropAccess ag id).syncTrap ag 0x02 x.ea)

def wantXfer : AccessKind → Bool
  | .xfer .. => true
  | _ => false

/-- A transfer is performed at the home: OWNER, GEN and RELSEQ change together, or sync fault 0x07 (07 R164). -/
def execXferPerformed (ag : Agent) (id : Nat) (s : State) : Host.Outcome State Fault Refusal :=
  event (s.syncDue ag id wantXfer) s
    (match s.access? ag id with
     | none => s
     | some x =>
       match x.kind, s.objectLoc ag x.ea.toNat with
       | .xfer d owner, some l =>
         let self := (((ag.gang?).bind s.gang?).map Gang.owner).getD 0xFFFF
         if !s.marked l then (s.dropAccess ag id).syncTrap ag 0x02 x.ea
         else if s.poisoned l 16 then s.accessPoison ag { x with loc := some l }
         else if objOwner s.mem l ≠ self then (s.dropAccess ag id).syncTrap ag 0x07 x.ea
         else
           let g := (objGen s.mem l + 1) % 2 ^ 32
           let r := (objRelseq s.mem l + 1) % 2 ^ 64
           { (s.dropAccess ag id).writeReg ag d (BitVec.ofNat 64 g) with
             mem := writeLE (writeLE (writeLE s.mem l 8 r) (l + 8) 4 g) (l + 12) 2 owner.toNat }
       | _, _ => (s.dropAccess ag id).syncTrap ag 0x02 x.ea)

end Sys2Proof.Machine
end

