-- ==== Sys2Proof/Machine/Count.lean ====
section
/-! DEFINITION. Completion counters and tile tags as the A-seq sees them (08 R174 to R178, R186). -/

namespace Sys2Proof.Machine

/-- A counter trap (08 R178); INFO names the counter. -/
def State.counterTrap (s : State) (key code : Nat) (n : Nat) : State :=
  s.raiseTrap (.aseq key) 0x0C code .fatal (BitVec.ofNat 64 n) 0

/-- The counter is below a threshold that it can reach. -/
def Cell.belowCount (c : Cell) (n : BitVec 5) (t : Nat) : Bool := decide (t < 2 ^ 32) && decide ((c.ccOf n).toNat < t)

/-- Wait until counter n reaches the threshold, which is formed at issue (08 R174, R177). -/
def counterWait (size minor : Nat) (n : BitVec 5) (use : List (BitVec 5)) (threshold : Cell → Nat) (s : State) :
    Host.Outcome State Fault Refusal :=
  onCell s use 0x0C minor (size == 2) (fun key c =>
    let t := threshold c
    if 2 ^ 32 ≤ t then s.counterTrap key 0x01 n.toNat
    else if t ≤ (c.ccOf n).toNat then s.setCell key { c with a := c.a.retire size }
    else s)

/-- cwait (08 R177). -/
def execCwait (n a : BitVec 5) (imm : BitVec 12) (s : State) : Host.Outcome State Fault Refusal :=
  counterWait 4 0x0 n [a] (fun c => (c.a.reg a).toNat + imm.toNat) s

/-- The short cwait stands for A = 0 (08 R176). -/
def execCwaitShort (n v : BitVec 5) (s : State) : Host.Outcome State Fault Refusal :=
  counterWait 2 0x0 n [] (fun _ => v.toNat) s

/-- cwaitlt: the threshold counts the iterations of level k, this one included (08 R177). -/
def execCwaitlt (n k : BitVec 5) (imm : BitVec 12) (s : State) : Host.Outcome State Fault Refusal :=
  counterWait 4 0x1 n [] (fun c => imm.toNat * ((c.a.pos.lx k.toNat).toNat + 1)) s

/-- Increment a counter of the cell itself. -/
def counterAdd (size : Nat) (n : BitVec 5) (v : Nat) (s : State) : Host.Outcome State Fault Refusal :=
  onCell s [] 0x0C 0x2 (size == 2) (fun key c => s.setCell key { c.addCount n v with a := c.a.retire size })

/-- cinc: the field holds v - 1 (08 R177). -/
def execCinc (n : BitVec 5) (imm : BitVec 12) (s : State) : Host.Outcome State Fault Refusal := counterAdd 4 n (imm.toNat + 1) s

/-- The short cinc (03 Table 3-4). -/
def execCincShort (n v1 : BitVec 5) (s : State) : Host.Outcome State Fault Refusal := counterAdd 2 n (v1.toNat + 1) s

/-- crinc sends an increment to a cell of the gang; to the cell itself it behaves as cinc (08 R175, R177). -/
def execCrinc (n a : BitVec 5) (imm : BitVec 12) (s : State) : Host.Outcome State Fault Refusal :=
  onCell s [a] 0x0C 0x3 false (fun key c =>
    let g := gangOfCell key
    let t := (c.a.reg a).toNat
    if ((s.gang? g).map (·.ncells)).getD 0 ≤ t then s.counterTrap key 0x02 n.toNat
    else if t = indexOfCell key then s.setCell key { c.addCount n (imm.toNat + 1) with a := c.a.retire 4 }
    else (s.setCell key { c with a := c.a.retire 4 }).modGang g (fun x =>
      { x with incs := x.incs ++ [{ sender := indexOfCell key, target := t, counter := n, amount := imm.toNat + 1 }] }))

def Cmd.flags (c : Cmd) : EngineFlags := c.instr.flags

/-- cset waits until every command that names the counter has completed (08 R177). -/
def execCset (n a : BitVec 5) (s : State) : Host.Outcome State Fault Refusal :=
  onCell s [a] 0x0C 0x4 false (fun key c =>
    if c.cmds.any (fun x => x.flags.ce && x.flags.cnt == n) then s
    else s.setCell key { c.setCc n ((c.a.reg a).setWidth 32) with a := c.a.retire 4 })

/-- cread (08 R177). -/
def execCread (d n : BitVec 5) (s : State) : Host.Outcome State Fault Refusal :=
  onCell s [d] 0x0C 0x5 false (fun key c =>
    s.setCell key { c with a := (c.a.setReg d ((c.ccOf n).setWidth 64)).retire 4 })

/-- cstat reads, and with clr clears, the CSW in one update (08 R177). -/
def execCstat (d n : BitVec 5) (clr : BitVec 12) (s : State) : Host.Outcome State Fault Refusal :=
  onCell s [d] 0x0C 0x6 false (fun key c =>
    let v := c.cswOf n
    let c := if clr = 1 then c.setCsw n 0 else c
    s.setCell key { c with a := (c.a.setReg d v).retire 4 })

/-- An increment arrives; an exited cell's are discarded (08 R170, R175). -/
def State.crincDue (s : State) (gang idx : Nat) : Bool :=
  match s.gang? gang with
  | none => false
  | some g =>
    match g.incs[idx]? with
    | none => false
    | some x => g.state.runs &&
        !(g.incs.take idx).any (fun y => y.sender == x.sender && y.target == x.target && y.counter == x.counter)

/-- CRINC_ARRIVAL (08 R170). -/
def execCrincArrival (gang idx : Nat) (s : State) : Host.Outcome State Fault Refusal :=
  event (s.crincDue gang idx) s
    (match (s.gang? gang).bind (·.incs[idx]?) with
     | none => s
     | some x =>
       (s.modCell (cellKey gang x.target) (fun c => if c.gone then c else c.addCount x.counter x.amount)).modGang gang
         (fun g => { g with incs := g.incs.eraseIdx idx }))

/-! ## Tile tags (08 R186) -/

/-- The tiles of a tag form: path checks first, then counter fault 0x03, whose INFO is 0 since a tag form names no
counter (log 104), then the end of the slice, then the way to it; a count of 0 is checked too (log 116). -/
def State.tagForm (s : State) (key : Nat) (a : Word) (count : Nat) (k : Option Nat → State) : State :=
  let ag := Agent.aseq key
  let code := s.pathCode ag a 1 false
  let p := bits a.toNat 63 60
  if code ≠ 0 then s.pathTrap ag code a
  else if (p ≠ 1 && p ≠ 3) || a.toNat % 4096 ≠ 0 then s.counterTrap key 0x03 0
  else if 2 ^ 18 < count then s.pathTrap ag 0x05 a
  else
    let last := if count = 0 then a.toNat else a.toNat + 4096 * (count - 1)
    if bits last 63 30 ≠ bits a.toNat 63 30 then s.pathTrap ag 0x05 a
    else match s.sliceTarget ag last with
      | .code c => s.pathTrap ag c a
      | _ => match s.resolve ag true a .read with
        | .place l => k l
        | .pathFault c => s.pathTrap ag c a
        | .xlatFault c => s.xlatTrap ag c a

/-- Set V of `n` tiles; claims stay. -/
def State.setTags (s : State) (loc : Nat) (v : Bool) : Nat → State
  | 0 => s
  | n + 1 => (s.setTag loc v (s.tagC loc)).setTags (loc + 4096) v n

def tagSet (minor : Nat) (cnt a : BitVec 5) (v : Bool) (s : State) : Host.Outcome State Fault Refusal :=
  onCell s [cnt, a] 0x0C minor false (fun key c =>
    s.tagForm key (c.a.reg a) (c.a.reg cnt).toNat (fun loc =>
      let s := match loc with
        | some l => s.setTags l v (c.a.reg cnt).toNat
        | none => s
      s.modCell key (fun c => { c with a := c.a.retire 4 })))

/-- tinv (08 R186). -/
def execTinv (c a : BitVec 5) (s : State) : Host.Outcome State Fault Refusal := tagSet 0x7 c a false s

/-- tval (08 R186). -/
def execTval (c a : BitVec 5) (s : State) : Host.Outcome State Fault Refusal := tagSet 0x7 c a true s

/-- tread (08 R186); a tile of the slice of an exited cell gives 0 (log 114). -/
def execTread (d a : BitVec 5) (s : State) : Host.Outcome State Fault Refusal :=
  onCell s [d, a] 0x0C 0x7 false (fun key c =>
    s.tagForm key (c.a.reg a) 1 (fun loc =>
      let v := match loc with
        | some l => s.tagV l
        | none => false
      s.setCell key { c with a := (c.a.setReg d (if v then 1 else 0)).retire 4 }))

end Sys2Proof.Machine
end

