-- ==== Sys2Proof/Machine/Gangs.lean ====
section
/-! DEFINITION. Dies, units and their admission, charges for wear, the slices of cells, cell exit, gang exit and discard
(01 R12 to R22, 06 R130 to R132, 08 R173, 17 R334, 21 R405 to R411). -/

namespace Sys2Proof.Machine

/-! ## Dies and units -/

/-- The die fitted in a slot: type code (01 Tables 1-1, 1-2). -/
def slotType (slot : Nat) : Nat :=
  if slot = 0 then 1 else if slot ≤ 12 then 2 else if slot ≤ 16 then 3 else if slot ≤ 24 then 4 else if slot ≤ 26 then 5
  else if slot ≤ 28 then 6 else 0

/-- Units of a die type (01 Table 1-1). -/
def typeUnits : Nat → Nat
  | 1 => 16
  | 2 => 24
  | 3 => 32
  | 4 => 16
  | 5 => 16
  | 6 => 6
  | _ => 0

def slotUnits (slot : Nat) : Nat := typeUnits (slotType slot)

def CellType.code : CellType → Nat
  | .matrix => 2
  | .vector => 3
  | .gather => 5

/-- The cell type of a die type; none for dies without cells. -/
def cellTypeOf : Nat → Option CellType
  | 2 => some .matrix
  | 3 => some .vector
  | 5 => some .gather
  | _ => none

/-- The package has the cell (01 R12, R13; 21 R413). -/
def fittedCell (slot unit : Nat) : Bool := (cellTypeOf (slotType slot)).isSome && decide (unit < slotUnits slot)

def mixSt (w : BitVec 32) : Nat := bits w.toNat 7 6
def mixCl (w : BitVec 32) : Nat := bits w.toNat 5 4
def mixType (w : BitVec 32) : Nat := bits w.toNat 3 0

def State.mix (s : State) (slot : Nat) : BitVec 32 := s.diemix[slot % 32]'(Nat.mod_lt _ (by decide))
def State.avail (s : State) (slot : Nat) : BitVec 32 := s.diecell[slot % 32]'(Nat.mod_lt _ (by decide))

/-- The mix bit (01 R15, 23 R432). -/
def State.mixUp (s : State) : Bool := s.rdymap0.getLsbD 0

def State.setLife (s : State) (u : Nat) (l : UnitLife) : State := { s with life := s.life.insert u l }

/-- The mix as a dispatch decision of this cycle finds it (01 R22). -/
def State.viewMix (s : State) (slot : Nat) : BitVec 32 := s.view.diemix[slot % 32]'(Nat.mod_lt _ (by decide))
def State.viewAvail (s : State) (slot : Nat) : BitVec 32 := s.view.diecell[slot % 32]'(Nat.mod_lt _ (by decide))

/-- The wear state of a unit as a dispatch decision of this cycle finds it (21 R406). -/
def State.viewWear (s : State) (u : Nat) : BitVec 2 := (s.view.life.getD u UnitLife.new).wstate

/-- A gang stands on the unit, or has been placed on it. -/
def State.unitBusy (s : State) (slot unit : Nat) : Bool :=
  s.cells.any (fun p => !p.2.gone && p.2.slot == slot && p.2.unit == unit)

/-- The unit waits for the incoming gang of a pswap (18 R368). -/
def State.unitReserved (s : State) (slot unit : Nat) : Bool :=
  s.parked.any (fun p => p.2.cell.slot == slot && p.2.cell.unit == unit &&
    (s.part (partOfCell p.1)).swaps.any (fun w => w.inGid == some (gidOfGang (gangOfCell p.1))))

def State.shareHas (s : State) (p slot unit : Nat) : Bool :=
  ((s.part p).layout.share[slot % 32]'(Nat.mod_lt _ (by decide))).getLsbD unit

/-- Wear states that dispatch admits (21 Table 21-1, R411; 16 R316). -/
def wearAdmits (timed derated : Bool) (wstate : BitVec 2) : Bool :=
  match wstate.toNat with
  | 0 => !derated
  | 1 => !timed
  | _ => false

/-- The unit is admissible in the partition's share of a cluster (01 R21, R22; 17 R338; 21 R406). -/
def State.admissible (s : State) (p cl : Nat) (t : CellType) (timed derated : Bool) (slot unit : Nat) : Bool :=
  let m := s.viewMix slot
  decide (mixSt m = 1) && decide (mixCl m = cl) && decide (mixType m = t.code) && (s.viewAvail slot).getLsbD unit &&
    s.shareHas p slot unit && wearAdmits timed derated (s.viewWear (unitKey slot unit))

/-- Insert a unit by band key, keeping earlier units before later ones of the same key (21 R407). -/
def insertByKey (k : Nat) (u : Nat) : List (Nat × Nat) → List (Nat × Nat)
  | [] => [(k, u)]
  | (j, v) :: rest => if k < j then (k, u) :: (j, v) :: rest else (j, v) :: insertByKey k u rest

/-- The admissible units, in ascending band key, then slot and unit (21 R407). -/
def State.admissibleUnits (s : State) (p cl : Nat) (t : CellType) (timed derated : Bool) : List Nat :=
  let units := (List.range 27).flatMap (fun slot =>
    ((List.range (slotUnits slot)).filter (fun u => s.admissible p cl t timed derated slot u)).map (unitKey slot))
  (units.foldl (fun acc u => insertByKey (s.unitLife u).key.toNat u acc) []).map (·.2)

/-- Those on which no gang stands. -/
def State.freeUnits (s : State) (p cl : Nat) (t : CellType) (timed derated : Bool) : List Nat :=
  (s.admissibleUnits p cl t timed derated).filter (fun u => !s.unitBusy (u / 32) (u % 32) && !s.unitReserved (u / 32) (u % 32))

/-! ## Charges (21 R408 to R411) -/

def satAdd64 (a b : Nat) : Word := BitVec.ofNat 64 (min (a + b) (2 ^ 64 - 1))

def Partition.quotaOn (p : Partition) : Bool := p.wqtab.getLsbD 0

/-- The address of a context's entry (21 R409). -/
def Partition.quotaEntry (p : Partition) (ctx : Nat) : Word := BitVec.ofNat 64 (bits p.wqtab.toNat 47 20 * 2 ^ 20 + 16 * ctx)

def State.quotaErr (s : State) (p : Nat) : State := s.setPart p { s.part p with wqtab := (s.part p).wqtab ||| 2 }

/-- Add a charge to CHARGED of a context: one atomic add that saturates; a fault sets ERR (21 R410). -/
def State.addCharge (s : State) (p : Nat) (ctx : Option Nat) (w : Word) : State :=
  match ctx with
  | none => s
  | some c =>
    if !(s.part p).quotaOn then s
    else
      let a := (s.part p).quotaEntry c + 8
      match s.deviceSpan p a 8 .atomic with
      | none => s.quotaErr p
      | some ls =>
        if s.placesPoisoned ls then s.quotaErr p
        else s.writePlaces ls (leBytes 8 (satAdd64 (leValue (s.readPlaces ls)) w.toNat).toNat)

/-- What the dispatcher finds of a context's quota (21 R411): exhausted, and whether the read faulted. -/
def State.quotaRead (s : State) (p ctx : Nat) : Bool × Bool :=
  let pt := s.part p
  if pt.wpol = 0 || !pt.quotaOn then (false, false)
  else match s.deviceSpan p (pt.quotaEntry ctx) 16 .read with
    | none => (true, true)
    | some ls =>
      if s.placesPoisoned ls then (true, true)
      else
        let bs := s.readPlaces ls
        let quota := leValue (bs.take 8)
        (decide (quota ≠ 0) && decide (quota ≤ leValue (bs.drop 8)), false)

/-- The context of a gang's launch. -/
def State.gangCtx (s : State) (g : Nat) : Option Nat :=
  ((s.gang? g).bind (·.launch)).bind (fun l => (s.launches.find? l).map (·.ctx))

/-- A gang's time on its cells begins at `b` (17 R334, 21 R408). -/
def State.openStays (s : State) (g : Nat) (b : Word) : State :=
  { s with stays := s.stays ++ ((s.gangCells g).filter (fun p => !p.2.gone)).map (fun p =>
      { unit := unitKey p.2.slot p.2.unit, gang := g, uid := ((s.gang? g).map (·.uid)).getD 0,
        launch := (s.gang? g).bind (·.launch), part := partOfGang g, ctx := s.gangCtx g, start := b, stop := none }) }

def Stay.close (x : Stay) (now : Word) : Stay := if x.stop.isNone then { x with stop := some now } else x

/-- A gang's time on one cell ends; what it owes for the interval that runs is settled at its end (log 15). -/
def State.closeStay (s : State) (g unit : Nat) : State :=
  { s with stays := s.stays.map (fun x => if x.gang = g && x.unit = unit then x.close s.now else x) }

def State.closeStays (s : State) (g : Nat) : State :=
  { s with stays := s.stays.map (fun x => if x.gang = g then x.close s.now else x) }

/-- The charge so far is added to CHARGED when a gang exits, is discarded or is parked (21 R410). -/
def State.postCharge (s : State) (g : Nat) : State :=
  match s.gang? g with
  | none => s
  | some gg => ((s.addCharge (partOfGang g) (s.gangCtx g) gg.wear).modGang g (fun x => { x with wear := 0 })).closeStays g

/-! ## Slices (06 R130, R132; 07 R149; 08 R184) -/

/-- Every byte of a slice 0, with no mark, tag, poison, upset or waggle expectation. -/
def State.clearSlice (s : State) (u size : Nat) : State :=
  let lo := sliceLoc u 0
  let hi := lo + size
  { s with
    mem := s.mem.dropRange lo hi
    marks := s.marks.dropRange (lo / 64) (hi / 64)
    tags := s.tags.dropRange (lo / 4096) (hi / 4096)
    poison := s.poison.dropRange (lo / 8) (hi / 8)
    upsets := s.upsets.filter (fun u => decide (u < lo / 8) || decide (hi / 8 ≤ u))
    waggles := s.waggles.dropRange lo hi }

/-- Both loop buffers are empty: the words of a loop are fetched again (03 R57, 18 R361). -/
def Cell.unbuffered (c : Cell) : Cell :=
  { c with a := { c.a with pos := { c.a.pos with buf := [] } }, x := { c.x with pos := { c.x.pos with buf := [] } } }


def State.clearCellSlice (s : State) (c : Cell) : State := s.clearSlice c.unitOf c.ctype.sliceSize

/-- The claims of a command that is discarded or fails are given up (08 R185). -/
def State.dropClaims (s : State) (key : Nat) (x : Cmd) : State :=
  (x.claims.filter (fun t => !x.passed.contains t)).foldl (fun s t =>
    match s.combLoc (partOfCell key) (some (gangOfCell key)) (t * 4096) with
    | .at_ l => s.setTag l (s.tagV l) false
    | _ => s) s

/-- The nominal clock of a derated cell is held for a timed gang until it leaves (21 R406). -/
def State.leaveUnit (s : State) (u : Nat) : State :=
  match s.life.find? u with
  | some l => s.setLife u { l with nomhold := false }
  | none => s

/-! ## Launches learn of kernels (17 R332, R338) -/

def addSat32 (a b : BitVec 32) : BitVec 32 := BitVec.ofNat 32 (min (a.toNat + b.toNat) (2 ^ 32 - 1))

def addFpx (a b : Vector (BitVec 32) 24) : Vector (BitVec 32) 24 := Vector.zipWith addSat32 a b

def StreamCmd.done (c : StreamCmd) : Bool := c.status.isSome

/-- A command of a launch completes with a status, once. -/
def Launch.complete (l : Launch) (handle status : Nat) : Launch :=
  let hit (c : StreamCmd) : Bool := c.handle == handle && !c.done
  { l with
    nkern := if l.cmds.any (fun c => hit c && c.kind == .klaunch) && status == 0 then addSat32 l.nkern 1 else l.nkern
    cmds := l.cmds.map (fun c => if hit c then { c with status := some status, gang := none } else c) }

/-- The launch that a gang's klaunch belongs to: its own, or for a restored gang the one its link names (18 R371). -/
def State.gangLaunch (s : State) (g : Nat) (gg : Gang) : Option Nat :=
  match gg.launch with
  | some l => if (s.launches.find? l).isSome then some l else none
  | none =>
    ((s.launches.filter (fun p => p.2.part == partOfGang g && p.2.queue == gg.queue && p.2.seq == gg.seq &&
      p.2.cmds.any (fun c => c.handle == gg.handle && c.kind == .klaunch && !c.done))).head?).map (·.1)

/-- The event record of a restored gang that has no launch here (18 Table 18-1, kind 0x14). -/
def State.restoredExit (s : State) (g : Nat) (gg : Gang) (status : Nat) : State :=
  s.report (partOfGang g)
    { kind := 0x14, code := status, cls := .event, sq := false, eng := false, cc := false, cell := 0, gid := gidOfGang g,
      queue := gg.queue, seq := gg.seq, info := 0, cyc := s.now, pc := 0, addr := gg.saveArea }

/-- Mirrored writes of a discarded owner stay due to the neighbour, and complete nothing (22 R420). -/
def State.orphanMirrors (s : State) (p : Nat) (mine : MirrorOwner → Bool) : State :=
  let pt := s.part p
  s.setPart p { pt with mirrorOut := pt.mirrorOut.map (fun w => if mine w.owner then { w with owner := .nobody } else w) }

def ofGang (g : Nat) : MirrorOwner → Bool
  | .access ag _ => ag.gang? == some g
  | .command cell _ => gangOfCell cell == g
  | _ => false

/-- Every claim that a gang's commands hold is given up, also those of a gang that stands in cap banks (08 R185). -/
def State.dropGangClaims (s : State) (g : Nat) : State :=
  (s.gangCells g ++ (s.parked.filter (fun p => gangOfCell p.1 == g)).map (fun p => (p.1, p.2.cell))).foldl
    (fun s p => p.2.cmds.foldl (fun s x => s.dropClaims p.1 x) s) s

/-- Every trace of a gang in its cells and buffers is given back: slices reclaimed, clocks released. -/
def State.freeGang (s : State) (g : Nat) : State :=
  let s := (s.gangCells g).foldl (fun s p => if p.2.gone then s else (s.clearCellSlice p.2).leaveUnit p.2.unitOf) s
  { (s.orphanMirrors (partOfGang g) (ofGang g)) with
    cells := s.cells.dropRange (g * 512) (g * 512 + 512)
    parked := s.parked.dropRange (g * 512) (g * 512 + 512)
    gangs := s.gangs.remove g }

/-- Totals and DNDF of a gang's cells, those exited and those that stand. -/
def State.gangDndf (s : State) (g : Nat) (gg : Gang) : Bool :=
  gg.dndf || (s.gangCells g).any (fun p => p.2.dndf) ||
    (s.parked.any (fun p => gangOfCell p.1 == g && p.2.cell.dndf))

/-- A gang ends, with a status for its klaunch: it has exited, or it is discarded (08 R173; 17 R333, R338; 18 R361). -/
def State.endGang (s : State) (g : Nat) (status : Nat) : State :=
  match s.gang? g with
  | none => s
  | some gg =>
    let s := s.postCharge g
    let dn := s.gangDndf g gg
    let s := match s.gangLaunch g gg with
      | some l => s.modLaunch l (fun x => { x.complete gg.handle status with fpx := addFpx x.fpx gg.fpx, dndf := x.dndf || dn })
      | none => if gg.launch.isNone then s.restoredExit g gg status else s
    (s.dropGangClaims g).freeGang g

/-- The gang is in a pswap or ctxsv (18 Table 18-7, code 0x0B). -/
def State.inExchange (s : State) (g : Nat) : Bool :=
  let pt := s.part (partOfGang g)
  pt.swaps.any (fun w => w.outGid == some (gidOfGang g) || w.inGid == some (gidOfGang g)) ||
    pt.saves.any (fun v => v.gid == gidOfGang g)

/-- The gang is in a pswap: a cancel or kill takes effect when the exchange ends (18 R368). -/
def State.inSwap (s : State) (g : Nat) : Bool :=
  (s.part (partOfGang g)).swaps.any (fun w => w.outGid == some (gidOfGang g) || w.inGid == some (gidOfGang g))

/-- What stands in the replay queue is discarded with its gang (20 R398). -/
def Cell.dropReplay (c : Cell) : Cell := { c with a := { c.a with out := c.a.issued } }

/-- Committed accesses, releases or xfers of the gang are still to be performed (06 R136, 07 R168, 20 R398). -/
def State.unperformed (s : State) (g : Nat) : Bool := (s.gangCells g).any (fun p => p.2.a.issued.any (fun x => !x.mirrored))

/-- Discard a gang. One in a swap is discarded when the exchange ends (18 R368). One with committed accesses, releases or
xfers stops without its replay entries, and is discarded once those are performed (06 R136, 07 R168, 20 R398). -/
def State.discardGang (s : State) (g : Nat) (status : Nat) : State :=
  if s.inSwap g then s.modGang g (fun x => { x with doomed := some status })
  else if s.unperformed g then
    ((s.gangCells g).foldl (fun s p => s.modCell p.1 Cell.dropReplay) s).modGang g (fun x => { x with state := .stopped, doomed := some status })
  else s.endGang g status

/-! ## Cell exit and gang exit (04 R86, 06 R132, 07 R167, 09 R194, 11 R258) -/

/-- Banks held. -/
def Cell.heldBanks (c : Cell) : Nat := (List.range 256).countP (fun b => c.banks.getLsbD b)

/-- A cell that has exited keeps its index, its role and its place, and nothing else (17 R334). -/
def Cell.exited (c : Cell) : Cell :=
  let f := Cell.fresh c.ctype c.slot c.unit 0 0 (Vector.replicate 16 0)
  { f with
    role := c.role, r := c.r, nR := c.nR, gone := true, dndf := false, trap := c.trap
    a := { f.a with pos := { f.a.pos with exited := true } }
    x := { f.x with pos := { f.x.pos with exited := true } } }

/-- Both EXITED bits are set, and every access, move, operation and engine command has completed. -/
def Cell.canExit (c : Cell) : Bool :=
  !c.gone && c.a.pos.exited && c.x.pos.exited && c.a.out.isEmpty && c.x.moves.isEmpty && c.x.ops.isEmpty && c.cmds.isEmpty &&
    c.lanes.all (fun l => !l.opened)

def State.cellExitDue (s : State) (key : Nat) : Bool :=
  match s.cell? key with
  | some c => s.cellRuns key c && c.canExit
  | none => false

/-- CELL_EXIT: the slice and banks are reclaimed and the unit is free; held banks raise the accumulator-leak fault. -/
def execCellExit (cell : Nat) (s : State) : Host.Outcome State Fault Refusal :=
  event (s.cellExitDue cell) s
    (match s.cell? cell with
     | none => s
     | some c =>
       let n := c.heldBanks
       if n ≠ 0 then
         (s.setCell cell { c with banks := 0, elems := [], tiles := [], poisonElems := [] }).raiseTrap (.aseq cell) 0x0D 0x04 .fatal
           (BitVec.ofNat 64 n) 0
       else
         (((((s.clearCellSlice c).leaveUnit c.unitOf).closeStay (gangOfCell cell) c.unitOf).setCell cell c.exited).modGang
           (gangOfCell cell) (fun g => { g with fpx := addFpx g.fpx c.fpc, dndf := g.dndf || c.dndf })))

def State.gangExitDue (s : State) (g : Nat) : Bool :=
  match s.gang? g with
  | some gg => (s.part (partOfGang g)).live &&
      ((gg.state.runs && (s.gangCells g).all (·.2.gone) && !s.inExchange g) ||
        (gg.state == .stopped && gg.doomed.isSome && !s.unperformed g))
  | none => false

/-- The status with which a gang ends: 0x00, or that of the cancel or kill that has stopped it. -/
def State.exitStatus (s : State) (g : Nat) : Nat := ((s.gang? g).bind (·.doomed)).getD 0

/-- GANG_EXIT: the kernel completes with status 0x00 (07 R167, 17 R338); a discarded gang leaves with its status, once what it
had issued is performed (20 R398). -/
def execGangExit (gang : Nat) (s : State) : Host.Outcome State Fault Refusal :=
  event (s.gangExitDue gang) s (s.endGang gang (s.exitStatus gang))

end Sys2Proof.Machine
end

