-- ==== Sys2Proof/Machine/Point.lean ====
section
/-! DEFINITION. Pre-emption points (18 R365): where a halt request finds the A-seq of a cell. -/

namespace Sys2Proof.Machine

/-- An MSK command of the cell has not completed: bmz stalls (11 R257). -/
def Cell.mskBusy (c : Cell) : Bool := c.cmds.any (fun x => x.instr.opcode.1 = 0x15)

/-- The acquire of an object waits for its condition (07 R168). -/
def State.acqStalls (s : State) (ag : Agent) (a v : Word) (m : BitVec 5) : Bool :=
  match s.objTarget ag a with
  | .object _ (some l) => s.marked l && !s.acqOpen l (m.extractLsb' 3 2).toNat v
  | _ => false

/-- The word at PC is one whose stall is marked as stoppable, and it stalls (07 R168, 08 R174, 11 R257, 17 R345). -/
def State.stallsAtPoint (s : State) (key : Nat) (c : Cell) (i : Instr) : Bool :=
  match i with
  | .acq d a b m => !c.a.pending [d, a, b] && s.acqStalls (.aseq key) (c.a.reg a) (c.a.reg b) m
  | .fence _ => s.fenceBusy (.aseq key) c.a
  | .gbar => s.fenceBusy (.aseq key) c.a
  | .cwait n a imm => !c.a.pending [a] && c.belowCount n ((c.a.reg a).toNat + imm.toNat)
  | .cwaitShort n v => c.belowCount n v.toNat
  | .cwaitlt n k imm => c.belowCount n (imm.toNat * ((c.a.pos.lx k.toNat).toNat + 1))
  | .bmz _ => c.mskBusy
  | _ => false

/-- The cell stands at a pre-emption point: a boundary, a stoppable stall, the end of both streams, or a trap. -/
def State.atPoint (s : State) (key : Nat) (c : Cell) : Bool :=
  c.trap.isSome || c.a.pos.boundary || c.waiting.isSome || (c.a.pos.exited && c.x.pos.exited) ||
    (!c.a.pos.exited && c.until_.isNone && (match s.fetch (.aseq key) c.a.pos false with
      | .word i => s.stallsAtPoint key c i
      | _ => false))

/-- Commands that have not started stay queued from the cell's point on while a halt request is outstanding (18 R366). -/
def State.mayStart (s : State) (key : Nat) (c : Cell) : Bool :=
  match s.gang? (gangOfCell key) with
  | some g => g.state == .resident || (g.state == .halting && !s.atPoint key c)
  | none => false

end Sys2Proof.Machine
end

