-- ==== Sys2Proof/Machine/Time.lean ====
section
/-! DEFINITION. Package time as programs see it, realign and twait, base cycles, and the rate steps of links
(15 R310 to R312, 16). -/

namespace Sys2Proof.Machine

/-- A time trap (16 R320); ADDR is the stamp or target, INFO the cycle. -/
def State.timeTrap (s : State) (ag : Agent) (code : Nat) (at_ : Word) : State :=
  s.raiseTrap ag 0x0F code (if 1 ≤ code && code ≤ 3 then .replayable else .fatal) s.now at_

/-- `t` is now or has passed. -/
def reached (t now : Word) : Bool := decide ((now - t).toNat < 2 ^ 63)

/-! ## Links (15 R311, R312) -/

def linkStep (w : Word) : Nat := bits w.toNat 1 0
def linkPend (w : Word) : Nat := bits w.toNat 5 4

/-- The port leads to the neighbour package: ports 0 to 5 of the switch dies (01 Table 1-1, log 95). -/
def isPackageLink (n : Nat) : Bool := (n / 8 == 27 || n / 8 == 28) && decide (n % 8 < 6)

/-- The slots of the dies at the ends of the link of a port: its own die, and the die at the other end if the link stays in
the package. Which die that is, the spec does not give (log 13). -/
def linkDies (n : Nat) : List Nat := if isPackageLink n then [n / 8] else [n / 8, Config.linkPeer n]

/-- The registers of the ports of links between two of the dies that hold cells of the gang (16 R323). -/
def State.gangLinks (s : State) (g : Nat) : List Nat :=
  (s.lnkst.filter (fun p => !isPackageLink p.1 && (linkDies p.1).all (fun d => (s.gangCells g).any (fun c => c.2.slot = d)))).map (·.1)

/-- The highest step among the links between the gang's dies (16 R323). -/
def State.gangStep (s : State) (g : Nat) : Nat :=
  (s.gangLinks g).foldl (fun acc n => max acc (linkStep (s.lnkst.getD n 0))) 0

/-- STEP := PEND; a step change clears FECC (15 Table 15-5). -/
def applyPend (w : Word) : Word :=
  if linkPend w = linkStep w then w
  else (w &&& ~~~0x0000FFFF00000003#64) ||| BitVec.ofNat 64 (linkPend w)

/-- Pending steps of the links of a gang's dies take effect (15 R312, 16 R323). -/
def State.applyPends (s : State) (g : Nat) : State :=
  { s with lnkst := (s.gangLinks g).foldl (fun m n => AMap.modify m n applyPend) s.lnkst }

/-- The same-cluster latency of 16 Table 16-1. -/
def clusterLatency : Nat → Nat
  | 0 => 96
  | 1 => 112
  | _ => 144

/-! ## Reads of time (16 R322) -/

/-- DET of the agent's partition (23 R428). -/
def State.det (s : State) (ag : Agent) : Bool := (s.part (s.agentPart ag)).layout.det

def State.setDndf (s : State) (ag : Agent) (v : Bool) : State :=
  match ag with
  | .core k => s.setCore k { s.core k with dndf := v }
  | ag => match ag.cell? with
    | some key => s.modCell key (fun c => { c with dndf := v })
    | none => s

/-- Deliver a read of time: a deterministic partition reads 0 and records it in DNDF. -/
def State.timeRead (s : State) (ag : Agent) (q : ASeq) (d : BitVec 5) (exposes : Bool) (v : Word) : State :=
  if exposes && s.det ag then (s.finish ag (q.setReg d 0) 4).setDndf ag true else s.finish ag (q.setReg d v) 4

/-- A form that control cores lack: they take time fault 0x05, with the form's stamp or target (16 R320, R321). -/
def onCellTime (s : State) (use : List (BitVec 5)) (k : Nat → Cell → State) (target : ASeq → Word := fun _ => 0) :
    Host.Outcome State Fault Refusal :=
  onA s use (fun ag q =>
    match ag with
    | .aseq key => match s.cell? key with
      | some c => k key c
      | none => s
    | ag => s.timeTrap ag 0x05 (target q))

/-- rdcyc (16 R322). -/
def execRdcyc (d : BitVec 5) (s : State) : Host.Outcome State Fault Refusal :=
  onA s [d] (fun ag q => s.timeRead ag q d true s.now)

def State.gangBase (s : State) (key : Nat) : Word := ((s.gang? (gangOfCell key)).map (·.base)).getD 0

/-- rdgcyc (16 R322). -/
def execRdgcyc (d : BitVec 5) (s : State) : Host.Outcome State Fault Refusal :=
  onCellTime s [d] (fun key c => s.timeRead (.aseq key) c.a d true (s.now - s.gangBase key))

/-- PHYSID (16 R322). -/
def Cell.physid (c : Cell) : Word := BitVec.ofNat 64 (c.slot * 2 ^ 11 + c.unit * 2 ^ 5)

/-- rdtinf (16 R322). -/
def execRdtinf (d sel : BitVec 5) (s : State) : Host.Outcome State Fault Refusal :=
  onCellTime s [d] (fun key c =>
    let ag := Agent.aseq key
    match sel.toNat with
    | 0 => s.timeRead ag c.a d true c.physid
    | 1 => s.timeRead ag c.a d true c.schmiss
    | 2 => s.timeRead ag c.a d false (if c.dndf then 1 else 0)
    | _ => (s.timeRead ag c.a d false (if c.dndf then 1 else 0)).setDndf ag false)

/-! ## twait (16 R324) -/

/-- A timed form that a time fault has stopped goes on as elastic (16 R320). -/
def Cell.timedNow (c : Cell) (t : BitVec 5) : Bool := t = 1 && !c.asElastic

/-- twait: a target before the cycle of issue has passed; on the cycle of issue itself it retires at once (log 14). -/
def execTwait (a t : BitVec 5) (s : State) : Host.Outcome State Fault Refusal :=
  onCellTime s [a] (fun key c =>
    let target := s.gangBase key + c.a.reg a
    if reached target s.now then
      if c.timedNow t && target != s.now then (s.setCell key { c with asElastic := true }).timeTrap (.aseq key) 0x02 (c.a.reg a)
      else
        let slip := s.now - target
        s.setCell key { c with a := c.a.retire 4, asElastic := false,
                               schmiss := if slip = 0 then c.schmiss else addSlip c.schmiss slip }
    else s.setCell key { c with until_ := some target }) (·.reg a)

def State.twaitDue (s : State) (key : Nat) : Bool :=
  match s.cell? key with
  | some c => s.cellRuns key c && (match c.until_ with
      | some t => reached t s.now
      | none => false)
  | none => false

/-- The target of a twait is reached (16 R324). -/
def execTwaitExpiry (cell : Nat) (s : State) : Host.Outcome State Fault Refusal :=
  event (s.twaitDue cell) s
    (s.modCell cell (fun c => { c with until_ := none, a := c.a.retire 4, asElastic := false, phase := s.now }))

/-! ## realign (16 R323) -/

/-- realign: the A-seq arrives and stalls. -/
def execRealign (a t : BitVec 5) (s : State) : Host.Outcome State Fault Refusal :=
  onCellTime s [a] (fun key c =>
    s.setCell key { c with waiting := some (.realign (c.a.reg a) (c.timedNow t) s.now) }) (·.reg a)

/-- The arrivals of the cells that have not exited: target, mode, cycle; none while one has not arrived. -/
def State.arrivals (s : State) (g : Nat) : Option (List (Word × Bool × Word)) :=
  ((s.gangCells g).filter (fun p => !p.2.gone)).foldr (fun p acc =>
    match p.2.waiting, acc with
    | some (.realign t m a), some l => some ((t, m, a) :: l)
    | _, _ => none) (some [])

/-- What the gang's realign comes to. -/
inductive RealignOutcome where
  | mismatch
  | missed (notice : Word)
  | resume (cycle slip : Word)
  deriving DecidableEq, Repr

/-- Steps 2 to 4 of 16 R323. -/
def State.realignOutcome (s : State) (g : Nat) : Option RealignOutcome :=
  match s.gang? g, s.arrivals g with
  | some gg, some ((t, m, a) :: rest) =>
    if rest.any (fun r => r.1 != t || r.2.1 != m) then some .mismatch
    else
      let latest := rest.foldl (fun acc r => if reached acc r.2.2 then r.2.2 else acc) a
      let notice := latest + BitVec.ofNat 64 (clusterLatency (s.gangStep g))
      let goal := gg.base + t
      if reached notice goal then some (.resume goal 0)
      else if m then some (.missed notice)
      else some (.resume notice (notice - goal))
  | _, _ => none

def RealignOutcome.cycle (r : RealignOutcome) (now : Word) : Word :=
  match r with
  | .mismatch => now
  | .missed n => n
  | .resume c _ => c

def State.realignDue (s : State) (g : Nat) : Bool :=
  match s.gang? g, s.realignOutcome g with
  | some gg, some r => gg.state.runs && reached (r.cycle s.now) s.now &&
      (s.gangCells g).all (fun p => p.2.gone || s.cellRuns p.1 p.2)
  | _, _ => false

/-- The target that a cell waits for at its realign. -/
def Cell.realignTarget (c : Cell) : Word :=
  match c.waiting with
  | some (.realign t _ _) => t
  | _ => 0

/-- Cells stop waiting at their realigns and take a time trap, in the order of their index. -/
def State.trapCells (s : State) (cells : List (Nat × Cell)) (code : Nat) : State :=
  cells.foldl (fun s p =>
    (s.modCell p.1 (fun c => { c with waiting := none, asElastic := true })).timeTrap (.aseq p.1) code p.2.realignTarget) s

/-- The gang's realign resumes, misses on every cell, or fails: a fatal trap on one cell stops the others (16 R320, R323;
18 R347; log 21). -/
def execRealignResume (gang : Nat) (s : State) : Host.Outcome State Fault Refusal :=
  event (s.realignDue gang) s
    (match s.realignOutcome gang with
     | none => s
     | some .mismatch => s.trapCells (((s.gangCells gang).filter (fun p => !p.2.gone)).take 1) 0x04
     | some (.missed _) => s.trapCells ((s.gangCells gang).filter (fun p => !p.2.gone)) 0x03
     | some (.resume c slip) =>
       let s := s.modGangCells gang (fun x => { x with
         waiting := none, a := x.a.retire 4, asElastic := false, phase := s.now,
         schmiss := if slip = 0 then x.schmiss else addSlip x.schmiss slip })
       (s.modGang gang (fun g => { g with base := c })).applyPends gang)

/-! ## Base cycles (16 R315) -/

def State.baseDue (s : State) (g : Nat) : Bool :=
  match s.gang? g with
  | some gg => gg.state == .starting && reached gg.startsAt s.now && (s.part (partOfGang g)).live
  | none => false

/-- On cycle B, or that of a resume, the first words of the gang issue, on every cell. -/
def execGangBaseCycle (gang : Nat) (s : State) : Host.Outcome State Fault Refusal :=
  event (s.baseDue gang) s
    ((s.modGangCells gang (fun c => { c with phase := s.now })).modGang gang (fun g => { g with state := .resident }))

/-! ## Eye margins (15 R312) -/

/-- A prediction: PEND := STEP + 1; at step 2 the link is taken down and a fabric event is raised in every partition. With
a package link goes the link to the neighbour (22 R420, log 95). -/
def execEyeMarginPrediction (link : Nat) (s : State) : Host.Outcome State Fault Refusal :=
  let w := s.lnkst.getD link 0
  if 256 ≤ link || w.getLsbD 6 then .next s
  else if linkStep w < 2 then
    .next { s with lnkst := s.lnkst.insert link ((w &&& ~~~0x30#64) ||| BitVec.ofNat 64 ((linkStep w + 1) * 16)) }
  else
    let t := { s with lnkst := s.lnkst.insert link (w ||| 0x40), packageUp := s.packageUp && !isPackageLink link }
    .next ((List.range 8).foldl (fun t p =>
      if (t.part p).formed then t.report p
        { kind := 0x12, code := 0, cls := .event, sq := false, eng := false, cc := false, cell := 0, gid := 0, queue := 0,
          seq := 0, info := BitVec.ofNat 64 (linkStep w), cyc := t.now, pc := 0, addr := BitVec.ofNat 64 link }
      else t) t)

end Sys2Proof.Machine
end

