-- ==== Sys2Proof/Machine/Engine.lean ====
section
/-! DEFINITION. What every engine command has in common: ranges, issue, the conditions of a start, reads and writes of
operands, tile tags, failure and completion (07 R154, R166; 08 R171 to R185; 16 R317, R318). -/

namespace Sys2Proof.Machine

/-! ## Operands -/

/-- What a part of a command's work meets. -/
inductive Eng (α : Type) where
  | ok (a : α)
  /-- A replayable translation fault: OPND, address and code. -/
  | fault (opnd : Nat) (addr : Word) (code : Nat)
  /-- The command fails with a status. -/
  | fail (status : Nat)

def Eng.map {α β : Type} (f : α → β) : Eng α → Eng β
  | .ok a => .ok (f a)
  | .fault o a c => .fault o a c
  | .fail c => .fail c

def Eng.bind {α β : Type} (e : Eng α) (f : α → Eng β) : Eng β :=
  match e with
  | .ok a => f a
  | .fault o a c => .fault o a c
  | .fail c => .fail c

/-- Two parts of one unit: a fatal fault comes first, then the replayable fault of the lower OPND, then another failure
(09 R213). -/
def Eng.both {α β : Type} (x : Eng α) (y : Eng β) : Eng (α × β) :=
  match x, y with
  | .ok a, .ok b => .ok (a, b)
  | .fail 6, _ => .fail 6
  | _, .fail 6 => .fail 6
  | .fault o a c, .fault o' a' c' => if o' < o then .fault o' a' c' else .fault o a c
  | .fault o a c, _ => .fault o a c
  | _, .fault o a c => .fault o a c
  | .fail c, _ => .fail c
  | _, .fail c => .fail c

def Eng.all {α : Type} : List (Eng α) → Eng (List α)
  | [] => .ok []
  | x :: rest => (x.both (Eng.all rest)).map (fun p => p.1 :: p.2)

def Eng.isOk {α : Type} : Eng α → Bool
  | .ok _ => true
  | _ => false

def Eng.isFault {α : Type} : Eng α → Bool
  | .fault .. => true
  | _ => false

/-- The places of a span of an operand. -/
def State.engSpan (s : State) (key opnd addr len : Nat) (pr : Probe) : Eng (List (Option Nat × Nat)) :=
  match s.span (.aseq key) true (BitVec.ofNat 64 addr) len pr with
  | .ok ls => .ok ls
  | .error (a, .xlatFault c) => if xlatReplayable c then .fault opnd a c else .fail 6
  | .error _ => .fail 6

/-- The bytes of an operand; poison fails the command with 0x01 (22 R417). On the read-only path a line that the cache of
the die holds is served from it (06 R127). -/
def State.engRead (s : State) (key opnd addr len : Nat) : Eng (List Byte) :=
  (s.engSpan key opnd addr len .read).bind (fun ls =>
    if s.placesPoisoned ls then .fail 1 else .ok (s.readPath (s.agentSlot (.aseq key)) (bits addr 63 60) ls))

/-- A span to be written: hardware-maintained bytes of an object fail the command with 0x05 (08 Table 8-2). -/
def State.engDest (s : State) (key opnd addr len : Nat) : Eng (List (Option Nat × Nat)) :=
  (s.engSpan key opnd addr len .write).bind (fun ls =>
    let bad (f : Nat → Nat → Bool) : Bool := ls.any (fun p => match p.1 with
      | some l => f l p.2
      | none => false)
    if bad s.hitsObject then .fail 5 else if bad s.partialPoison then .fail 1 else .ok ls)

/-- Write places, and leave no older line of them in the read-only cache of the die (06 R127); on the mirrored path every
piece is duplicated (22 R420). -/
def State.engWrite (s : State) (key id addr : Nat) (ls : List (Option Nat × Nat)) (bs : List Byte) : State :=
  let s := ls.foldl (fun s p => match p.1 with
    | some l => s.dropRo (s.agentSlot (.aseq key)) l p.2
    | none => s) (s.writePlaces ls bs)
  if bits addr 63 60 ≠ 5 then s else mirror s addr ls bs
where
  mirror (s : State) (a : Nat) : List (Option Nat × Nat) → List Byte → State
    | [], _ => s
    | (some l, n) :: rest, bs =>
      mirror (s.sendMirror (partOfCell key) (.command key id) a l (bs.take n)) (a + n) rest (bs.drop n)
    | (none, n) :: rest, bs => mirror s (a + n) rest (bs.drop n)

/-! ## Ranges (08 R179, R180) -/

def mkRange (key : Nat) (addr : Word) (len : Nat) (write tagged : Bool) : Rng :=
  { addr, name := compareName key addr.toNat, translated := isTranslated addr.toNat, len, write, tagged }

def Rng.meets (a b : Rng) : Bool :=
  decide (a.len ≠ 0) && decide (b.len ≠ 0) && a.translated == b.translated && overlap a.name a.len b.name b.len

/-- Two ranges that the checker orders: untagged, with a byte in common, at least one a write. -/
def Rng.conflicts (a b : Rng) : Bool := !a.tagged && !b.tagged && (a.write || b.write) && a.meets b

/-- C reads after E: a read range of C overlaps a write range of E (08 R181). -/
def readsAfter (c e : List Rng) : Bool := c.any (fun a => !a.write && !a.tagged && e.any (fun b => b.write && !b.tagged && a.meets b))

/-- The objects bound to the read or the write ranges in a binding table; an object's USER bytes
belong to it without an entry (07 R154, R166; log 102). -/
def State.rangeObjects (s : State) (key : Nat) (table : List Binding) (rs : List Rng) (write : Bool) : List Nat :=
  let g := gangOfCell key
  (rs.filter (fun r => r.write == write && r.len != 0)).foldl (fun acc r =>
    let fromTable := table.flatMap (fun b => b.objectsOf (s.gangCells g) r.translated r.name r.len)
    let user := if r.translated then [] else s.userObjects (.aseq key) r.name r.len
    (fromTable ++ user).foldl (fun acc x => insertAsc x acc) acc) []

/-- The issue-stage and memory-type checks of a range; pages that are not present are met later (09 R208, R213). A fatal
translation fault is found at the start too, but for the matrix engine, which meets it while fetching (09 Table 9-10, 13
Table 13-6, 14 R292, R299). -/
def State.rangeOk (s : State) (key : Nat) (matrix : Bool) (allowed : Nat → Bool) (written : Probe) (r : Rng) : Bool :=
  r.len = 0 || (allowed (bits r.addr.toNat 63 60) &&
    (spanPieces r.addr.toNat (r.len / 4096 + 2) r.len).all (fun p =>
      match s.access (.aseq key) true (BitVec.ofNat 64 p.1) 1 (if r.write then written else .read) with
      | .pathFault _ => false
      | .xlatFault c => matrix || xlatReplayable c
      | .place _ => true))

/-- Tiles of a comb span, by comb name / 4096. -/
def tilesOf (name len : Nat) : List Nat :=
  if len = 0 then [] else (List.range ((name + len - 1) / 4096 + 1 - name / 4096)).map (name / 4096 + ·)

/-- Status 0x03 or 0x04 of 08 R185. -/
def tagStatus (rs : List Rng) : Option Nat :=
  let tagged := rs.filter (fun r => r.tagged && r.len != 0)
  let comb (r : Rng) : Bool := let p := bits r.addr.toNat 63 60; p == 1 || p == 3
  if tagged.any (fun r => !comb r) then some 3
  else
    let w := (tagged.filter (·.write)).flatMap (fun r => tilesOf r.name r.len)
    if (tagged.filter (fun r => !r.write)).any (fun r => (tilesOf r.name r.len).any w.contains) then some 4 else none

/-! ## Issue (08 R180, R182; 16 R317, R318) -/

def Cmd.waiting (x : Cmd) : Bool := x.state == .queued

/-- Commands of a queue that have not started. -/
def Cell.queued (c : Cell) (q : Nat) : Nat := c.cmds.countP (fun x => x.queue == q && x.waiting)

/-- What a form gives of itself at issue. -/
structure Issue where
  ranges : List Rng
  tiles : List Nat
  dtile : Option Nat
  /-- The ranges are complete only with the contents of a slot. -/
  slotted : Bool
  deriving DecidableEq, Repr

/-- The write ranges whose objects REL releases: those of lopen are its destination alone (15 Table 15-1). -/
def relRanges (i : Instr) (rs : List Rng) : List Rng :=
  match i with
  | .lopen .. => rs.take 1
  | _ => rs

def Issue.plain (rs : List Rng) : Issue := { ranges := rs, tiles := [], dtile := none, slotted := false }

/-- A command that has passed its form's checks enters its queue, or stalls while the queue is full; `st` is the stamp
value of the stamp register. `post` completes the state of the A-seq. -/
def State.enqueue (s : State) (key : Nat) (c : Cell) (i : Instr) (vals : List Word) (st : Word) (w : Issue)
    (post : Cell → Cell := id) : State :=
  let q := i.engineQueue
  let e := i.flags
  let mode := i.stampMode
  let at_ := s.gangBase key + st
  let timed := mode == 1 && !c.asElastic
  if timed && reached at_ s.now && at_ ≠ s.now then
    (s.setCell key { c with asElastic := true }).timeTrap (.aseq key) 0x02 st
  else if 16 ≤ c.queued q then s
  else
    let table := ((s.gang? (gangOfCell key)).map (·.bindings)).getD []
    let x : Cmd :=
      { id := c.nextCmd, instr := i, vals, queue := q, slot := 0, state := .queued,
        startAt := if mode = 0 then none else some at_, elastic := !timed, prog := 0, aux := [], ranges := w.ranges,
        tiles := w.tiles, dtile := w.dtile, acqObjs := if e.acq then s.rangeObjects key table w.ranges false else [],
        relObjs := if e.rel then s.rangeObjects key table (relRanges i w.ranges) true else [], table := if w.slotted then table else [],
        maskLevel := c.mdi, claims := [], passed := [], failedW := [], afterAcc := c.a.nextId, corr := false,
        failed := none, fault := none }
    s.setCell key (post { c with cmds := c.cmds ++ [x], nextCmd := c.nextCmd + 1, asElastic := false, a := c.a.retire i.size })

/-- An engine form issues on a cell of its type, with its captured values; elsewhere the unit is absent (03 R49). -/
def onEngine (i : Instr) (types : List CellType) (s : State) (k : Nat → Cell → List Word → State) :
    Host.Outcome State Fault Refusal :=
  onA s i.captured (fun ag _ =>
    match ag with
    | .aseq key =>
      match s.cell? key with
      | some c =>
        if types.contains c.ctype then k key c (i.captured.map c.a.reg)
        else s.unitAbsent ag i.opcode.1 i.opcode.2 i.isShort
      | none => s
    | ag => s.unitAbsent ag i.opcode.1 i.opcode.2 i.isShort)

def val (vs : List Word) (k : Nat) : Word := vs.getD k 0

/-! ## Conditions of a start (06 R135; 08 R180, R182; 09 R198, R199; 10 R221) -/

/-- Engines of the gang run: a fatal stop ends all progress, a halt ends starts (18 R347, R366). -/
def State.enginesRun (s : State) (key : Nat) (c : Cell) : Bool :=
  !c.gone && !c.halted && (s.part (partOfCell key)).live && (match s.gang? (gangOfCell key) with
    | some g => g.state.runs
    | none => false)

def State.startsRun (s : State) (key : Nat) (c : Cell) : Bool := s.enginesRun key c && s.mayStart key c

/-- A multiply of the matrix unit (09 R198). -/
def isMultiply : Instr → Bool
  | .mxmm .. => true
  | .mxmma .. => true
  | .mxcv .. => true
  | _ => false

/-- mxepl or mxshp, with its slot: 0 to 3, or 4 to 7 for shape slots. -/
def slotFill : Instr → Option Nat
  | .mxepl _ k _ => some k.toNat
  | .mxshp _ k _ => some (4 + k.toNat)
  | _ => none

/-- A form that reads a slot when it starts. -/
def slotUse : Instr → Option Nat
  | .mxdrn _ k .. => some k.toNat
  | .mxdrs _ k .. => some k.toNat
  | .mxcv _ k .. => some (4 + k.toNat)
  | _ => none

/-- Commands issued before one, oldest first. -/
def Cell.before (c : Cell) (x : Cmd) : List Cmd := c.cmds.filter (fun y => y.id < x.id)

/-- The unit has room for one more active command. -/
def Cell.unitFree (c : Cell) (x : Cmd) : Bool :=
  let active (f : Cmd → Bool) : Nat := c.cmds.countP (fun y => y.queue == x.queue && !y.waiting && f y)
  match x.queue with
  | 0 => if isMultiply x.instr then active (fun y => isMultiply y.instr) == 0 else decide (active (fun y => !isMultiply y.instr) < 4)
  | 4 => decide (active (fun _ => true) < 64)
  | 5 => decide (active (fun y => match y.instr with
      | .lopen .. => false
      | _ => true) < 16)
  | _ => active (fun _ => true) == 0

/-- The slot that a command uses is settled: every fill of it issued before has completed (10 R221, R224). -/
def Cell.slotSettled (c : Cell) (x : Cmd) : Bool :=
  match slotUse x.instr with
  | none => true
  | some k => !(c.before x).any (fun y => slotFill y.instr == some k)

/-- Matrix rules of start: tiles in issue order, slots in issue order (09 R199, 10 R221). -/
def Cell.matrixReady (c : Cell) (x : Cmd) : Bool :=
  x.queue != 0 ||
    ((c.before x).all (fun y => y.queue != 0 || !y.tiles.any x.tiles.contains) &&
      ((slotUse x.instr).isNone || !(c.before x).any (fun y => (slotFill y.instr).isSome)) &&
      (match slotFill x.instr with
       | some k => !(c.before x).any (fun y => (slotUse y.instr == some k && y.waiting) || slotFill y.instr == some k)
       | none => true))

/-- A scalar or queue store to the own slice, issued before the command, has not been performed (06 R135). -/
def Cell.storesBefore (c : Cell) (x : Cmd) : Bool :=
  c.a.out.any (fun y => y.id < x.afterAcc && y.kind.isWrite && (match y.loc with
    | some l => decide (sliceLoc c.unitOf 0 ≤ l) && decide (l < sliceLoc c.unitOf 0 + c.ctype.sliceSize)
    | none => false))

/-- A comparison of ranges with those of an earlier command, whose own are not known yet, may find an overlap (10 R224):
a drain may write and read untagged bytes, mxcv reads only, and only untagged ones count. -/
def Cmd.pendingWith (y : Cmd) (rs : List Rng) : Bool :=
  rs.any (fun a => !a.tagged && a.len != 0 && (match y.instr with
    | .mxcv .. => a.write && !y.instr.flags.tag
    | _ => true))

/-- The checker's order, given the ranges of commands as they stand (08 R180). -/
def Cell.rangesReady (c : Cell) (ranges : Cmd → List Rng) (x : Cmd) : Bool :=
  (c.before x).all (fun y => (!y.waiting || c.slotSettled y || !y.pendingWith (ranges x)) &&
    !(ranges x).any (fun a => (ranges y).any a.conflicts))

/-- The command may start, its stamp apart. A suspended command holds its queue (09 R214). -/
def Cell.ready (c : Cell) (ranges : Cmd → List Rng) (x : Cmd) : Bool :=
  x.waiting && !(c.before x).any (fun y => y.queue == x.queue && (y.waiting || y.state == .suspended)) && c.unitFree x &&
    c.slotSettled x && c.matrixReady x && !c.storesBefore x && c.rangesReady ranges x

/-! ## Objects (07 R166) -/

def State.objectMarked (s : State) (key o : Nat) : Bool := s.isObject (s.objectLoc (.aseq key) o)

/-- What acquiring or releasing objects comes to: 0; 0x07 when one has lost its mark (07 R166); 0x01 when the count of one is
poisoned, or lies on a die that has failed (22 R416, R417, R419). -/
def State.objectsCode (s : State) (key : Nat) (os : List Nat) : Nat :=
  if !os.all (s.objectMarked key) then 7
  else if os.any (fun o => match s.objectLoc (.aseq key) o with
    | some l => s.poisoned l 8
    | none => false) then 1
  else 0

/-- RELSEQ of each object is incremented, in ascending order. -/
def State.releaseAll (s : State) (key : Nat) (os : List Nat) : State :=
  os.foldl (fun s o => match s.objectLoc (.aseq key) o with
    | some l => { s with mem := writeLE s.mem l 8 ((objRelseq s.mem l + 1) % 2 ^ 64) }
    | none => s) s

/-! ## Commands in their cell -/

def Cell.cmd? (c : Cell) (id : Nat) : Option Cmd := c.cmds.find? (fun x => x.id = id)

def Cell.setCmd (c : Cell) (x : Cmd) : Cell := { c with cmds := c.cmds.map (fun y => if y.id = x.id then x else y) }

def State.setCmd (s : State) (key : Nat) (x : Cmd) : State := s.modCell key (fun c => c.setCmd x)

def State.cmd? (s : State) (key id : Nat) : Option Cmd := (s.cell? key).bind (·.cmd? id)

/-- A unit of work done: the state it leaves and the command's own progress. -/
structure Worked where
  s : State
  x : Cmd
  deriving DecidableEq, Repr

/-! ## Tile tags (08 R185) -/

/-- A span that one unit of a command reads or writes under a tag. -/
structure TagSpan where
  name : Nat
  len : Nat
  write : Bool
  deriving DecidableEq, Repr

def tagSpan (key addr len : Nat) (write : Bool) : TagSpan := { name := compareName key addr, len, write }

def spansTiles (sp : List TagSpan) : List (Nat × Bool) := sp.flatMap (fun p => (tilesOf p.name p.len).map (fun t => (t, p.write)))

/-- The first tile that the next unit touches and the command does not hold. -/
def Cmd.wants (x : Cmd) (sp : List TagSpan) : Option (Nat × Bool) :=
  (spansTiles sp).find? (fun t => !x.claims.contains t.1)

def State.tileLoc (s : State) (key tile : Nat) : Option Nat :=
  match s.combLoc (partOfCell key) (some (gangOfCell key)) (tile * 4096) with
  | .at_ l => some l
  | _ => none

/-- The tile's state lets the command pass: V as its use needs, C = 0; a tile of an exited slice passes at once. -/
def State.tileOpen (s : State) (key : Nat) (t : Nat × Bool) : Bool :=
  match s.tileLoc key t.1 with
  | some l => !s.tagC l && s.tagV l != t.2
  | none => true

def State.claimTile (s : State) (key : Nat) (x : Cmd) (t : Nat) : State :=
  let s := match s.tileLoc key t with
    | some l => s.setTag l (s.tagV l) true
    | none => s
  s.setCmd key { x with claims := x.claims ++ [t] }

/-- Final changes of the tiles that no later unit touches: V is set by a write, cleared by a read; C is cleared. -/
def State.passTiles (s : State) (key : Nat) (x : Cmd) (done : List TagSpan) (later : Nat → Bool) : State × Cmd :=
  (spansTiles done).foldl (fun acc t =>
    if acc.2.passed.contains t.1 || later t.1 then acc
    else
      let s := match acc.1.tileLoc key t.1 with
        | some l => acc.1.setTag l t.2 false
        | none => acc.1
      (s, { acc.2 with passed := acc.2.passed ++ [t.1] })) (s, x)

/-! ## Completion (08 R171, R181) -/

/-- Mirrored writes of the command wait for acknowledgement (22 R420). -/
def State.mirrorsOf (s : State) (key id : Nat) : Bool :=
  (s.part (partOfCell key)).mirrorOut.any (fun w => w.owner == .command key id)

/-- The tile of a failed command is poisoned (09 R200). -/
def Cell.poisonTile (c : Cell) (t : Option Nat) : Cell :=
  match t with
  | some t => { c with tiles := c.tiles.insert t { c.tiles.getD t Tile.clear with partialK := true } }
  | none => c

/-! ## Mask slots (11 R254) -/

def MaskSlot.clear : MaskSlot := { bits := 0, any := false, psn := false }

def Cell.mask (c : Cell) (k : Nat) : MaskSlot := c.masks.getD k MaskSlot.clear

def Cell.setMask (c : Cell) (k : Nat) (m : MaskSlot) : Cell :=
  { c with masks := (List.range 8).map (fun j => if j = k then m else c.mask j) }

/-- What the failure of a form spoils: a slot whose fill failed is invalid (10 R222, R235), the level of a failed mpush or
minv is poisoned (11 R256). -/
def Cell.dropSlot (c : Cell) (i : Instr) (level : Nat) : Cell :=
  match i with
  | .mpush .. => c.setMask level { c.mask level with psn := true }
  | .minv _ => c.setMask (level - 1) { c.mask (level - 1) with psn := true }
  | .minvShort => c.setMask (level - 1) { c.mask (level - 1) with psn := true }
  | .mxepl _ k _ => { c with epilogue := c.epilogue.set k.toNat none (by have := k.isLt; omega) }
  | .mxshp _ k _ => { c with shapes := c.shapes.set k.toNat none (by have := k.isLt; omega) }
  | _ => c

/-- Remove a completed command and tell those behind it of its failure. -/
def Cell.retireCmd (c : Cell) (x : Cmd) (failed : Bool) : Cell :=
  let ws := x.ranges.filter (·.write)
  { c with cmds := (c.cmds.filter (fun y => y.id ≠ x.id)).map (fun y =>
      if failed && decide (x.id < y.id) then { y with failedW := y.failedW ++ ws } else y) }

/-- Sat of the tile that a drain reads: it is reported at completion, a failed one included (02 R42, 10 R223; log 94). -/
def Cell.drainSat (c : Cell) (i : Instr) (t : Option Nat) : Bool :=
  match i with
  | .mxdrn .. => ((t.bind c.tiles.find?).map (·.sat)).getD false
  | .mxdrs .. => ((t.bind c.tiles.find?).map (·.sat)).getD false
  | _ => false

/-- Why a command that has done its work fails at its releases, if it does (07 R166). -/
def State.releaseFails (s : State) (key : Nat) (x : Cmd) : Option Nat :=
  if x.failed.isNone && s.objectsCode key x.relObjs != 0 then some (s.objectsCode key x.relObjs) else none

/-- A command completes: releases, then the counter and status in one update (08 R171). -/
def State.completeEngine (s : State) (key : Nat) (x : Cmd) : State :=
  let e := x.instr.flags
  let failed := x.failed
  let s := if failed.isSome then s.dropClaims key x else s.releaseAll key x.relObjs
  s.modCell key (fun c =>
    let sat := c.drainSat x.instr x.dtile
    let c := if failed.isSome then (c.poisonTile x.dtile).dropSlot x.instr x.maskLevel else c
    let c := c.retireCmd x failed.isSome
    if e.ce then c.completeCount e.cnt failed sat x.corr x.instr.opcode.1 x.instr.opcode.2
    else c)

/-! ## What a form gives of its execution -/

/-- The execution of one command, as its state stands: its ranges, its units of work, and its checks at the start, in
the order in which a failure is reported. -/
structure Form where
  ranges : List Rng
  /-- The spans that it may touch, for path checks and tags: the ranges, but for a multicast each target's own. -/
  access : List Rng
  units : Nat
  /-- Tagged spans of a unit. -/
  spans : Nat → List TagSpan
  /-- Paths on which a range may lie. -/
  paths : Rng → Nat → Bool
  /-- How the bytes of its write ranges are accessed. -/
  written : Probe := .write
  /-- Statuses before the tag and path checks, between them and the acquires, and after the acquires. -/
  early : List (Option Nat)
  late : List (Option Nat)
  last : List (Option Nat)
  /-- Effect of a start. -/
  start : Worked
  /-- Effect of a unit. -/
  unit : Nat → Eng Worked
  /-- Effect of a failure while it runs. -/
  failing : Nat → State
  /-- The last unit is a check: tags change only after it (10 R229). -/
  checked : Bool
  /-- The first unit makes the later checks and the acquires: they read what the tags of the command guard (14 R292, R297). -/
  deferred : Bool := false

/-- A form with one unit, no tags and no checks of its own. -/
def Form.base (s : State) (x : Cmd) (ranges : List Rng) (units : Nat) (unit : Nat → Eng Worked) : Form :=
  { ranges, access := ranges, units, spans := fun _ => [], paths := fun _ _ => true, early := [], late := [], last := [], start := { s, x }, unit,
    failing := fun _ => s, checked := false }

def failIf (b : Bool) (code : Nat) : Option Nat := if b then some code else none

def firstCode : List (Option Nat) → Option Nat
  | [] => none
  | some c :: _ => some c
  | none :: rest => firstCode rest

/-- What the acquires of a command come to: those of a stamped command were made when it became ready (16 R446). -/
def State.acquireCode (s : State) (key : Nat) (x : Cmd) (acq : List Nat) : Nat := x.acquired.getD (s.objectsCode key acq)

/-- The checks of a start that follow the form's own, in order: paths, the form's later ones, and acquires. -/
def State.lateStatus (s : State) (key : Nat) (x : Cmd) (f : Form) (acq : List Nat) : List (Option Nat) :=
  [failIf (!f.access.all (fun r => s.rangeOk key (x.queue == 0) (f.paths r) f.written r)) 6] ++ f.late ++
    [failIf (s.acquireCode key x acq != 0) (s.acquireCode key x acq)] ++ f.last

/-- The status with which a command fails at its start, if it does. -/
def State.startStatus (s : State) (key : Nat) (x : Cmd) (f : Form) (acq : List Nat) : Option Nat :=
  firstCode ([failIf (readsAfter f.ranges x.failedW) 2] ++ f.early ++ [tagStatus f.access] ++
    (if f.deferred then [] else s.lateStatus key x f acq))

/-- An acquire at die scope or wider invalidates the read-only cache of the die (06 R127, 07 R147). -/
def State.engineAcquired (s : State) (key : Nat) (x : Cmd) (acq : List Nat) : State :=
  if acq.isEmpty then s else s.acquireScope (.aseq key) x.instr.flags.scope.toNat

end Sys2Proof.Machine
end

