-- ==== Sys2Proof/Machine/Float.lean ====
section
/-! DEFINITION. Floating-point formats, exact values, rounding, conversions (02 R25 to R36), and the mixer of stochastic
rounding (14 R296). Values are computed exactly on dyadic numbers and rounded once. -/

namespace Sys2Proof.Machine

/-! ## Formats (02 Table 2-1) -/

/-- A floating-point format: exponent and mantissa widths, bias, and whether it has infinities and NaNs of the IEEE
kind. E4M3 has one NaN code and no infinity; E2M1 has neither. -/
structure Fmt where
  ew : Nat
  mw : Nat
  bias : Nat
  ieee : Bool
  /-- Largest finite magnitude: `maxM * 2^maxE`. -/
  maxM : Nat
  maxE : Int
  canonicalNaN : Nat
  deriving DecidableEq, Repr

def fp64 : Fmt := { ew := 11, mw := 52, bias := 1023, ieee := true, maxM := 2 ^ 53 - 1, maxE := 971, canonicalNaN := 0x7FF8000000000000 }
def fp32 : Fmt := { ew := 8, mw := 23, bias := 127, ieee := true, maxM := 2 ^ 24 - 1, maxE := 104, canonicalNaN := 0x7FC00000 }
def fp16 : Fmt := { ew := 5, mw := 10, bias := 15, ieee := true, maxM := 2 ^ 11 - 1, maxE := 5, canonicalNaN := 0x7E00 }
def bf16 : Fmt := { ew := 8, mw := 7, bias := 127, ieee := true, maxM := 2 ^ 8 - 1, maxE := 120, canonicalNaN := 0x7FC0 }
def e4m3 : Fmt := { ew := 4, mw := 3, bias := 7, ieee := false, maxM := 14, maxE := 5, canonicalNaN := 0x7F }
def e5m2 : Fmt := { ew := 5, mw := 2, bias := 15, ieee := true, maxM := 7, maxE := 13, canonicalNaN := 0x7E }
def e2m1 : Fmt := { ew := 2, mw := 1, bias := 1, ieee := false, maxM := 3, maxE := 1, canonicalNaN := 0 }

def Fmt.width (f : Fmt) : Nat := 1 + f.ew + f.mw

/-- The exponent of the least significant bit in the subnormal range. -/
def Fmt.emin (f : Fmt) : Int := 1 - (f.bias : Int) - f.mw

/-! ## Exact values -/

/-- A value: NaN, an infinity, or a finite number with a sign of its own, so that zeros keep theirs (02 R27). -/
inductive FV where
  | nan
  | inf (neg : Bool)
  | fin (neg : Bool) (m : Nat) (e : Int)
  deriving DecidableEq, Repr

def bitLength (n : Nat) : Nat := if n = 0 then 0 else Nat.log2 n + 1

/-- The value of a format's bits (02 R25). -/
def FV.ofBits (f : Fmt) (x : Nat) : FV :=
  let neg := x.testBit (f.ew + f.mw)
  let ex := (x >>> f.mw) % 2 ^ f.ew
  let m := x % 2 ^ f.mw
  let top := decide (ex = 2 ^ f.ew - 1)
  if top && f.ieee then (if m = 0 then .inf neg else .nan)
  else if top && f.ew = 4 && m = 7 then .nan
  else if ex = 0 then .fin neg m f.emin
  else .fin neg (2 ^ f.mw + m) (f.emin + (ex - 1 : Nat))

/-- The bits of a finite number that the format holds exactly. -/
def finBits (f : Fmt) (neg : Bool) (m : Nat) (e : Int) : Nat :=
  let s := neg.toNat * 2 ^ (f.ew + f.mw)
  if m = 0 then s
  else
    let lead : Int := e + (bitLength m - 1 : Nat)
    if lead < 1 - (f.bias : Int) then s + m * 2 ^ (e - f.emin).toNat
    else
      let shift : Int := f.mw - (bitLength m - 1 : Nat)
      let mant := if 0 ≤ shift then m * 2 ^ shift.toNat else m / 2 ^ (-shift).toNat
      s + (lead + f.bias).toNat * 2 ^ f.mw + (mant - 2 ^ f.mw)

/-! ## Rounding (02 R31 to R35) -/

/-- Modes of 02 Table 2-3; `rsr` carries its draw. -/
inductive Mode where
  | rne
  | rtz
  | rup
  | rdn
  | rsr (draw : BitVec 32)
  deriving DecidableEq, Repr

/-- The mode of a code; the draw serves code 0b100. -/
def Mode.ofCode (c : Nat) (draw : BitVec 32) : Mode :=
  match c with
  | 0 => .rne
  | 1 => .rtz
  | 2 => .rup
  | 3 => .rdn
  | _ => .rsr draw

/-- The 32-bit mixer (14 R296). -/
def rndh (key counter : BitVec 32) : BitVec 32 :=
  let x := key ^^^ (counter * 0x9E3779B9#32)
  let x := x ^^^ (x >>> 16)
  let x := x * 0x7FEB352D#32
  let x := x ^^^ (x >>> 15)
  let x := x * 0x846CA68B#32
  x ^^^ (x >>> 16)

/-- The draw of stochastic rounding (02 R34). -/
def draw (seed site position : BitVec 32) : BitVec 32 := rndh (seed ^^^ site) position

/-- What a rounding gives: the bits, an overflow (02 R33 step 4), an underflow event (02 R26). -/
structure Rounded where
  bits : Nat
  ovf : Bool
  unf : Bool
  deriving DecidableEq, Repr

/-- Whether an overflow of a sign gives the infinite outcome of 02 Table 2-4. -/
def Mode.toInf (mode : Mode) (neg : Bool) : Bool :=
  match mode with
  | .rne => true
  | .rsr _ => true
  | .rtz => false
  | .rup => !neg
  | .rdn => neg

/-- The bits of an infinite outcome (02 R35, Table 2-4). -/
def infBits (f : Fmt) (neg sat : Bool) : Nat :=
  if sat || f.ew = 2 then finBits f neg f.maxM f.maxE
  else if f.ieee then neg.toNat * 2 ^ (f.ew + f.mw) + (2 ^ f.ew - 1) * 2 ^ f.mw
  else f.canonicalNaN

def overflowBits (f : Fmt) (mode : Mode) (neg sat : Bool) : Nat :=
  if mode.toInf neg then infBits f neg sat else finBits f neg f.maxM f.maxE

/-- `m * 2^e ≤ m' * 2^e'`. -/
def magLe (m : Nat) (e : Int) (m' : Nat) (e' : Int) : Bool :=
  let k := min e e'
  decide (m * 2 ^ (e - k).toNat ≤ m' * 2 ^ (e' - k).toNat)

/-- The multiple of `2^q` to which a mode takes the magnitude `m * 2^e`, a little more of it when `sticky`, and whether the
two differ (02 R33, R34). -/
def roundAt (mode : Mode) (neg : Bool) (m : Nat) (e q : Int) (sticky : Bool) : Nat × Bool :=
  let shift := q - e
  let a := if 0 ≤ shift then m / 2 ^ shift.toNat else m * 2 ^ (-shift).toNat
  let rem := if 0 ≤ shift then m % 2 ^ shift.toNat else 0
  let full := if 0 ≤ shift then 2 ^ shift.toNat else 1
  let inexact := rem != 0 || sticky
  let up := match mode with
    | .rne => decide (full < 2 * rem) || (decide (2 * rem = full) && (sticky || decide (a % 2 = 1)))
    | .rtz => false
    | .rup => inexact && !neg
    | .rdn => inexact && neg
    | .rsr d => decide ((d >>> 8).toNat < rem * 2 ^ 24 / full)
  (if up then a + 1 else a, inexact)

/-- Round a magnitude to a format (02 R33 to R35). With `sticky`, `m` has at least 26 bits more than the format's mantissa.
A result is tiny when the magnitude, rounded to the format's precision as if the exponent had no lower bound, is below the
least normal number (02 R26, log 33). -/
def roundMag (f : Fmt) (mode : Mode) (sat neg : Bool) (m : Nat) (e : Int) (sticky : Bool) : Rounded :=
  if m = 0 && !sticky then { bits := finBits f neg 0 0, ovf := false, unf := false }
  else
    let lead : Int := e + (bitLength m - 1 : Nat)
    let q : Int := max (lead - f.mw) f.emin
    let r := roundAt mode neg m e q sticky
    if !magLe r.1 q f.maxM f.maxE then { bits := overflowBits f mode neg sat, ovf := true, unf := false }
    else
      let free := lead - f.mw
      let tiny := !magLe 1 (1 - (f.bias : Int)) (roundAt mode neg m e free sticky).1 free
      { bits := finBits f neg r.1 q, ovf := false, unf := tiny && r.2 }

/-- Round a value to a format (02 R33 to R35). -/
def roundTo (f : Fmt) (mode : Mode) (sat : Bool) (v : FV) (sticky : Bool := false) : Rounded :=
  match v with
  | .nan => { bits := f.canonicalNaN, ovf := false, unf := false }
  | .inf neg => { bits := infBits f neg sat, ovf := false, unf := false }
  | .fin neg m e => roundMag f mode sat neg m e sticky

/-! ## Exact arithmetic -/

def FV.isNaN : FV → Bool
  | .nan => true
  | _ => false

def FV.isInf : FV → Bool
  | .inf _ => true
  | _ => false

def FV.isZero : FV → Bool
  | .fin _ 0 _ => true
  | _ => false

def FV.neg : FV → FV
  | .nan => .nan
  | .inf s => .inf !s
  | .fin s m e => .fin (!s) m e

def FV.abs : FV → FV
  | .nan => .nan
  | .inf _ => .inf false
  | .fin _ m e => .fin false m e

def FV.sign : FV → Bool
  | .nan => false
  | .inf s => s
  | .fin s _ _ => s

/-- The integer that a finite value is, in units of `2^k`; `k` is at most its exponent. -/
def scaled (neg : Bool) (m : Nat) (e k : Int) : Int :=
  let v : Int := (m : Int) * (2 ^ (e - k).toNat : Nat)
  if neg then -v else v

/-- A finite value from an integer in units of `2^k`; a zero takes the sign given. -/
def ofScaled (v : Int) (k : Int) (zeroNeg : Bool) : FV :=
  if v = 0 then .fin zeroNeg 0 0 else .fin (decide (v < 0)) v.natAbs k

/-- The sign of an exact zero sum of operands whose signs differ: IEEE 754, and +0 under .rsr (02 R34). -/
def Mode.zeroNeg : Mode → Bool
  | .rdn => true
  | _ => false

/-- The exact sum (02 R33). -/
def FV.add (mode : Mode) (x y : FV) : FV :=
  match x, y with
  | .nan, _ => .nan
  | _, .nan => .nan
  | .inf a, .inf b => if a = b then .inf a else .nan
  | .inf a, _ => .inf a
  | _, .inf b => .inf b
  | .fin s m e, .fin t n f =>
    let k := min e f
    let z := if m = 0 && n = 0 && s = t then s else mode.zeroNeg
    ofScaled (scaled s m e k + scaled t n f k) k z

def FV.sub (mode : Mode) (x y : FV) : FV := x.add mode y.neg

/-- The exact product. -/
def FV.mul (x y : FV) : FV :=
  match x, y with
  | .nan, _ => .nan
  | _, .nan => .nan
  | .inf a, .inf b => .inf (a != b)
  | .inf a, .fin t n _ => if n = 0 then .nan else .inf (a != t)
  | .fin s m _, .inf b => if m = 0 then .nan else .inf (s != b)
  | .fin s m e, .fin t n f => .fin (s != t) (m * n) (e + f)

/-- The exact fused product and sum. -/
def FV.fma (mode : Mode) (x y z : FV) : FV := (x.mul y).add mode z

/-- Quotient digits: enough for any rounding, with the sticky bit of the rest. -/
def divMag (m n : Nat) : Nat × Int × Bool :=
  let k := 160 + bitLength n
  (m * 2 ^ k / n, -(k : Int), decide (m * 2 ^ k % n ≠ 0))

/-- The quotient and its sticky bit. -/
def FV.div (x y : FV) : FV × Bool :=
  match x, y with
  | .nan, _ => (.nan, false)
  | _, .nan => (.nan, false)
  | .inf _, .inf _ => (.nan, false)
  | .inf a, .fin t _ _ => (.inf (a != t), false)
  | .fin s _ _, .inf b => (.fin (s != b) 0 0, false)
  | .fin s m e, .fin t n f =>
    if n = 0 then (if m = 0 then (.nan, false) else (.inf (s != t), false))
    else
      let d := divMag m n
      (.fin (s != t) d.1 (e - f + d.2.1), d.2.2)

/-- The integer square root, bit by bit from bit k - 1 down. -/
def isqrtBits (n : Nat) : Nat → Nat → Nat
  | 0, r => r
  | k + 1, r => if (r + 2 ^ k) * (r + 2 ^ k) ≤ n then isqrtBits n k (r + 2 ^ k) else isqrtBits n k r

def isqrt (n : Nat) : Nat := isqrtBits n (bitLength n / 2 + 1) 0

/-- The square root and its sticky bit; a negative non-zero operand gives NaN, a zero itself. -/
def FV.sqrt (x : FV) : FV × Bool :=
  match x with
  | .nan => (.nan, false)
  | .inf s => if s then (.nan, false) else (.inf false, false)
  | .fin s m e =>
    if m = 0 then (.fin s 0 0, false)
    else if s then (.nan, false)
    else
      let odd := decide (e % 2 ≠ 0)
      let n := (if odd then 2 * m else m) * 2 ^ 160
      let h : Int := ((if odd then e - 1 else e) - 160) / 2
      let r := isqrt n
      (.fin false r h, decide (r * r ≠ n))

/-! ## Comparisons -/

/-- Compare finite or infinite values as reals; -0 equals +0. NaN operands are excluded by the callers. -/
def FV.cmp (x y : FV) : Ordering :=
  match x, y with
  | .inf a, .inf b => if a = b then .eq else if a then .lt else .gt
  | .inf a, _ => if a then .lt else .gt
  | _, .inf b => if b then .gt else .lt
  | .fin s m e, .fin t n f =>
    let k := min e f
    compare (scaled s m e k) (scaled t n f k)
  | _, _ => .eq

def FV.lt (x y : FV) : Bool := !x.isNaN && !y.isNaN && x.cmp y == .lt
def FV.eq (x y : FV) : Bool := !x.isNaN && !y.isNaN && x.cmp y == .eq
def FV.le (x y : FV) : Bool := x.lt y || x.eq y

/-- The lesser, with -0 less than +0; a NaN operand gives NaN (05 R113). -/
def FV.min (x y : FV) : FV :=
  if x.isNaN || y.isNaN then .nan
  else if x.isZero && y.isZero then (if x.sign then x else y)
  else if x.lt y then x else y

/-- The greater, with -0 less than +0; a NaN operand gives NaN (05 R113). -/
def FV.max (x y : FV) : FV :=
  if x.isNaN || y.isNaN then .nan
  else if x.isZero && y.isZero then (if x.sign then y else x)
  else if x.lt y then y else x

/-! ## Integers (02 R36) -/

/-- A finite value rounded to an integer by the mode. -/
def roundInt (mode : Mode) (neg : Bool) (m : Nat) (e : Int) : Int :=
  if 0 ≤ e then (if neg then -((m * 2 ^ e.toNat : Nat) : Int) else ((m * 2 ^ e.toNat : Nat) : Int))
  else
    let full := 2 ^ (-e).toNat
    let a := m / full
    let rem := m % full
    let up := match mode with
      | .rne => decide (full < 2 * rem) || (decide (2 * rem = full) && decide (a % 2 = 1))
      | .rtz => false
      | .rup => rem != 0 && !neg
      | .rdn => rem != 0 && neg
      | .rsr d => decide ((d >>> 8).toNat < rem * 2 ^ 24 / full)
    let r : Int := (a + up.toNat : Nat)
    if neg then -r else r

/-- Conversion to a signed integer of width w: it saturates, and NaN gives 0 (02 R36). -/
def FV.toInt (mode : Mode) (w : Nat) (v : FV) : Int :=
  let hi : Int := (2 ^ (w - 1) : Nat) - 1
  let lo : Int := -(2 ^ (w - 1) : Nat)
  match v with
  | .nan => 0
  | .inf neg => if neg then lo else hi
  | .fin neg m e => clampInt (roundInt mode neg m e) lo hi

/-- A finite value of an integer. -/
def FV.ofInt (x : Int) : FV := .fin (decide (x < 0)) x.natAbs 0

/-! ## Named results -/

/-- Round a sum, product or fma in one format with round to nearest-even. -/
def addBits (f : Fmt) (x y : Nat) : Nat := (roundTo f .rne false ((FV.ofBits f x).add .rne (FV.ofBits f y))).bits
def mulBits (f : Fmt) (x y : Nat) : Nat := (roundTo f .rne false ((FV.ofBits f x).mul (FV.ofBits f y))).bits

/-- Convert between formats. -/
def convertBits (src dst : Fmt) (mode : Mode) (sat : Bool) (x : Nat) : Rounded := roundTo dst mode sat (FV.ofBits src x)

/-- The bits are a NaN or an infinity of the format. -/
def bitsNaN (f : Fmt) (x : Nat) : Bool := (FV.ofBits f x).isNaN
def bitsInf (f : Fmt) (x : Nat) : Bool := (FV.ofBits f x).isInf

/-! ## Microscaling (02 R28, R29) -/

/-- The scale of an MX block: NaN for 0xFF, else the exponent. -/
def mxScale (x : Nat) : Option Int := if x % 256 = 255 then none else some ((x % 256 : Nat) - 127)

/-- The value of an element of an MX block. -/
def mxValue (scale code : Nat) : FV :=
  match mxScale scale with
  | none => .nan
  | some k =>
    match FV.ofBits e2m1 (code % 16) with
    | .fin s m e => .fin s m (e + k)
    | v => v

/-- Multiply a value by `2^k` exactly. -/
def FV.scale (v : FV) (k : Int) : FV :=
  match v with
  | .fin s m e => .fin s m (e + k)
  | v => v

/-- Quantise a block: the scale byte and the codes (02 R29). `mode i` is the rounding mode of element i. -/
def mxQuantise (mode : Nat → Mode) (vs : List FV) : Nat × List Nat :=
  if vs.any (fun v => v.isNaN || v.isInf) then (0xFF, vs.map (fun _ => 0))
  else
    let amax := vs.foldl (fun acc v => if acc.lt v.abs then v.abs else acc) (.fin false 0 0)
    match amax with
    | .fin _ m e =>
      if m = 0 then (0, vs.map (fun v => 8 * v.sign.toNat))
      else
        let k := clampInt (e + (bitLength m - 1 : Nat) - 2) (-127) 127
        ((k + 127).toNat, (vs.zip (List.range vs.length)).map (fun p => (roundTo e2m1 (mode p.2) true (p.1.scale (-k))).bits))
    | _ => (0, [])

end Sys2Proof.Machine
end

