-- ==== Sys2Proof/Machine/Acc.lean ====
section
/-! DEFINITION. Accumulator banks, elements and tiles, and the ACC forms (09 R190 to R197). -/

namespace Sys2Proof.Machine

/-! ## Elements -/

/-- The key of element (i, j) of tile t. -/
def accKey (t i j : Nat) : Nat := 4096 * t + 64 * i + j

def Cell.acc (c : Cell) (t i j : Nat) : BitVec 32 := c.elems.getD (accKey t i j) 0

/-- Write elements; a write clears the poison of its element (22 R416). -/
def Cell.setAccs (c : Cell) (l : List (Nat × BitVec 32)) : Cell :=
  { c with
    elems := l.foldl (fun m p => if p.2 = 0 then AMap.remove m p.1 else AMap.insert m p.1 p.2) c.elems
    poisonElems := c.poisonElems.filter (fun k => !l.any (fun p => p.1 == k))
    upsetElems := c.upsetElems.filter (fun k => !l.any (fun p => p.1 == k)) }

/-- A command consumes a poisoned element (22 R417). -/
def Cell.accPoisoned (c : Cell) (keys : List Nat) : Bool := c.poisonElems.any keys.contains

def Cell.tile (c : Cell) (t : Nat) : Tile := c.tiles.getD t Tile.clear

def Cell.setTile (c : Cell) (t : Nat) (x : Tile) : Cell :=
  { c with tiles := if x = Tile.clear then c.tiles.remove t else c.tiles.insert t x }

/-- Every element of a tile 0; Sat, P and check state cleared (09 R208, R210). -/
def Cell.clearTile (c : Cell) (t : Nat) : Cell :=
  { c with elems := c.elems.dropRange (4096 * t) (4096 * t + 4096), tiles := c.tiles.remove t,
           poisonElems := c.poisonElems.filter (fun k => decide (k / 4096 ≠ t))
           upsetElems := c.upsetElems.filter (fun k => decide (k / 4096 ≠ t)) }

/-! ## Banks -/

def Cell.bankHeld (c : Cell) (b : Nat) : Bool := c.banks.getLsbD b

/-- Banks `b` to `b + n - 1` satisfy a test. -/
def allBanks (b n : Nat) (f : Nat → Bool) : Bool := (List.range n).all (fun i => f (b + i))

/-- Tile t is wholly held (09 R204). -/
def Cell.tileHeld (c : Cell) (t : Nat) : Bool := allBanks (8 * t) 8 c.bankHeld

def setBanks (m : BitVec 256) (b n : Nat) (v : Bool) : BitVec 256 :=
  let mask := BitVec.ofNat 256 ((2 ^ n - 1) * 2 ^ b)
  if v then m ||| mask else m &&& ~~~mask

/-- The largest power of two not above min(n, 8) (09 R192). -/
def bankAlign (n : Nat) : Nat := if 8 ≤ n then 8 else if 4 ≤ n then 4 else if 2 ≤ n then 2 else 1

/-- The lowest base that R192 admits. -/
def Cell.bankBase (c : Cell) (n : Nat) : Option Nat :=
  let a := bankAlign n
  ((List.range (256 / a)).map (a * ·)).find? (fun b => decide (b + n ≤ c.declared) && allBanks b n (fun k => !c.bankHeld k))

/-- The banks just taken: zero bits in every element, and the tiles that contain them with cleared state (09 R193). -/
def Cell.freshBanks (c : Cell) (b n : Nat) : Cell :=
  { c with
    elems := c.elems.dropRange (512 * b) (512 * (b + n))
    poisonElems := c.poisonElems.filter (fun k => decide (k < 512 * b) || decide (512 * (b + n) ≤ k))
    upsetElems := c.upsetElems.filter (fun k => decide (k < 512 * b) || decide (512 * (b + n) ≤ k))
    tiles := c.tiles.filter (fun p => decide (p.1 < b / 8) || decide ((b + n - 1) / 8 < p.1)) }

/-- A matrix fault (09 R197). -/
def State.matrixTrap (s : State) (key code : Nat) : State := s.raiseTrap (.aseq key) 0x0D code .fatal 0 0

/-- A form of matrix cells (03 R49). -/
def onMatrix (s : State) (use : List (BitVec 5)) (major minor : Nat) (k : Nat → Cell → State) : Host.Outcome State Fault Refusal :=
  onCell s use major minor false (fun key c =>
    if c.ctype = .matrix then k key c else s.unitAbsent (.aseq key) major minor)

/-- accalloc (09 R196). -/
def execAccalloc (d : BitVec 5) (n : BitVec 12) (s : State) : Host.Outcome State Fault Refusal :=
  onMatrix s [d] 0x0E 0 (fun key c =>
    if c.declared < c.heldBanks + n.toNat then s.matrixTrap key 0x01
    else match c.bankBase n.toNat with
      | none => s.matrixTrap key 0x02
      | some b =>
        s.setCell key { c.freshBanks b n.toNat with
          banks := setBanks c.banks b n.toNat true
          a := (c.a.setReg d (BitVec.ofNat 64 b)).retire 4 })

/-- accfree stalls while a command issued before it names one of the banks (09 R196). -/
def execAccfree (a : BitVec 5) (n : BitVec 12) (s : State) : Host.Outcome State Fault Refusal :=
  onMatrix s [a] 0x0E 1 (fun key c =>
    let b := (c.a.reg a).toNat
    if c.declared < b + n.toNat || !allBanks b n.toNat c.bankHeld then s.matrixTrap key 0x03
    else if c.cmds.any (fun x => x.tiles.any (fun t => decide (b / 8 ≤ t) && decide (t ≤ (b + n.toNat - 1) / 8))) then s
    else s.setCell key { c with banks := setBanks c.banks b n.toNat false, a := c.a.retire 4 })

end Sys2Proof.Machine
end

