-- ==== Sys2Proof/Machine/Alu.lean ====
section
/-! DEFINITION. The integer forms of the A-seq: ALU, ALUI, WIDE, BITS and MULD, with their short forms (05 R96 to R105). -/

namespace Sys2Proof.Machine

/-- S[D] := Op(S[A], S[B]), for a word of `size` bytes. -/
def aluOp (size : Nat) (d a b : BitVec 5) (f : Word → Word → Word) (s : State) : Host.Outcome State Fault Refusal :=
  onA s [d, a, b] (fun ag q => s.finish ag (q.setReg d (f (q.reg a) (q.reg b))) size)

/-- S[D] := Op(S[A], y) with an immediate operand. -/
def aluImm (size : Nat) (d a : BitVec 5) (y : Word) (f : Word → Word → Word) (s : State) :
    Host.Outcome State Fault Refusal :=
  onA s [d, a] (fun ag q => s.finish ag (q.setReg d (f (q.reg a) y)) size)

/-- S[D] := a value formed from the program counter and the old S[D]. -/
def aluWide (d : BitVec 5) (f : Word → Word → Word) (s : State) : Host.Outcome State Fault Refusal :=
  onA s [d] (fun ag q => s.finish ag (q.setReg d (f q.pos.pc (q.reg d))) 4)

/-- add: the second source is shifted left by M (05 Table 5-4). -/
def execAdd (d a b sh : BitVec 5) (s : State) : Host.Outcome State Fault Refusal :=
  aluOp 4 d a b (fun x y => intAdd x (y <<< sh.toNat)) s

/-- sub (05 Table 5-4). -/
def execSub (d a b : BitVec 5) (s : State) : Host.Outcome State Fault Refusal := aluOp 4 d a b intSub s

/-- and (05 Table 5-4). -/
def execAnd (d a b : BitVec 5) (s : State) : Host.Outcome State Fault Refusal := aluOp 4 d a b intAnd s

/-- or (05 Table 5-4). -/
def execOr (d a b : BitVec 5) (s : State) : Host.Outcome State Fault Refusal := aluOp 4 d a b intOr s

/-- xor (05 Table 5-4). -/
def execXor (d a b : BitVec 5) (s : State) : Host.Outcome State Fault Refusal := aluOp 4 d a b intXor s

/-- andn (05 Table 5-4). -/
def execAndn (d a b : BitVec 5) (s : State) : Host.Outcome State Fault Refusal := aluOp 4 d a b intAndn s

/-- shl (05 Table 5-4). -/
def execShl (d a b : BitVec 5) (s : State) : Host.Outcome State Fault Refusal := aluOp 4 d a b intShl s

/-- shr (05 Table 5-4). -/
def execShr (d a b : BitVec 5) (s : State) : Host.Outcome State Fault Refusal := aluOp 4 d a b intShr s

/-- sra (05 Table 5-4). -/
def execSra (d a b : BitVec 5) (s : State) : Host.Outcome State Fault Refusal := aluOp 4 d a b intSra s

/-- slt (05 Table 5-4). -/
def execSlt (d a b : BitVec 5) (s : State) : Host.Outcome State Fault Refusal := aluOp 4 d a b intSlt s

/-- sltu (05 Table 5-4). -/
def execSltu (d a b : BitVec 5) (s : State) : Host.Outcome State Fault Refusal := aluOp 4 d a b intSltu s

/-- min (05 Table 5-4). -/
def execMin (d a b : BitVec 5) (s : State) : Host.Outcome State Fault Refusal := aluOp 4 d a b intMin s

/-- max (05 Table 5-4). -/
def execMax (d a b : BitVec 5) (s : State) : Host.Outcome State Fault Refusal := aluOp 4 d a b intMax s

/-- minu (05 Table 5-4). -/
def execMinu (d a b : BitVec 5) (s : State) : Host.Outcome State Fault Refusal := aluOp 4 d a b intMinu s

/-- maxu (05 Table 5-4). -/
def execMaxu (d a b : BitVec 5) (s : State) : Host.Outcome State Fault Refusal := aluOp 4 d a b intMaxu s

/-- mov copies a register of the class that M selects; XSTAT is absent from a control core (05 R97). -/
def execMov (d a cls : BitVec 5) (s : State) : Host.Outcome State Fault Refusal :=
  onA s (if cls = 0 then [d, a] else [d]) (fun ag q =>
    match ag.cell?.bind s.cell? with
    | some c => s.finish ag (q.setReg d (movSource q (some c.x) cls a)) 4
    | none => if cls = 4 then s.unitAbsent ag 0x02 0xF else s.finish ag (q.setReg d (movSource q none cls a)) 4)

/-- The short add: the destination is the first source (03 Table 3-4). -/
def execAddShort (d a : BitVec 5) (s : State) : Host.Outcome State Fault Refusal := aluOp 2 d d a intAdd s

/-- The short sub (03 Table 3-4). -/
def execSubShort (d a : BitVec 5) (s : State) : Host.Outcome State Fault Refusal := aluOp 2 d d a intSub s

/-- The short mov (03 Table 3-4). -/
def execMovShort (d a : BitVec 5) (s : State) : Host.Outcome State Fault Refusal := aluOp 2 d a a (fun x _ => x) s

/-- The short addi, with a 5-bit signed immediate (03 Table 3-4). -/
def execAddiShort (d imm : BitVec 5) (s : State) : Host.Outcome State Fault Refusal := aluImm 2 d d (signed imm) intAdd s

/-- addi: the immediate is sign-extended (05 R98). -/
def execAddi (d a : BitVec 5) (imm : BitVec 12) (s : State) : Host.Outcome State Fault Refusal := aluImm 4 d a (signed imm) intAdd s

/-- andi: the immediate is sign-extended (05 R98). -/
def execAndi (d a : BitVec 5) (imm : BitVec 12) (s : State) : Host.Outcome State Fault Refusal := aluImm 4 d a (signed imm) intAnd s

/-- ori: the immediate is sign-extended (05 R98). -/
def execOri (d a : BitVec 5) (imm : BitVec 12) (s : State) : Host.Outcome State Fault Refusal := aluImm 4 d a (signed imm) intOr s

/-- xori: the immediate is sign-extended (05 R98). -/
def execXori (d a : BitVec 5) (imm : BitVec 12) (s : State) : Host.Outcome State Fault Refusal := aluImm 4 d a (signed imm) intXor s

/-- slti: the immediate is sign-extended (05 R98). -/
def execSlti (d a : BitVec 5) (imm : BitVec 12) (s : State) : Host.Outcome State Fault Refusal := aluImm 4 d a (signed imm) intSlt s

/-- sltiu: the immediate is sign-extended (05 R98). -/
def execSltiu (d a : BitVec 5) (imm : BitVec 12) (s : State) : Host.Outcome State Fault Refusal := aluImm 4 d a (signed imm) intSltu s

/-- mini: the immediate is sign-extended (05 R98). -/
def execMini (d a : BitVec 5) (imm : BitVec 12) (s : State) : Host.Outcome State Fault Refusal := aluImm 4 d a (signed imm) intMin s

/-- maxi: the immediate is sign-extended (05 R98). -/
def execMaxi (d a : BitVec 5) (imm : BitVec 12) (s : State) : Host.Outcome State Fault Refusal := aluImm 4 d a (signed imm) intMax s

/-- seqi: the immediate is sign-extended (05 R98). -/
def execSeqi (d a : BitVec 5) (imm : BitVec 12) (s : State) : Host.Outcome State Fault Refusal := aluImm 4 d a (signed imm) intSeq s

/-- shli: IMM[5:0] is the amount (05 R98). -/
def execShli (d a : BitVec 5) (imm : BitVec 12) (s : State) : Host.Outcome State Fault Refusal := aluImm 4 d a (unsigned imm) intShl s

/-- shri: IMM[5:0] is the amount (05 R98). -/
def execShri (d a : BitVec 5) (imm : BitVec 12) (s : State) : Host.Outcome State Fault Refusal := aluImm 4 d a (unsigned imm) intShr s

/-- srai: IMM[5:0] is the amount (05 R98). -/
def execSrai (d a : BitVec 5) (imm : BitVec 12) (s : State) : Host.Outcome State Fault Refusal := aluImm 4 d a (unsigned imm) intSra s

/-- li (05 R99). -/
def execLi (d : BitVec 5) (imm : BitVec 17) (s : State) : Host.Outcome State Fault Refusal := aluWide d (fun _ _ => signed imm) s

/-- lsh shifts 16 bits in; it reads S[D] (05 R99). -/
def execLsh (d : BitVec 5) (imm : BitVec 17) (s : State) : Host.Outcome State Fault Refusal :=
  aluWide d (fun _ x => (x <<< 16) ||| unsigned (imm.extractLsb' 0 16)) s

/-- lown forms an own-slice address (05 R99). -/
def execLown (d : BitVec 5) (imm : BitVec 17) (s : State) : Host.Outcome State Fault Refusal :=
  aluWide d (fun _ _ => 0x3000000000000000 + unsigned imm * 64) s

/-- lpc forms an address relative to the word's first parcel (05 R99). -/
def execLpc (d : BitVec 5) (imm : BitVec 17) (s : State) : Host.Outcome State Fault Refusal := aluWide d (fun pc _ => target pc imm) s

/-- A bit counter over the elements of S[A] (05 R101). -/
def bitCount (d a w : BitVec 5) (f : Nat → Nat → Nat) (s : State) : Host.Outcome State Fault Refusal :=
  let n := elemWidth (w.extractLsb' 0 2)
  aluOp 4 d a a (packed n (fun x _ => f n x)) s

/-- clz (05 Table 5-8). -/
def execClz (d a w : BitVec 5) (s : State) : Host.Outcome State Fault Refusal := bitCount d a w clzElem s

/-- ffs (05 Table 5-8). -/
def execFfs (d a w : BitVec 5) (s : State) : Host.Outcome State Fault Refusal := bitCount d a w ffsElem s

/-- popc (05 Table 5-8). -/
def execPopc (d a w : BitVec 5) (s : State) : Host.Outcome State Fault Refusal := bitCount d a w popcElem s

/-- A packed sum or difference with the saturation that M selects (05 R102). -/
def packedSum (d a b m : BitVec 5) (op : Int → Int → Int) (s : State) : Host.Outcome State Fault Refusal :=
  let n := elemWidth (m.extractLsb' 0 2)
  aluOp 4 d a b (packed n (satElem (m.extractLsb' 2 2).toNat op n)) s

/-- padd (05 R102). -/
def execPadd (d a b m : BitVec 5) (s : State) : Host.Outcome State Fault Refusal := packedSum d a b m (fun x y => x + y) s

/-- psub (05 R102). -/
def execPsub (d a b m : BitVec 5) (s : State) : Host.Outcome State Fault Refusal := packedSum d a b m (fun x y => x - y) s

/-- bfx (05 R103). -/
def execBfx (d a b len1 : BitVec 5) (s : State) : Host.Outcome State Fault Refusal := aluOp 4 d a b (fun x y => bitField x y len1) s

/-- mul (05 Table 5-10, R105). -/
def execMul (d a b : BitVec 5) (s : State) : Host.Outcome State Fault Refusal := aluOp 4 d a b intMul s

/-- mulh (05 Table 5-10, R105). -/
def execMulh (d a b : BitVec 5) (s : State) : Host.Outcome State Fault Refusal := aluOp 4 d a b intMulh s

/-- mulhu (05 Table 5-10, R105). -/
def execMulhu (d a b : BitVec 5) (s : State) : Host.Outcome State Fault Refusal := aluOp 4 d a b intMulhu s

/-- div (05 Table 5-10, R105). -/
def execDiv (d a b : BitVec 5) (s : State) : Host.Outcome State Fault Refusal := aluOp 4 d a b intDiv s

/-- rem (05 Table 5-10, R105). -/
def execRem (d a b : BitVec 5) (s : State) : Host.Outcome State Fault Refusal := aluOp 4 d a b intRem s

/-- divu (05 Table 5-10, R105). -/
def execDivu (d a b : BitVec 5) (s : State) : Host.Outcome State Fault Refusal := aluOp 4 d a b intDivu s

/-- remu (05 Table 5-10, R105). -/
def execRemu (d a b : BitVec 5) (s : State) : Host.Outcome State Fault Refusal := aluOp 4 d a b intRemu s

/-- madd reads S[D] as a third source (05 R104). -/
def execMadd (d a b : BitVec 5) (s : State) : Host.Outcome State Fault Refusal :=
  onA s [d, a, b] (fun ag q => s.finish ag (q.setReg d (q.reg d + q.reg a * q.reg b)) 4)

end Sys2Proof.Machine
end

