-- ==== Sys2Proof/Machine/Matrix.lean ====
section
/-! DEFINITION. The matrix commands: checks at issue, starts, granules and the other forms (02 R37 to R42; 09 R201 to R215;
10 R225). -/

namespace Sys2Proof.Machine

/-! ## Operand formats (09 Table 9-7) -/

/-- Bytes of `n` elements of a format code. -/
def fmtBytes (fmt n : Nat) : Nat := if fmt ≤ 1 then 2 * n else if fmt = 6 then (n + 1) / 2 else n

/-- The floating-point format of an operand; `isB` is the second. -/
def operandFmt (fmt : Nat) (isB : Bool) : Fmt :=
  match fmt with
  | 0 => bf16
  | 1 => fp16
  | 2 => e4m3
  | 3 => e5m2
  | _ => if isB then e5m2 else e4m3

/-- The value of an element's bits; MX-FP4 elements have a scale (02 R28). -/
def elementValue (fmt : Nat) (isB : Bool) (scale x : Nat) : FV :=
  if fmt = 5 then FV.ofInt (signedOf 8 x)
  else if fmt = 6 then mxValue scale x
  else FV.ofBits (operandFmt fmt isB) x

/-- Element k of packed bytes. -/
def elementBits (fmt : Nat) (bs : List Byte) (k : Nat) : Nat :=
  if fmt ≤ 1 then leValue ((bs.drop (2 * k)).take 2)
  else if fmt = 6 then ((bs.getD (k / 2) 0).toNat / 16 ^ (k % 2)) % 16
  else (bs.getD k 0).toNat

def elementValues (fmt : Nat) (isB : Bool) (scale n : Nat) (bs : List Byte) : List FV :=
  (List.range n).map (fun k => elementValue fmt isB scale (elementBits fmt bs k))

/-! ## Granules (02 R37, R38, R41) -/

/-- An exact sum; a zero is -0 only if every term is. -/
def sumFV : List FV → FV
  | [] => .fin false 0 0
  | x :: rest => rest.foldl (FV.add .rne) x

def dotFV (a b : List FV) : FV := sumFV (List.zipWith FV.mul a b)

/-- The operands of one granule: rows of A and columns of B. -/
structure Granule where
  a : List (List FV)
  b : List (List FV)
  deriving DecidableEq, Repr

/-- Element-wise exact sums of rows of equal length. -/
def columnSums (n : Nat) (rows : List (List FV)) : List FV :=
  (List.range n).map (fun k => sumFV (rows.map (fun r => r.getD k (.fin false 0 0))))

def roundFP32 (mode : Mode) (v : FV) : BitVec 32 := BitVec.ofNat 32 (roundTo fp32 mode false v).bits

def ofFP32 (x : BitVec 32) : FV := FV.ofBits fp32 x.toNat

/-- One accumulation into FP32 (02 R37). -/
def accumFP32 (old : BitVec 32) (s : FV) : BitVec 32 := roundFP32 .rne ((ofFP32 old).add .rne (ofFP32 (roundFP32 .rne s)))

/-- Saturating addition to INT32 (02 R41): the sum, and whether it saturated. -/
def accumI32 (old : BitVec 32) (s : Int) : BitVec 32 × Bool :=
  let t := old.toInt + s
  let r := clampInt t (-(2 ^ 31 : Nat)) ((2 ^ 31 : Nat) - 1)
  (BitVec.ofInt 32 r, decide (r ≠ t))

def FV.intOf (v : FV) : Int :=
  match v with
  | .fin neg m e => scaled neg m e 0
  | _ => 0

/-- What a multiply-class command does, as mxmm describes it. -/
structure Multiply where
  t : Nat
  m : Nat
  n : Nat
  k : Nat
  fmt : Nat
  ck : Bool
  fresh : Bool
  deriving DecidableEq, Repr

/-- Rows and columns of E with their indices: under CK the sums stand at index 63 (09 R208). -/
def Multiply.rows (p : Multiply) (g : Granule) (len : Nat) : List (Nat × List FV) :=
  (List.range p.m).zip g.a ++ (if p.ck then [(63, columnSums len g.a)] else [])

def Multiply.cols (p : Multiply) (g : Granule) (len : Nat) : List (Nat × List FV) :=
  (List.range p.n).zip g.b ++ (if p.ck then [(63, columnSums len g.b)] else [])

/-- The indices of E. -/
def Multiply.indices (p : Multiply) : List (Nat × Nat) :=
  let ext (n : Nat) : List Nat := List.range n ++ (if p.ck then [63] else [])
  (ext p.m).flatMap (fun i => (ext p.n).map (fun j => (i, j)))

/-- The magnitude sums of one granule (10 R225). -/
def addMu (old : List (BitVec 32)) (n : Nat) (term : Nat → FV) : List (BitVec 32) :=
  (List.range n).map (fun i =>
    roundFP32 .rup ((ofFP32 (old.getD i 0)).add .rup (ofFP32 (roundFP32 .rup (term i)))))

/-- The check state after a granule. -/
def Tile.addGranule (x : Tile) (p : Multiply) (g : Granule) (len : Nat) : Tile :=
  let absA := g.a.map (·.map FV.abs)
  let absB := g.b.map (·.map FV.abs)
  let wA := columnSums len absA
  let wB := columnSums len absB
  let bad := (g.a ++ g.b).any (·.any (fun v => v.isNaN || v.isInf))
  { x with
    muR := addMu x.muR p.m (fun i => dotFV (absA.getD i []) wB)
    muC := addMu x.muC p.n (fun j => dotFV wA (absB.getD j []))
    nf := x.nf || bad }

/-- Commit one granule into the cell's tile: every element of E takes it (09 R208). -/
def Cell.commitGranule (c : Cell) (p : Multiply) (g : Granule) (len : Nat) : Cell :=
  let x := c.tile p.t
  let cells := (p.rows g len).flatMap (fun r => (p.cols g len).map (fun q => (r.1, q.1, dotFV r.2 q.2)))
  let out := cells.map (fun e =>
    let old := c.acc p.t e.1 e.2.1
    if p.fmt = 5 then (accKey p.t e.1 e.2.1, accumI32 old e.2.2.intOf)
    else (accKey p.t e.1 e.2.1, (accumFP32 old e.2.2, false)))
  let x := { x with sat := x.sat || out.any (fun o => o.2.2) }
  let x := if p.ck && x.cv then x.addGranule p g len else { x with cv := false }
  (c.setAccs (out.map (fun o => (o.1, o.2.1)))).setTile p.t x

/-- The start of a multiply-class command (09 R208, 10 R225). -/
def Cell.startMultiply (c : Cell) (p : Multiply) : Cell :=
  let zeros (n : Nat) : List (BitVec 32) := List.replicate n 0
  if p.fresh then
    let c := c.clearTile p.t
    if p.ck then
      c.setTile p.t { Tile.clear with cv := true, cm := p.m, cn := p.n, muR := zeros p.m, muC := zeros p.n }
    else c
  else
    let x := c.tile p.t
    if p.ck && !(x.cv && x.cm == p.m && x.cn == p.n) then c.setTile p.t { x with cv := false } else c

/-- The number of indices in granule g. -/
def granuleLen (k g : Nat) : Nat := min 32 (k - 32 * g)

/-! ## Fields of shape and stride values (09 R203) -/

def shapeK (v : Word) : Nat := bits v.toNat 47 32
def shapeN (v : Word) : Nat := bits v.toNat 29 24 + 1
def shapeM (v : Word) : Nat := bits v.toNat 21 16 + 1
def shapeS (v : Word) : Nat := bits v.toNat 12 8
def shapeT (v : Word) : Nat := bits v.toNat 4 0
def strideA (v : Word) : Nat := bits v.toNat 31 0
def strideB (v : Word) : Nat := bits v.toNat 63 32

/-- Reserved bits 63:48, 31:30, 23:22, 15:13 and 7:5. -/
def shapeReserved (v : Word) : Bool := v &&& 0xFFFF0000C0C0E0E0#64 != 0

/-- Which fields of the shape value a form uses. -/
structure ShapeUse where
  k : Bool
  mn : Bool
  s : Bool
  deriving DecidableEq, Repr

def ShapeUse.bad (u : ShapeUse) (v : Word) : Bool :=
  shapeReserved v || (!u.k && shapeK v != 0) || (!u.mn && (shapeM v != 1 || shapeN v != 1)) || (!u.s && shapeS v != 0)

/-- The values of an MXM form, by name; absent ones are 0. -/
structure MxVals where
  a : Word := 0
  b : Word := 0
  s : Word := 0
  d : Word := 0
  t : Word := 0
  xa : Word := 0
  xb : Word := 0
  deriving DecidableEq, Repr

/-- The lowest code of 09 Table 9-2 that applies; 0 for none. -/
def Cell.matrixCode (c : Cell) (v : MxVals) (u : ShapeUse) (strideBad : Bool) (limit unit : Bool) (scales same : Bool) : Nat :=
  if !c.tileHeld (shapeT v.d) || (u.s && !c.tileHeld (shapeS v.d)) then 0x05
  else if u.bad v.d || strideBad then 0x06
  else if limit then 0x07
  else if unit then 0x08
  else if scales then 0x09
  else if same then 0x0A
  else 0

def multipleOf (n : Nat) (v : Nat) : Bool := v % n == 0

def combPath (a : Word) : Bool := let p := bits a.toNat 63 60; p == 1 || p == 3

/-- An MXM form issues once its checks pass (09 R204); they come before the time fault of a timed command that issues after its
Start (log 118). -/
def matrixForm (i : Instr) (s : State) (code : Cell → List Word → Nat) (work : Nat → List Word → Issue) (stampIdx : Nat) :
    Host.Outcome State Fault Refusal :=
  onEngine i [.matrix] s (fun key c vs =>
    match code c vs with
    | 0 => s.enqueue key c i vs (val vs stampIdx) (work key vs)
    | n => s.matrixTrap key n)

/-! ## mxmm -/

def mmVals (vs : List Word) : MxVals :=
  { a := val vs 0, b := val vs 1, s := val vs 2, d := val vs 3, t := val vs 4, xa := val vs 5, xb := val vs 6 }

/-- The span of M rows of `rb` bytes. -/
def rowsLen (m stride rb : Nat) : Nat := (m - 1) * stride + rb

/-- The scale arrays of an mxmm of FMT 6 (09 R206). -/
def mmScales (key : Nat) (v : MxVals) : List Rng :=
  let g := ceilDiv (shapeK v.d) 32
  if g = 0 then [] else [mkRange key v.xa (shapeM v.d * g) false false, mkRange key v.xb (shapeN v.d * g) false false]

/-- Read ranges of mxmm; the span of the scales is formed on the names that 08 R179 compares (09 R207). -/
def mmRanges (key : Nat) (fmt : Nat) (tag : Bool) (v : MxVals) : List Rng :=
  let k := shapeK v.d
  if k = 0 then []
  else
    let rb := fmtBytes fmt k
    let g := ceilDiv k 32
    let m := shapeM v.d
    let n := shapeN v.d
    [mkRange key v.a (rowsLen m (strideA v.s) rb) false tag, mkRange key v.b (rowsLen n (strideB v.s) rb) false tag] ++
      (if fmt = 6 then
        let a := mkRange key v.xa (m * g) false false
        let b := mkRange key v.xb (n * g) false false
        let lo := if a.name ≤ b.name then a else b
        [{ lo with len := max (a.name + a.len) (b.name + b.len) - lo.name }]
      else [])

def mmCode (fmt : Nat) (ck : Bool) (c : Cell) (v : MxVals) : Nat :=
  c.matrixCode v { k := true, mn := true, s := false } false
    (decide (16384 < shapeK v.d) || (ck && (decide (63 < shapeM v.d) || decide (63 < shapeN v.d))))
    (!(multipleOf 16 v.a.toNat && multipleOf 16 v.b.toNat && multipleOf 16 (strideA v.s) && multipleOf 16 (strideB v.s)))
    (decide (fmt = 6) && ((combPath v.xa && isTranslated v.xb.toNat) || (combPath v.xb && isTranslated v.xa.toNat))) false

/-- mxmm (09 R205 to R208). -/
def execMxmm (e : EngineFlags) (fmt : BitVec 3) (ck new zs : Bool) (tm : BitVec 2) (sA sB sS sD sT sXA sXB : BitVec 5)
    (s : State) : Host.Outcome State Fault Refusal :=
  matrixForm (.mxmm e fmt ck new zs tm sA sB sS sD sT sXA sXB) s
    (fun c vs => mmCode fmt.toNat ck c (mmVals vs))
    (fun key vs =>
      let v := mmVals vs
      { ranges := mmRanges key fmt.toNat e.tag v, tiles := [shapeT v.d], dtile := some (shapeT v.d), slotted := false }) 4

/-- The row spans of granule g. -/
def granuleSpans (base : Word) (m stride fmt k g : Nat) : List (Nat × Nat) :=
  (List.range m).map (fun i => (base.toNat + i * stride + fmtBytes fmt (32 * g), fmtBytes fmt (granuleLen k g)))

/-- Read rows of one operand. -/
def State.readRows (s : State) (key opnd : Nat) (spans : List (Nat × Nat)) : Eng (List (List Byte)) :=
  Eng.all (spans.map (fun p => s.engRead key opnd p.1 p.2))

/-- Read the operands of granule g of an operand and its scales. -/
def State.readOperand (s : State) (key opnd : Nat) (fmt k g m stride : Nat) (base x : Word) (isB : Bool) : Eng (List (List FV)) :=
  let rows := s.readRows key opnd (granuleSpans base m stride fmt k g)
  let scales := if fmt = 6 then
      s.readRows key (opnd + 2) ((List.range m).map (fun i => (x.toNat + i * ceilDiv k 32 + g, 1)))
    else .ok (List.replicate m [])
  (rows.both scales).map (fun p => (p.1.zip p.2).map (fun r =>
    elementValues fmt isB ((r.2.headD 0).toNat) (granuleLen k g) r.1))

/-- Commit a granule into the tile, unless an element that it accumulates into is poisoned. -/
def commitUnit (s : State) (key : Nat) (c : Cell) (x : Cmd) (p : Multiply) (g : Nat) (ops : Eng Granule) : Eng Worked :=
  ops.bind (fun q =>
    if c.accPoisoned (p.indices.map (fun ij => accKey p.t ij.1 ij.2)) then .fail 1
    else .ok { s := s.setCell key (c.commitGranule p q (granuleLen p.k g)), x })

def mmForm (s : State) (key : Nat) (c : Cell) (x : Cmd) (fmt : Nat) (ck new : Bool) : Form :=
  let v := mmVals x.vals
  let p : Multiply := { t := shapeT v.d, m := shapeM v.d, n := shapeN v.d, k := shapeK v.d, fmt, ck, fresh := new }
  { ranges := x.ranges
    access := x.ranges.take 2 ++ (if fmt = 6 then mmScales key v else [])
    units := ceilDiv p.k 32
    spans := fun g => if x.instr.flags.tag then
        ((granuleSpans v.a p.m (strideA v.s) fmt p.k g) ++ (granuleSpans v.b p.n (strideB v.s) fmt p.k g)).map (fun r => tagSpan key r.1 r.2 false)
      else []
    paths := fun _ q => q != 4
    early := []
    late := []
    last := [failIf (!new && (c.tile p.t).partialK) 2]
    start := { s := s.setCell key (c.startMultiply p), x }
    unit := fun g =>
      let a := s.readOperand key 1 fmt p.k g p.m (strideA v.s) v.a v.xa false
      let b := s.readOperand key 2 fmt p.k g p.n (strideB v.s) v.b v.xb true
      commitUnit s key c x p g ((a.both b).map (fun q => { a := q.1, b := q.2 }))
    failing := fun _ => s
    checked := false }

/-! ## mxmma (09 R210) -/

def mmaVals (vs : List Word) : MxVals := { b := val vs 0, s := val vs 1, d := val vs 2, t := val vs 3 }

def mmaCode (c : Cell) (v : MxVals) : Nat :=
  c.matrixCode v { k := true, mn := true, s := true } (decide (strideA v.s ≠ 0)) (decide (64 < shapeK v.d))
    (!(multipleOf 16 v.b.toNat && multipleOf 16 (strideB v.s))) false (decide (shapeS v.d = shapeT v.d))

def mmaRanges (key : Nat) (tag : Bool) (v : MxVals) : List Rng :=
  let k := shapeK v.d
  if k = 0 then [] else [mkRange key v.b (rowsLen (shapeN v.d) (strideB v.s) (2 * k)) false tag]

/-- mxmma (09 R210). -/
def execMxmma (e : EngineFlags) (new zs : Bool) (tm : BitVec 2) (sB sS sD sT : BitVec 5) (s : State) :
    Host.Outcome State Fault Refusal :=
  matrixForm (.mxmma e new zs tm sB sS sD sT) s (fun c vs => mmaCode c (mmaVals vs))
    (fun key vs =>
      let v := mmaVals vs
      { ranges := mmaRanges key e.tag v, tiles := [shapeT v.d, shapeS v.d], dtile := some (shapeT v.d), slotted := false }) 3

/-- Row i of the source tile, as BF16 (09 Table 9-8). -/
def Cell.sourceRow (c : Cell) (t i k0 n : Nat) : List FV :=
  (List.range n).map (fun k => FV.ofBits bf16 (roundTo bf16 .rne false (ofFP32 (c.acc t i (k0 + k)))).bits)

def mmaForm (s : State) (key : Nat) (c : Cell) (x : Cmd) (new : Bool) : Form :=
  let v := mmaVals x.vals
  let src := shapeS v.d
  let p : Multiply := { t := shapeT v.d, m := shapeM v.d, n := shapeN v.d, k := shapeK v.d, fmt := 0, ck := false, fresh := new }
  { ranges := x.ranges
    access := x.ranges
    units := ceilDiv p.k 32
    spans := fun g => if x.instr.flags.tag then
        (granuleSpans v.b p.n (strideB v.s) 0 p.k g).map (fun r => tagSpan key r.1 r.2 false) else []
    paths := fun _ q => q != 4
    early := []
    late := []
    last := [failIf ((!new && (c.tile p.t).partialK) || (c.tile src).partialK) 2]
    start := { s := s.setCell key (c.startMultiply p), x }
    unit := fun g =>
      let len := granuleLen p.k g
      let keys := (List.range p.m).flatMap (fun i => (List.range len).map (fun k => accKey src i (32 * g + k)))
      let b := s.readOperand key 2 0 p.k g p.n (strideB v.s) v.b 0 true
      commitUnit s key c x p g
        (b.bind (fun cols => if c.accPoisoned keys then .fail 1
          else .ok { a := (List.range p.m).map (fun i => c.sourceRow src i (32 * g) len), b := cols }))
    failing := fun _ => s
    checked := false }

/-! ## mxld (09 R210) -/

def ldVals (vs : List Word) : MxVals := { a := val vs 0, s := val vs 1, d := val vs 2, t := val vs 3 }

def ldCode (c : Cell) (v : MxVals) : Nat :=
  c.matrixCode v { k := false, mn := true, s := false } (decide (strideB v.s ≠ 0)) false
    (!(multipleOf 4 v.a.toNat && multipleOf 4 (strideA v.s))) false false

/-- mxld (09 R210). -/
def execMxld (e : EngineFlags) (accum i32 : Bool) (tm : BitVec 2) (sA sS sD sT : BitVec 5) (s : State) :
    Host.Outcome State Fault Refusal :=
  matrixForm (.mxld e accum i32 tm sA sS sD sT) s (fun c vs => ldCode c (ldVals vs))
    (fun key vs =>
      let v := ldVals vs
      { ranges := [mkRange key v.a (rowsLen (shapeM v.d) (strideA v.s) (4 * shapeN v.d)) false e.tag]
        tiles := [shapeT v.d], dtile := some (shapeT v.d), slotted := false }) 3

/-- Row i of mxld enters the tile. -/
def Cell.loadRow (c : Cell) (t i : Nat) (accum i32 : Bool) (vs : List (BitVec 32)) : Cell :=
  let new := (List.range vs.length).map (fun j =>
    let old := c.acc t i j
    let v := vs.getD j 0
    if !accum then (accKey t i j, (v, false))
    else if i32 then (accKey t i j, accumI32 old v.toInt)
    else (accKey t i j, (roundFP32 .rne ((ofFP32 old).add .rne (ofFP32 v)), false)))
  let x := c.tile t
  (c.setAccs (new.map (fun o => (o.1, o.2.1)))).setTile t
    { x with sat := x.sat || new.any (fun o => o.2.2), cv := false }

def ldForm (s : State) (key : Nat) (c : Cell) (x : Cmd) (accum i32 : Bool) : Form :=
  let v := ldVals x.vals
  let t := shapeT v.d
  let n := shapeN v.d
  let row (i : Nat) : Nat := v.a.toNat + i * strideA v.s
  { ranges := x.ranges
    access := x.ranges
    units := shapeM v.d
    spans := fun i => if x.instr.flags.tag then [tagSpan key (row i) (4 * n) false] else []
    paths := fun _ q => q != 4
    early := []
    late := []
    last := [failIf (accum && (c.tile t).partialK) 2]
    start := { s := if accum then s else s.setCell key (c.clearTile t), x }
    unit := fun i => (s.engRead key 1 (row i) (4 * n)).bind (fun bs =>
      if accum && c.accPoisoned ((List.range n).map (accKey t i)) then .fail 1
      else
        let vs := (List.range n).map (fun j => BitVec.ofNat 32 (leValue ((bs.drop (4 * j)).take 4)))
        .ok { s := s.setCell key (c.loadRow t i accum i32 vs), x })
    failing := fun _ => s
    checked := false }

/-! ## mxclr, mxmv, mxmark (09 R210) -/

def clrVals (vs : List Word) : MxVals := { d := val vs 0, t := val vs 1 }

/-- mxclr (09 R210). -/
def execMxclr (e : EngineFlags) (tm : BitVec 2) (sD sT : BitVec 5) (s : State) : Host.Outcome State Fault Refusal :=
  matrixForm (.mxclr e tm sD sT) s
    (fun c vs => c.matrixCode (clrVals vs) { k := false, mn := false, s := false } false false false false false)
    (fun _ vs => { ranges := [], tiles := [shapeT (val vs 0)], dtile := some (shapeT (val vs 0)), slotted := false }) 1

def clrForm (s : State) (key : Nat) (c : Cell) (x : Cmd) : Form :=
  Form.base s x [] 1 (fun _ => .ok { s := s.setCell key (c.clearTile (shapeT (val x.vals 0))), x })

/-- mxmv (09 R210). -/
def execMxmv (e : EngineFlags) (tr : Bool) (tm : BitVec 2) (sD sT : BitVec 5) (s : State) : Host.Outcome State Fault Refusal :=
  matrixForm (.mxmv e tr tm sD sT) s
    (fun c vs => c.matrixCode (clrVals vs) { k := false, mn := true, s := true } false false false false false)
    (fun _ vs =>
      { ranges := [], tiles := [shapeT (val vs 0), shapeS (val vs 0)], dtile := some (shapeT (val vs 0)), slotted := false }) 1

/-- Every source element is read before any write. -/
def Cell.moveTile (c : Cell) (v : Word) (tr : Bool) : Cell :=
  let t := shapeT v
  let src := shapeS v
  let ij := (List.range (shapeM v)).flatMap (fun i => (List.range (shapeN v)).map (fun j => (i, j)))
  let x := c.tile t
  (c.setAccs (ij.map (fun p => (accKey t p.1 p.2, if tr then c.acc src p.2 p.1 else c.acc src p.1 p.2)))).setTile t
    { Tile.clear with sat := x.sat || (c.tile src).sat, partialK := x.partialK }

def mvForm (s : State) (key : Nat) (c : Cell) (x : Cmd) (tr : Bool) : Form :=
  let v := val x.vals 0
  let src := shapeS v
  let keys := (List.range (shapeM v)).flatMap (fun i => (List.range (shapeN v)).map (fun j =>
    if tr then accKey src j i else accKey src i j))
  { Form.base s x [] 1 (fun _ => if c.accPoisoned keys then .fail 1 else .ok { s := s.setCell key (c.moveTile v tr), x }) with
    last := [failIf (c.tile src).partialK 2] }

/-- mxmark without a stamp (09 R210). -/
def execMxmark (e : EngineFlags) (s : State) : Host.Outcome State Fault Refusal :=
  matrixForm (.mxmark e) s (fun _ _ => 0) (fun _ _ => Issue.plain []) 0

/-- mxmark with a stamp (09 R210). -/
def execMxmarkStamped (e : EngineFlags) (tm : BitVec 2) (sT : BitVec 5) (s : State) : Host.Outcome State Fault Refusal :=
  matrixForm (.mxmarkStamped e tm sT) s (fun _ _ => 0) (fun _ _ => Issue.plain []) 0

def markForm (s : State) (x : Cmd) : Form := Form.base s x [] 0 (fun _ => .ok { s, x })

end Sys2Proof.Machine
end

