-- ==== Sys2Proof/Machine/Tables.lean ====
section
/-! DEFINITION. The tables of version 1 (12 R265), computed from the exact mathematical values of each core: V[k], the
core at the start of segment k, and S[k], the slope of its chord, both rounded once to FP32. A list holds eight numbers
of 32 entries each, the first entry in the lowest 32 bits. -/

namespace Sys2Proof.Machine

/-- V of 2^t on [0, 1), w = 1/256. -/
def exp2V : List Nat :=
  [0x3F8B35233F8AD4C63F8A74AD3F8A14D53F89B5413F8955EE3F88F6DD3F88980F3F8839813F87DB353F877D2B3F871F623F86C1D93F8664913F86078A3F85AAC33F854E3D3F84F1F63F8495F03F843A293F83DEA13F8383593F8328503F82CD873F8272FC3F8218AF3F81BEA13F8164D23F810B413F80B1ED3F8058D83F800000,
   0x3F97CE923F97657D3F96FCB13F96942D3F962BF23F95C3FF3F955C533F94F4F03F948DD43F9426FF3F93C0723F935A2B3F92F42C3F928E723F9229003F91C3D33F915EED3F90FA4D3F9095F23F9031DC3F8FCE0C3F8F6A813F8F073B3F8EA43A3F8E417D3F8DDF043F8D7CD03F8D1ADF3F8CB9333F8C57CA3F8BF6A43F8B95C2,
   0x3FA58BEF3FA519583FA4A70F3FA435163FA3C36B3FA3520F3FA2E1023FA270433FA1FFD23FA18FAF3FA11FD93FA0B0513FA041163F9FD2283F9F63873F9EF5323F9E872A3F9E196E3F9DABFE3F9D3EDA3F9CD2013F9C65733F9BF9313F9B8D3A3F9B218D3F9AB62B3F9A4B133F99E0463F9975C23F990B883F98A1973F9837F0,
   0x3FB487A63FB40AAF3FB38E0E3FB311C43FB295D03FB21A323FB19EE93FB123F63FB0A9573FB02F0E3FAFB5193FAF3B793FAEC22D3FAE49343FADD0903FAD583F3FACE0413FAC68973FABF13F3FAB7A3A3FAB03873FAA8D263FAA17183FA9A15B3FA92BEF3FA8B6D53FA8420C3FA7CD943FA7596C3FA6E5953FA6720E3FA5FED7,
   0x3FC4DE853FC4563F3FC3CE573FC346CD3FC2BFA13FC238D23FC1B2613FC12C4D3FC0A6953FC0213B3FBF9C3C3FBF179A3FBE93533FBE0F683FBD8BD83FBD08A43FBC85CA3FBC034A3FBB81263FBAFF5B3FBA7DEA3FB9FCD23FB97C143FB8FBAF3FB87BA33FB7FBF03FB77C953FB6FD923FB67EE73FB600943FB582983FB504F3,
   0x3FD6AFFA3FD61B5E3FD587293FD4F35B3FD45FF33FD3CCF13FD33A543FD2A81E3FD2164C3FD184DF3FD0F3D73FD063343FCFD2F43FCF43193FCEB3A13FCE248C3FCD95DA3FCD078C3FCC799F3FCBEC153FCB5EED3FCAD2263FCA45C13FC9B9BE3FC92E1B3FC8A2D83FC817F73FC78D753FC703533FC679913FC5F02E3FC5672A,
   0x3FEA1E473FE97C383FE8DA993FE8396A3FE798AB3FE6F85B3FE658793FE5B9073FE51A033FE47B6D3FE3DD443FE33F893FE2A23C3FE2055B3FE168E73FE0CCDF3FE031433FDF96133FDEFB4E3FDE60F53FDDC7063FDD2D823FDC94683FDBFBB83FDB63713FDACB943FDA34213FD99D163FD906733FD870393FD7DA673FD744FD,
   0x3FFF4ECB3FFE9E113FFDEDD23FFD3E0C3FFC8EC03FFBDFED3FFB31943FFA83B33FF9D64A3FF9295A3FF87CE13FF7D0DF3FF725553FF67A413FF5CFA43FF5257D3FF47BCC3FF3D2903FF329C93FF281773FF1D99A3FF132313FF08B3B3FEFE4BA3FEF3EAB3FEE99103FEDF3E73FED4F303FECAAEC3FEC07193FEB63B73FEAC0C7]

/-- S of 2^t on [0, 1), w = 1/256. -/
def exp2S : List Nat :=
  [0x3F413E813F40B8BD3F4033553F3FAE4A3F3F299B3F3EA5483F3E21513F3D9DB53F3D1A743F3C978E3F3C15023F3B92D13F3B10FA3F3A8F7C3F3A0E593F398D8F3F390D1E3F388D063F380D463F378DDF3F370ED03F3690193F3611BA3F3593B23F3516023F3498A83F341BA63F339EFA3F3322A43F32A6A43F322AFA3F31AFA6,
   0x3F52BBF73F522A183F51989E3F5107883F5076D73F4FE68A3F4F56A13F4EC71B3F4E37F93F4DA93A3F4D1ADD3F4C8CE43F4BFF4C3F4B72173F4AE5433F4A58D13F49CCC03F4941103F48B5C03F482AD13F47A0433F4716143F468C453F4602D53F4579C43F44F1123F4468BF3F43E0CA3F4359343F42D1FB3F424B1F3F41C4A2,
   0x3F65CEAD3F652F993F6490F43F63F2BD3F6354F33F62B7973F621AA73F617E243F60E20E3F6046633F5FAB243F5F10513F5E75E93F5DDBEC3F5D42593F5CA9313F5C10723F5B781E3F5AE0323F5A48B03F59B1973F591AE73F58849E3F57EEBE3F5759463F56C4353F562F8B3F559B483F55076C3F5473F63F53E0E63F534E3C,
   0x3F7A9B4E3F79EDD53F7940D43F78944B3F77E83A3F773C9F3F76917B3F75E6CE3F753C973F7492D53F73E98A3F7340B33F7298513F71F0643F7148EB3F70A1E63F6FFB553F6F55363F6EAF8B3F6E0A533F6D658D3F6CC1393F6C1D563F6B79E63F6AD6E63F6A34573F6992393F68F08B3F684F4C3F67AE7E3F670E1E3F666E2E,
   0x3F88A4EE3F8846573F87E8033F8789EF3F872C1D3F86CE8C3F86713B3F86142B3F85B75C3F855ACD3F84FE7D3F84A26E3F84469E3F83EB0E3F838FBE3F8334AC3F82D9DA3F827F463F8224F23F81CADB3F8171033F81176A3F80BE0E3F8064F03F800C103F7F66DA3F7EB6103F7E05BF3F7D55E93F7CA68D3F7BF7A93F7B493F,
   0x3F9502F93F949BD33F9434F53F93CE5E3F93680E3F9302053F929C423F9236C63F91D1903F916CA03F9107F63F90A3923F903F733F8FDB993F8F78053F8F14B53F8EB1AA3F8E4EE43F8DEC623F8D8A253F8D282B3F8CC6753F8C65033F8C03D53F8BA2E93F8B42413F8AE1DB3F8A81B93F8A21D83F89C23B3F8962DF3F8903C5,
   0x3FA27F923FA20F163FA19EE83FA12F083FA0BF753FA050303F9FE1383F9F728C3F9F042D3F9E961A3F9E28543F9DBADA3F9D4DAB3F9CE0C83F9C74303F9C07E43F9B9BE23F9B302B3F9AC4BF3F9A599D3F99EEC63F9984383F9919F43F98AFF93F9846483F97DCE03F9773C13F970AEB3F96A25E3F963A183F95D21B3F956A66,
   0x3FB134A73FB0B9FD3FB03FA83FAFC5A83FAF4BFC3FAED2A43FAE59A13FADE0F13FAD68953FACF08C3FAC78D63FAC01733FAB8A623FAB13A43FAA9D393FAA271F3FA9B1573FA93BE03FA8C6BB3FA851E73FA7DD643FA769313FA6F54F3FA681BD3FA60E7B3FA59B893FA528E63FA4B6933FA4448F3FA3D2DA3FA361733FA2F05B]

/-- V of log2 t on [1, 2), w = 1/256. -/
def log2V : List Nat :=
  [0x3E28DD5D3E23B5503E1E88A33E19574F3E14214A3E0EE68D3E09A70E3E0462C43DFE33503DF397613DE8F1A73DDE42123DD3888F3DC8C50B3DBDF7753DB31FB83DA83DC23D9D517F3D925ADC3D8759C53D789C4C3D626FD63D4C2DFE3D35D69C3D1F69853D08E68F3CE49B1E3CB73CB43C89B1893C37F2863BB84E2300000000,
   0x3EA283E83EA032323E9DDE9D3E9B89263E9931CB3E96D8883E947D5A3E92203D3E8FC1303E8D602E3E8AFD343E88983F3E86314C3E83C8573E815D5D3E7DE0B63E79029A3E74205F3E6F39FF3E6A4F723E6560B23E606DB63E5B76793E567AF13E517B193E4C76E83E476E573E42615F3E3D4FF63E383A173E331FB83E2E00D2,
   0x3EE920A63EE705253EE4E8183EE2C97D3EE0A9533EDE87973EDC64473EDA3F603ED818DF3ED5F0C43ED3C70A3ED19BB03ECF6EB43ECD40123ECB0FC83EC8DDD43EC6AA343EC474E43EC23DE23EC0052B3EBDCABD3EBB8E963EB950B23EB7110E3EB4CFA93EB28C7F3EB0478E3EAE00D23EABB8493EA96DF03EA721C43EA4D3C2,
   0x3F14C9903F13D2603F12DA8B3F11E20F3F10E8EB3F0FEF1F3F0EF4A93F0DF9893F0CFDBE3F0C01463F0B04223F0A06503F0907CF3F08089E3F0708BC3F0608283F0506E23F0404E83F0302393F01FED43F00FAB93EFFEBCD3EFDE0B63EFBD42B3EF9C62B3EF7B6B43EF5A5C23EF393553EF17F6A3EEF69FF3EED53113EEB3A9F,
   0x3F326C773F31885C3F30A3B53F2FBE803F2ED8BC3F2DF2683F2D0B853F2C24113F2B3C0C3F2A53743F296A4A3F28808C3F27963A3F26AB533F25BFD63F24D3C23F23E7183F22F9D53F220BF93F211D843F202E743F1F3ECA3F1E4E833F1D5DA03F1C6C1F3F1B7A003F1A87423F1993E33F189FE43F17AB443F16B6013F15C01A,
   0x3F4DDB883F4D07C73F4C338C3F4B5ED73F4A89A73F49B3FB3F48DDD43F4807313F4730103F4658723F4580553F44A7BA3F43CEA03F42F5063F421AEB3F41404F3F4065313F3F89913F3EAD6E3F3DD0C83F3CF39D3F3C15EE3F3B37B93F3A58FF3F3979BD3F3899F53F37B9A43F36D8CB3F35F7693F35157D3F3433063F335004,
   0x3F6764CD3F669F353F65D9333F6512C73F644BF03F6384AD3F62BCFF3F61F4E53F612C5E3F60636A3F5F9A093F5ED0393F5E05FB3F5D3B4E3F5C70313F5BA4A43F5AD8A83F5A0C3A3F593F5A3F5872093F57A4463F56D60F3F5607653F5538483F5468B63F5398AF3F52C8323F51F7403F5125D73F5053F73F4F819F3F4EAED0,
   0x3F7F47283F7E8DF23F7DD4603F7D1A713F7C60233F7BA5783F7AEA6D3F7A2F043F79733C3F78B7143F77FA8C3F773DA43F76805A3F75C2B03F7504A43F7446363F7387653F72C8323F72089B3F7148A13F7088433F6FC7813F6F065A3F6E44CD3F6D82DB3F6CC0833F6BFDC53F6B3A9F3F6A77123F69B31E3F68EEC13F6829FB]

/-- S of log2 t on [1, 2), w = 1/256. -/
def log2S : List Nat :=
  [0x3FA46EAA3FA501973FA5958C3FA62A8B3FA6C0973FA757B43FA7EFE33FA889283FA923853FA9BEFF3FAA5B973FAAF9513FAB98313FAC38383FACD96C3FAD7BCE3FAE1F623FAEC42C3FAF6A303FB0116F3FB0B9EF3FB163B33FB20EBD3FB2BB133FB368B83FB417B03FB4C7FE3FB579A73FB62CAE3FB6E1183FB796E83FB84E23,
   0x3F93F69A3F946D883F94E5353F955DA43F95D6D63F9650CE3F96CB8D3F9747153F97C3683F9840893F98BE783F993D383F99BCCB3F9A3D333F9ABE733F9B408C3F9BC3803F9C47523F9CCC043F9D51973F9DD8103F9E5F6F3F9EE7B63F9F70EA3F9FFB0B3FA0861C3FA1121F3FA19F183FA22D083FA2BBF33FA34BDA3FA3DCC1,
   0x3F867E303F86E06C3F8743373F87A6933F880A823F886F043F88D41C3F8939CA3F89A00F3F8A06ED3F8A6E653F8AD6793F8B3F2A3F8BA8793F8C12683F8C7CF83F8CE82B3F8D54023F8DC07E3F8E2DA23F8E9B6E3F8F09E43F8F79053F8FE8D43F9059523F90CA803F913C603F91AEF43F92223E3F92963E3F930AF73F93806A,
   0x3F768A863F772F883F77D5663F787C253F7923C43F79CC453F7A75AC3F7B1FF83F7BCB2D3F7C774C3F7D24573F7DD2503F7E81383F7F31123F7FE1E03F8049D23F80A32F3F80FD0A3F8157623F81B2393F820D913F8269693F82C5C33F8322A03F8380023F83DDE93F843C573F849B4C3F84FACA3F855AD23F85BB643F861C84,
   0x3F638DB73F641A413F64A7793F6535613F65C3F93F6653433F66E3403F6773F13F6805593F6897773F692A4E3F69BDDF3F6A522B3F6AE7343F6B7CFA3F6C13813F6CAAC83F6D42D13F6DDB9F3F6E75313F6F0F8B3F6FAAAD3F7046983F70E3503F7180D43F721F263F72BE493F735E3D3F73FF053F74A0A13F7543153F75E661,
   0x3F5348153F53C1383F543AE73F54B5213F552FE93F55AB3F3F5627243F56A3993F57209F3F579E373F581C623F589B203F591A743F599A5E3F5A1ADF3F5A9BF83F5B1DAB3F5B9FF73F5C22DF3F5CA6633F5D2A853F5DAF463F5E34A63F5EBAA73F5F414A3F5FC8903F60507A3F60D90A3F6162413F61EC203F6276A73F6301D9,
   0x3F452E723F4597F13F4601E03F466C413F46D7153F47425C3F47AE173F481A473F4886EC3F48F4073F49619A3F49CFA43F4A3E273F4AAD233F4B1C993F4B8C8A3F4BFCF63F4C6DDF3F4CDF463F4D512A3F4DC38D3F4E36703F4EA9D43F4F1DB93F4F92203F50070A3F507C793F50F26C3F5168E53F51DFE53F52576C3F52CF7C,
   0x3F38D8753F3935273F3992363F39EFA23F3A4D6D3F3AAB973F3B0A203F3B69093F3BC8533F3C27FD3F3C88093F3CE8783F3D49493F3DAA7E3F3E0C173F3E6E143F3ED0773F3F33403F3F966F3F3FFA053F405E033F40C2693F4127393F418C723F41F2153F4258233F42BE9D3F4325833F438CD63F43F4973F445CC63F44C564]

/-- V of 1/t on [1, 2), w = 1/256. -/
def recipV : List Nat :=
  [0x3F6459333F6525983F65F36D3F66C2B43F6793733F6865AC3F6939653F6A0EA13F6AE5643F6BBDB33F6C97913F6D73043F6E500F3F6F2EB73F700F013F70F0F13F71D48C3F72B9D63F73A0D53F74898D3F7574043F76603E3F774E403F783E103F792FB23F7A232D3F7B18853F7C0FC13F7D08E53F7E03F83F7F00FF3F800000,
   0x3F4D71273F4E168A3F4EBCF93F4F64753F500D013F50B6A03F5161543F520D213F52BA083F53680D3F5417333F54C77B3F5578E93F562B813F56DF443F5794363F584A5A3F5901B23F59BA423F5A740E3F5B2F173F5BEB623F5CA8F13F5D67C93F5E27EB3F5EE95C3F5FAC1F3F6070383F6135AA3F61FC783F62C4A73F638E39,
   0x3F3AB6563F3B3EE73F3BC8413F3C52643F3CDD533F3D69103F3DF59D3F3E82FA3F3F112B3F3FA0303F40300C3F40C0C13F4152503F41E4BC3F4278063F430C313F43A13E3F4437303F44CE083F4565C83F45FE743F46980C3F4732943F47CE0C3F486A793F4907DA3F49A6343F4A45883F4AE5D83F4B87283F4C29783F4CCCCD,
   0x3F2B1CBE3F2B8F6A3F2C02B03F2C76923F2CEB103F2D602B3F2DD5E63F2E4C413F2EC33E3F2F3ADE3F2FB3223F302C0B3F30A59B3F311FD43F319AB63F3216433F32927C3F330F633F338CFA3F340B413F348A3A3F3509E73F358A483F360B613F368D313F370FBB3F3793013F3817033F389BC33F3921443F39A7863F3A2E8C,
   0x3F1DEB073F1E4CAD3F1EAECD3F1F11663F1F747A3F1FD80A3F203C173F20A0A13F2105A93F216B313F21D13A3F2237C33F229ECF3F23065E3F236E723F23D70A3F2440293F24A9CF3F2513FD3F257EB53F25E9F73F2655C43F26C21E3F272F053F279C7B3F280A813F2879173F28E83F3F2957FB3F29C84A3F2A392F3F2AAAAB,
   0x3F129CEC3F12F1143F13459C3F139A863F13EFD23F1445813F149B933F14F2093F1548E53F15A0253F15F7CC3F164FDA3F16A8503F17012E3F175A753F17B4263F180E413F1868C83F18C3BB3F191F1A3F197AE73F19D7233F1A33CD3F1A90E83F1AEE733F1B4C703F1BAADF3F1C09C13F1C69173F1CC8E13F1D29223F1D89D9,
   0x3F08D1813F091AC73F09645C3F09AE413F09F8743F0A42F83F0A8DCD3F0AD8F33F0B246B3F0B70343F0BBC513F0C08C13F0C55843F0CA29C3F0CF0093F0D3DCB3F0D8BE33F0DDA523F0E29183F0E78353F0EC7AB3F0F177A3F0F67A23F0FB8243F1009013F105A383F10ABCC3F10FDBC3F1150093F11A2B43F11F5BD3F124925,
   0x3F0040203F0080813F00C1223F0102043F0143283F01848E3F01C6363F0208213F024A4E3F028CC03F02CF753F03126F3F0355AD3F0399303F03DCF93F0421083F04655E3F04A9FA3F04EEDD3F0534083F05797C3F05BF373F06053C3F064B8A3F0692233F06D9053F0720333F0767AB3F07AF703F07F7813F083FDE3F088889]

/-- S of 1/t on [1, 2), w = 1/256. -/
def recipS : List Nat :=
  [0xBF4AF9F4BF4C6553BF4DD485BF4F4798BF50BE9ABF523999BF53B8A4BF553BCABF56C31ABF584EA2BF59DE73BF5B729DBF5D0B2FBF5EA83BBF6049D0BF61F001BF639ADEBF654A79BF66FEE5BF68B833BF6A7676BF6C39C2BF6E022ABF6FCFC2BF71A29DBF737AD1BF755873BF773B97BF792454BF7B12C0BF7D06F1BF7F00FF,
   0xBF245A86BF256324BF266E44BF277BEDBF288C28BF299EFCBF2AB472BF2BCC94BF2CE769BF2E04FBBF2F2553BF30487ABF316E79BF32975ABF33C326BF34F1E8BF3623AABF375875BF389053BF39CB51BF3B0977BF3C4AD1BF3D8F6ABF3ED74DBF402286BF417120BF42C328BF4418A8BF4571ADBF46CE45BF482E7ABF49925B,
   0xBF07CA6DBF089112BF09596BBF0A237FBF0AEF52BF0BBCE9BF0C8C4ABF0D5D7ABF0E307FBF0F055DBF0FDC1BBF10B4BEBF118F4BBF126BCABF134A3EBF142AAFBF150D23BF15F19FBF16D82BBF17C0CBBF18AB88BF199866BF1A876EBF1B78A5BF1C6C13BF1D61BEBF1E59AEBF1F53EABF205078BF214F61BF2250ACBF235460,
   0xBEE42652BEE5581DBEE68C50BEE7C2F3BEE8FC0ABEEA379EBEEB75B4BEECB655BEEDF986BEEF3F4EBEF087B6BEF1D2C3BEF3207EBEF470EDBEF5C419BEF71A08BEF872C3BEF9CE51BEFB2CBBBEFC8E08BEFDF240BEFF596DBF0061CABF011861BF01D07EBF028A26BF03455DBF040229BF04C08DBF05808DBF064230BF070579,
   0xBEC25C57BEC34CB6BEC43ED3BEC532B4BEC6285CBEC71FD1BEC81916BEC91430BECA1125BECB0FF7BECC10ADBECD134BBECE17D6BECF1E53BED026C6BED13135BED23DA5BED34C1BBED45C9CBED56F2EBED683D5BED79A98BED8B37BBED9CE85BEDAEBBBBEDC0B22BEDD2CC1BEDE509DBEDF76BCBEE09F25BEE1C9DCBEE2F6EA,
   0xBEA78EC5BEA84F1FBEA910C5BEA9D3BBBEAA9802BEAB5D9EBEAC2493BEACECE3BEADB691BEAE81A1BEAF4E16BEB01BF2BEB0EB3BBEB1BBF2BEB28E1BBEB361BABEB436D2BEB50D67BEB5E57CBEB6BF14BEB79A34BEB876DFBEB95519BEBA34E5BEBB1647BEBBF944BEBCDDDFBEBDC41BBEBEABFEBEBF958BBEC080C6BEC16DB3,
   0xBE91F089BE928CDBBE932A29BE93C875BE9467C0BE95080DBE95A95FBE964BB7BE96EF18BE979384BE9838FEBE98DF86BE998721BE9A2FD0BE9AD995BE9B8474BE9C306EBE9CDD85BE9D8BBDBE9E3B18BE9EEB99BE9F9D41BEA05014BEA10414BEA1B944BEA26FA6BEA3273EBEA3E00EBEA49A18BEA55560BEA611E8BEA6CFB3,
   0xBE804020BE80C0E1BE814264BE81C4ABBE8247B7BE82CB8BBE835026BE83D58CBE845BBDBE84E2BCBE856A8ABE85F328BE867C98BE8706DDBE8791F7BE881DE9BE88AAB3BE893859BE89C6DBBE8A563CBE8AE67CBE8B779FBE8C09A6BE8C9C93BE8D3068BE8DC526BE8E5ACFBE8EF166BE8F88EDBE902165BE90BAD0BE915531]

/-- V of t^-1/2 on [1, 2) with w = 1/128, then [2, 4) with w = 1/64. -/
def rsqrtV : List Nat :=
  [0x3F65B1393F666B023F6726913F67E3ED3F68A31D3F69642A3F6A271A3F6AEBF53F6BB2C53F6C7B903F6D46603F6E133E3F6EE2323F6FB3453F7086813F715BEF3F7233993F730D8A3F73E9CB3F74C8673F75A9693F768CDC3F7772CB3F785B423F79464E3F7A33F93F7B24523F7C17643F7D0D3E3F7E05EC3F7F017E3F800000,
   0x3F5191D13F521ED03F52ACEE3F533C2E3F53CC933F545E223F54F0DF3F5584CD3F5619F23F56B0513F5747EE3F57E0CF3F587AF73F59166B3F59B3303F5A514A3F5AF0BF3F5B91933F5C33CC3F5CD76E3F5D7C7F3F5E23053F5ECB043F5F74833F601F873F60CC163F617A363F6229ED3F62DB413F638E393F6442DB3F64F92E,
   0x3F41F3833F4263373F42D3AD3F4344E63F43B6E63F4429AF3F449D423F4511A33F4586D33F45FCD63F4673AC3F46EB5A3F4763E23F47DD453F4857873F48D2AB3F494EB33F49CBA23F4A497A3F4AC83F3F4B47F43F4BC89B3F4C4A383F4CCCCD3F4D505E3F4DD4ED3F4E5A7F3F4EE1163F4F68B63F4FF1623F507B1D3F5105EC,
   0x3F355FBA3F35BB093F3616E43F36734A3F36D03D3F372DBF3F378BD03F37EA743F3849AA3F38A9753F3909D63F396ACE3F39CC603F3A2E8C3F3A91543F3AF4BA3F3B58C03F3BBD673F3C22B13F3C889F3F3CEF343F3D56713F3DBE583F3E26EB3F3E902C3F3EFA1C3F3F64BD3F3FD0123F403C1C3F40A8DE3F4116593F41848F,
   0x3F226ABE3F22EE1D3F2372BD3F23F8A23F247FD33F2508553F25922C3F261D5F3F26A9F43F2737F03F27C7593F2858353F28EA8C3F297E623F2A13C03F2AAAAB3F2B432A3F2BDD463F2C79043F2D166C3F2DB5873F2E565C3F2EF8F23F2F9D533F3043873F30EB963F3195893F32416A3F32EF413F339F193F3450FC3F3504F3,
   0x3F1430263F1493D93F14F8573F155DA23F15C3BC3F162AA93F16926C3F16FB063F17647C3F17CED03F183A053F18A61F3F1913203F19810C3F19EFE63F1A5FB23F1AD0733F1B422C3F1BB4E13F1C28963F1C9D4E3F1D130E3F1D89D93F1E01B33F1E7AA03F1EF4A43F1F6FC43F1FEC043F2069683F20E7F53F2167AF3F21E89B,
   0x3F0924EC3F0973E83F09C36D3F0A137D3F0A641A3F0AB5443F0B06FD3F0B59483F0BAC253F0BFF973F0C539F3F0CA83F3F0CFD793F0D534F3F0DA9C23F0E00D53F0E58893F0EB0E03F0F09DD3F0F63813F0FBDCE3F1018C63F10746D3F10D0C33F112DCA3F118B873F11E9F93F1249253F12A90B3F1309AF3F136B133F13CD3A,
   0x3F0040303F0080C13F00C1B43F01030A3F0144C43F0186E23F01C9673F020C523F024FA63F0293623F02D7883F031C1A3F0361173F03A6823F03EC5C3F0432A53F04795F3F04C08B3F05082A3F05503E3F0598C73F05E1C73F062B403F0675323F06BF9E3F070A873F0755ED3F07A1D23F07EE373F083B1E3F0888893F08D677]

/-- S of t^-1/2 on [1, 2) with w = 1/128, then [2, 4) with w = 1/64. -/
def rsqrtS : List Nat :=
  [0xBEB80AB6BEB9C94CBEBB8EFCBEBD5BEEBEBF304CBEC10C42BEC2EFFBBEC4DBA6BEC6CF71BEC8CB8DBECAD02CBECCDD82BECEF3C2BED11325BED33BE1BED56E33BED7AA54BED9F084BEDC4101BEDE9C0EBEE101EFBEE372EABEE5EF47BEE87751BEEB0B55BEEDABA5BEF05891BEF31270BEF5D99ABEF8AE6ABEFB913FBEFE827C,
   0xBE8BE53CBE8CFF9ABE8E1DB2BE8F3F98BE90655BBE918F11BE92BCCBBE93EE9DBE95249BBE965ED9BE979D6EBE98E06DBE9A27EEBE9B7406BE9CC4CEBE9E1A5CBE9F74CABEA0D431BEA238A9BEA3A24EBEA5113ABEA6858ABEA7FF5ABEA97EC7BEAB03EFBEAC8EF1BEAE1FEDBEAFB703BEB15456BEB2F806BEB4A239BEB65312,
   0xBE5DE80FBE5F6777BE60EB35BE627359BE63FFF5BE65911DBE6726E3BE68C159BE6A6094BE6C04A7BE6DADA7BE6F5BA8BE710EC1BE72C705BE74848CBE76476DBE780FBEBE79DD96BE7BB10FBE7D8A41BE7F6944BE80A71ABE819C95BE829520BE8390CABE848FA0BE8591B1BE86970BBE879FBFBE88ABDABE89BB6DBE8ACE89,
   0xBE358D28BE369F5CBE37B445BE38CBECBE39E65CBE3B039DBE3C23BCBE3D46C1BE3E6CB7BE3F95AABE40C1A3BE41F0AEBE4322D7BE445829BE4590AFBE46CC75BE480B89BE494DF5BE4A93C7BE4BDD0CBE4D29D1BE4E7A23BE4FCE0FBE5125A5BE5280F1BE53E003BE5542E8BE56A9B1BE58146CBE59832ABE5AF5F9BE5C6CEB,
   0xBE022322BE035EEABE049FB8BE05E5A9BE0730D8BE088166BE09D772BE0B331BBE0C9483BE0DFBCDBE0F691BBE10DC93BE125659BE13D694BE155D6CBE16EB0ABE187F99BE1A1B44BE1BBE38BE1D68A4BE1F1AB8BE20D4A5BE22969FBE2460DBBE26338FBE280EF4BE29F344BE2BE0BCBE2DD79BBE2FD820BE31E28FBE33F72D,
   0xBDC5D791BDC766E4BDC8FB7DBDCA9576BDCC34E9BDCDD9EFBDCF84A3BDD13522BDD2EB87BDD4A7F0BDD66A7ABDD83344BDDA026CBDDBD814BDDDB45BBDDF9764BDE18151BDE37245BDE56A65BDE769D6BDE970BFBDEB7F46BDED9594BDEFB3D3BDF1DA2DBDF408CDBDF63FE1BDF87F96BDFAC81DBDFD19A5BDFF7461BE00EC42,
   0xBD9CE95DBD9DF879BD9F0AA6BDA01FEFBDA13861BDA2540ABDA372F6BDA49534BDA5BAD1BDA6E3DABDA81060BDA9406FBDAA7417BDABAB68BDACE672BDAE2543BDAF67EDBDB0AE80BDB1F90EBDB347A7BDB49A5EBDB5F144BDB74C6DBDB8ABECBDBA0FD4BDBB7838BDBCE52EBDBE56CABDBFCD22BDC1484BBDC2C85CBDC44D6B,
   0xBD806050BD812234BD81E602BD82ABC1BD837377BD843D2CBD8508E7BD85D6AFBD86A68CBD877885BD884CA2BD8922EBBD89FB68BD8AD621BD8BB31EBD8C9267BD8D7406BD8E5803BD8F3E67BD90273BBD911288BD920059BD92F0B6BD93E3A9BD94D93CBD95D17BBD96CC6EBD97CA21BD98CA9EBD99CDF1BD9AD425BD9BDD45]

/-- V of 1 / (1 + e^-t) on [0, 16), w = 1/16. -/
def sigmV : List Nat :=
  [0x3F5FC3873F5DF60E3F5C12EC3F5A19943F5809823F55E2403F53A3623F514C903F4EDD7E3F4C55F83F49B5DC3F46FD203F442BD23F41421C3F3E40423F3B26A83F37F5CD3F34AE543F3150FC3F2DDEA83F2A58593F26BF313F2314733F1F597F3F1B8FD03F17B9003F13D6BC3F0FEACD3F0BF7083F07FD563F03FFAB3F000000,
   0x3F7B1AB03F7ACB803F7A776B3F7A1E283F79BF693F795ADC3F78F02C3F787EFE3F7806F53F7787AD3F7700BF3F7671BF3F75DA3B3F7539BD3F748FCB3F73DBE63F731D883F7254293F717F3A3F709E293F6FB0603F6EB5433F6DAC333F6C948F3F6B6DB13F6A36F33F68EFAA3F67972D3F662CD23F64AFED3F631FD73F617BEB,
   0x3F7F53883F7F48703F7F3CA33F7F30133F7F22B63F7F147D3F7F055C3F7EF5423F7EE4213F7ED1E83F7EBE853F7EA9E53F7E93F43F7E7C9D3F7E63C93F7E49613F7E2D4A3F7E0F6B3F7DEFA63F7DCDDE3F7DA9F13F7D83BF3F7D5B223F7D2FF63F7D02103F7CD1483F7C9D6E3F7C66533F7C2BC63F7BED8F3F7BAB773F7B6541,
   0x3F7FE89B3F7FE7193F7FE57E3F7FE3C83F7FE1F73F7FE0073F7FDDF83F7FDBC63F7FD9703F7FD6F43F7FD44F3F7FD17E3F7FCE7E3F7FCB4E3F7FC7E83F7FC44B3F7FC0723F7FBC5A3F7FB7FE3F7FB35B3F7FAE6B3F7FA92A3F7FA3923F7F9D9E3F7F97493F7F908B3F7F895E3F7F81BB3F7F799A3F7F70F43F7F67C03F7F5DF4,
   0x3F7FFCD53F7FFCA13F7FFC693F7FFC2E3F7FFBEF3F7FFBAC3F7FFB643F7FFB183F7FFAC73F7FFA713F7FFA153F7FF9B43F7FF94C3F7FF8DD3F7FF8673F7FF7EA3F7FF7643F7FF6D63F7FF63F3F7FF59E3F7FF4F23F7FF43C3F7FF37A3F7FF2AB3F7FF1CF3F7FF0E53F7FEFEB3F7FEEE23F7FEDC73F7FEC9B3F7FEB5B3F7FEA06,
   0x3F7FFF923F7FFF8B3F7FFF843F7FFF7C3F7FFF733F7FFF6A3F7FFF603F7FFF563F7FFF4B3F7FFF3F3F7FFF333F7FFF263F7FFF183F7FFF093F7FFEF93F7FFEE83F7FFED63F7FFEC23F7FFEAE3F7FFE983F7FFE813F7FFE683F7FFE4E3F7FFE323F7FFE143F7FFDF53F7FFDD33F7FFDAF3F7FFD893F7FFD603F7FFD343F7FFD06,
   0x3F7FFFF13F7FFFF03F7FFFEF3F7FFFEE3F7FFFED3F7FFFEC3F7FFFEA3F7FFFE93F7FFFE83F7FFFE63F7FFFE43F7FFFE23F7FFFE13F7FFFDF3F7FFFDC3F7FFFDA3F7FFFD83F7FFFD53F7FFFD23F7FFFCF3F7FFFCC3F7FFFC93F7FFFC53F7FFFC13F7FFFBD3F7FFFB93F7FFFB53F7FFFB03F7FFFAB3F7FFFA53F7FFF9F3F7FFF99,
   0x3F7FFFFE3F7FFFFE3F7FFFFE3F7FFFFE3F7FFFFD3F7FFFFD3F7FFFFD3F7FFFFD3F7FFFFD3F7FFFFC3F7FFFFC3F7FFFFC3F7FFFFC3F7FFFFB3F7FFFFB3F7FFFFB3F7FFFFB3F7FFFFA3F7FFFFA3F7FFFF93F7FFFF93F7FFFF93F7FFFF83F7FFFF83F7FFFF73F7FFFF63F7FFFF63F7FFFF53F7FFFF43F7FFFF43F7FFFF33F7FFFF2]

/-- S of 1 / (1 + e^-t) on [0, 16), w = 1/16. -/
def sigmS : List Nat :=
  [0x3DDC32213DE6BC2D3DF190E53DFCAC203E0404713E09D0AA3E0FB75B3E15B4B03E1BC45A3E21E18D3E2807073E2E2F0C3E34536D3E3A6D8B3E4076663E4666A13E4C36963E51DE5F3E5755ED3E5C951B3E6193C43E6649DB3E6AAF813E6EBD263E726B993E75B42C3E7890C53E7AFBF93E7CF1213E7E6C6B3E7F6AED3E7FEAAD,
   0x3C9523223C9E60603CA829A53CB286623CBD7E513CC919763CD5601A3CE25AC73CF0124A3CFE8FAB3D06EE133D0F00923D17841D3D207D893D29F1B63D33E5823D3E5DC73D495F4E3D54EEC73D6110BB3D6DC9833D7B1D353D8487CB3D8BD2073D936EC53D9B5F393DA3A4483DAC3E793DB52DF03DBE72593DC80AE13DD1F623,
   0x3B26C6E13B3179813B3CDAC63B48F5AF3B55D5EB3B6387DD3B7218AA3B80CB223B8907B93B91C9F23B9B1A1B3BA501003BAF87F63BBAB8DC3BC69E243BD342DF3BE0B2BE3BEEFA1F3BFE26143C0722363C0FB1DB3C18C9AB3C2271C13C2CB2A83C37955E3C43235C3C4F66953C5C697D3C6A370E3C78DACA3C84305E3C8C6AC1,
   0x39B55DAE39C10DEE39CD7EDF39DABCE439E8D52B39F7D5BC3A03E6C13A0C66313A15719E3A1F12063A2950F93A3438A33A3FD3D53A4C2E143A59539D3A6751763A76357A3A8307323A8B75EF3A946F4A3A9DFC1E3AA825D63AB2F6753ABE78A33ACAB7AE3AD7BFA03AE59D413AF45E273B0208613B0A62353B1344B53B1CB889,
   0x38447AB23851265C385EA32E386CFEA3387C4716388645E7388EEE873898261238A1F5BF38AC675C38B7855838C35AD138CFF39938DD5C4638EBA23E38FAD3C339058001390E1B923917452C392105F7392B67AF393674B239423808394EBD6E395C1165396A413839795B103984B6FE398D45023996601D39A0116239AA627A,
   0x36D4BDEC36E2765D36F1115637004EB93708951E37116423371AC4963724BFD8372F5FE5373AAF5E3746B99237538A8D37612F20376FB4F1377F2A853787CFA9379091E83799E4C037A3D18637AE622637B9A13237C599E737D2584037DFE8FA37EE59A737FDB8B738070AC5380FC03D3819057A3822E3C1382D64EF38389385,
   0x3566559A3575308D35828062358AEB093593E0A6359D6A3035A7913035B25FD035BDE0DE35CA1FDC35D7290B35E5097435F3CEF83601C430360A22B236130B62361C872A36269F8536315E8C363CCF013648FC533655F2B13663BF1336726F46368108FD36895B6B3692373E369BA55436A5AF1B36B05E9E36BBBE8C36C7DA47,
   0x33F9611B3404BB40340D4AB93416678934201ACD342A6E3834356C2034411F84344D9416345AD64E3468F36F3477F9963483FBE6348C7F0734958EB3349F33FB34A9788334B4669234C0091734CC6BB434D99ACF34E7A39634F6941335033D9D350BB4783514B714351E4E733528842D35336279353EF437354B44F935586110]

/-- V of tanh t on [0, 8), w = 1/32. -/
def tanhV : List Nat :=
  [0x3F3F870D3F3BEC1C3F3825D93F3433283F3013053F2BC4803F2746C53F22991F3F1DBAFC3F18ABF03F136BB83F0DFA3F3F0857A43F0284383EF901093EEC9A9F3EDFD7353ED2B94F3EC543F13EB77A9F3EA961633E9AFCC53E8C51CD3E7ACBF53E5C7E823E3DC7FD3E1EB5E43DFEACC93DBF70813D7FAACD3CFFEAAD00000000,
   0x3F7635603F7596FF3F74EED63F743C4F3F737ED13F72B5B83F71E0583F70FDFD3F700DEA3F6F0F5B3F6E017F3F6CE37D3F6BB4753F6A737A3F691F973F67B7CC3F663B103F64A8523F62FE743F613C533F5F60C03F5D6A853F5B58663F59291E3F56DB633F546DE63F51DF553F4F2E5B3F4C59A33F495FDA3F463FAE3F42F7D6,
   0x3F7EA7103F7E90E03F7E79453F7E60263F7E456C3F7E28FB3F7E0AB83F7DEA853F7DC8433F7DA3D03F7D7D0A3F7D53CA3F7D27E83F7CF9393F7CC7923F7C92C13F7C5A953F7C1ED63F7BDF4C3F7B9BBB3F7B53E23F7B077E3F7AB6453F7A5FEB3F7A04213F79A28F3F793ADC3F78CCA73F78578B3F77DB1E3F7756EE3F76CA83,
   0x3F7FD1363F7FCE323F7FCAFC3F7FC7913F7FC3EE3F7FC00E3F7FBBEF3F7FB78C3F7FB2E03F7FADE83F7FA89D3F7FA2FB3F7F9CFD3F7F969B3F7F8FD13F7F88963F7F80E53F7F78B43F7F6FFD3F7F66B63F7F5CD63F7F52543F7F47243F7F3B3D3F7F2E913F7F21153F7F12BB3F7F03763F7EF3343F7EE1E83F7ECF803F7EBBE9,
   0x3F7FF9AA3F7FF9423F7FF8D33F7FF85C3F7FF7DE3F7FF7583F7FF6C93F7FF6313F7FF58F3F7FF4E23F7FF42B3F7FF3673F7FF2973F7FF1BA3F7FF0CE3F7FEFD43F7FEEC93F7FEDAC3F7FEC7E3F7FEB3C3F7FE9E53F7FE8783F7FE6F43F7FE5563F7FE39E3F7FE1C93F7FDFD73F7FDDC43F7FDB8F3F7FD9353F7FD6B53F7FD40C,
   0x3F7FFF253F7FFF163F7FFF073F7FFEF73F7FFEE63F7FFED43F7FFEC13F7FFEAC3F7FFE963F7FFE7F3F7FFE663F7FFE4C3F7FFE2F3F7FFE113F7FFDF23F7FFDD03F7FFDAB3F7FFD853F7FFD5C3F7FFD303F7FFD023F7FFCD13F7FFC9C3F7FFC643F7FFC283F7FFBE93F7FFBA63F7FFB5E3F7FFB113F7FFAC03F7FFA693F7FFA0D,
   0x3F7FFFE23F7FFFE03F7FFFDE3F7FFFDC3F7FFFDA3F7FFFD73F7FFFD53F7FFFD23F7FFFCF3F7FFFCC3F7FFFC93F7FFFC53F7FFFC13F7FFFBD3F7FFFB93F7FFFB43F7FFFAF3F7FFFAA3F7FFFA53F7FFF9F3F7FFF983F7FFF923F7FFF8B3F7FFF833F7FFF7B3F7FFF723F7FFF693F7FFF5F3F7FFF553F7FFF4A3F7FFF3E3F7FFF32,
   0x3F7FFFFC3F7FFFFC3F7FFFFB3F7FFFFB3F7FFFFB3F7FFFFB3F7FFFFA3F7FFFFA3F7FFFF93F7FFFF93F7FFFF83F7FFFF83F7FFFF73F7FFFF73F7FFFF63F7FFFF63F7FFFF53F7FFFF43F7FFFF43F7FFFF33F7FFFF23F7FFFF13F7FFFF03F7FFFEF3F7FFFEE3F7FFFED3F7FFFEC3F7FFFEA3F7FFFE93F7FFFE73F7FFFE63F7FFFE4]

/-- S of tanh t on [0, 8), w = 1/32. -/
def tanhS : List Nat :=
  [0x3EDC32213EE6BC2D3EF190E53EFCAC203F0404713F09D0AA3F0FB75B3F15B4B03F1BC45A3F21E18D3F2807073F2E2F0C3F34536D3F3A6D8B3F4076663F4666A13F4C36963F51DE5F3F5755ED3F5C951B3F6193C43F6649DB3F6AAF813F6EBD263F726B993F75B42C3F7890C53F7AFBF93F7CF1213F7E6C6B3F7F6AED3F7FEAAD,
   0x3D9523223D9E60603DA829A53DB286623DBD7E513DC919763DD5601A3DE25AC73DF0124A3DFE8FAB3E06EE133E0F00923E17841D3E207D893E29F1B63E33E5823E3E5DC73E495F4E3E54EEC73E6110BB3E6DC9833E7B1D353E8487CB3E8BD2073E936EC53E9B5F393EA3A4483EAC3E793EB52DF03EBE72593EC80AE13ED1F623,
   0x3C26C6E13C3179813C3CDAC63C48F5AF3C55D5EB3C6387DD3C7218AA3C80CB223C8907B93C91C9F23C9B1A1B3CA501003CAF87F63CBAB8DC3CC69E243CD342DF3CE0B2BE3CEEFA1F3CFE26143D0722363D0FB1DB3D18C9AB3D2271C13D2CB2A83D37955E3D43235C3D4F66953D5C697D3D6A370E3D78DACA3D84305E3D8C6AC1,
   0x3AB55DAE3AC10DEE3ACD7EDF3ADABCE43AE8D52B3AF7D5BC3B03E6C13B0C66313B15719E3B1F12063B2950F93B3438A33B3FD3D53B4C2E143B59539D3B6751763B76357A3B8307323B8B75EF3B946F4A3B9DFC1E3BA825D63BB2F6753BBE78A33BCAB7AE3BD7BFA03BE59D413BF45E273C0208613C0A62353C1344B53C1CB889,
   0x39447AB23951265C395EA32E396CFEA3397C4716398645E7398EEE873998261239A1F5BF39AC675C39B7855839C35AD139CFF39939DD5C4639EBA23E39FAD3C33A0580013A0E1B923A17452C3A2105F73A2B67AF3A3674B23A4238083A4EBD6E3A5C11653A6A41383A795B103A84B6FE3A8D45023A96601D3AA011623AAA627A,
   0x37D4BDEC37E2765D37F1115638004EB93808951E38116423381AC4963824BFD8382F5FE5383AAF5E3846B99238538A8D38612F20386FB4F1387F2A853887CFA9389091E83899E4C038A3D18638AE622638B9A13238C599E738D2584038DFE8FA38EE59A738FDB8B739070AC5390FC03D3919057A3922E3C1392D64EF39389385,
   0x3666559A3675308D36828062368AEB093693E0A6369D6A3036A7913036B25FD036BDE0DE36CA1FDC36D7290B36E5097436F3CEF83701C430370A22B237130B62371C872A37269F8537315E8C373CCF013748FC533755F2B13763BF1337726F46378108FD37895B6B3792373E379BA55437A5AF1B37B05E9E37BBBE8C37C7DA47,
   0x34F9611B3504BB40350D4AB93516678935201ACD352A6E3835356C2035411F84354D9416355AD64E3568F36F3577F9963583FBE6358C7F0735958EB3359F33FB35A9788335B4669235C0091735CC6BB435D99ACF35E7A39635F6941336033D9D360BB4783614B714361E4E733628842D36336279363EF437364B44F936586110]

/-- V of the normal distribution function on [-8, 8), w = 1/16. -/
def geluV : List Nat :=
  [0x303832BB2FF944EA2FA8057E2F61A6142F16F15F2EC92B7E2E858B332E30A0262DE8B6CA2D98B8AB2D47AF482D020BC52CA8BD342C5A1B802C0C6BAC2BB41E1B2B6627162B127B052AB9BDA82A6A9F1F2A139D7E29B9093C29670DD2290FB47A28B211F4285BCE802807245F27A589F52749FE8226F587F72694A71726334E96,
   0x37CBA21C379B7F57376C987E373352DE3707687136CBBADA3698B0613664039436299C7B35FB638435B9991C358882B735480E8535120A4D34D46A003499E518345E276C341FBD4733E4DA5B33A350B6336835E1332475C632E8124C32A31E7D3264702C321F59A331DD785D319951AF31537909311149B230C6DFF830879878,
   0x3CA066673C89921E3C6B28F03C4849283C29FC353C0FC2D13BF24E763BCB7A733BAA43E03B8DF7363B6BE4D63B4348223B2114BD3B0464483AD8D6CE3AB0EF103A8FD9663A690D7A3A3C19733A17437F39F264F739C180DF3999E8553973EDE53940978739177FC038ED781138B96CAB38904031385F9BB3382CAB3B3804D6BD,
   0x3EF33DFE3EE688B63ED9ECBE3ECD765D3EC1316F3EB5293D3EA9685E3E9DF8A23E92E2F23E882F413E7BC8FA3E6811003E55401E3E435DA83E326EC73E2276863E1375E23E056BED3DF0ABD33DD85EE93DC1E55B3DAD30CB3D9A30963D88D2373D72033E3D55532E3D3B68273D2415123D0F2C703CF901CA3CD7CB723CBA5E7C,
   0x3F7941A43F7837F23F770D393F75BEAF3F74497E3F72AACD3F70DFCC3F6EE5B93F6CB9ED3F6A59E73F67C3553F64F4233F61EA863F5EA5053F5B22873F57625F3F53644E3F4F28963F4AAFF93F45FBC03F410DC23F3BE85F3F368E873F3103AF3F2B4BD13F256B623F1F67483F1944D13F1309A13F0CBBA53F0661013F000000,
   0x3F7FFD4D3F7FFC823F7FFB7E3F7FFA353F7FF8943F7FF6883F7FF3F73F7FF0C13F7FECC33F7FE7D03F7FE1B33F7FDA2F3F7FD0FA3F7FC5BD3F7FB8133F7FA7883F7F93953F7F7B9C3F7F5EEB3F7F3CB83F7F141B3F7EE4123F7EAB783F7E690B3F7E1B633F7DC0F53F7D580F3F7CDEDB3F7C535C3F7BB36F3F7AFCCD3F7A2D0C,
   0x3F8000003F8000003F8000003F8000003F8000003F8000003F8000003F8000003F8000003F7FFFFF3F7FFFFF3F7FFFFF3F7FFFFE3F7FFFFE3F7FFFFD3F7FFFFB3F7FFFF93F7FFFF73F7FFFF33F7FFFEF3F7FFFE93F7FFFE13F7FFFD63F7FFFC73F7FFFB43F7FFF9A3F7FFF793F7FFF4D3F7FFF133F7FFEC93F7FFE693F7FFDED,
   0x3F8000003F8000003F8000003F8000003F8000003F8000003F8000003F8000003F8000003F8000003F8000003F8000003F8000003F8000003F8000003F8000003F8000003F8000003F8000003F8000003F8000003F8000003F8000003F8000003F8000003F8000003F8000003F8000003F8000003F8000003F8000003F800000]

/-- S of the normal distribution function on [-8, 8), w = 1/16. -/
def geluS : List Nat :=
  [0x31ADFC67316E411931227ED930DCC9CE3095696A30496E81300740972FB4EC7F2F7113032F1FFC3D2ED3841D2E8B47062E36B4AC2DEEBDCE2D9B5FA92D4972792D0215202CA758222C5670C52C08DC302BAE03422B5C637F2B0B04A72AAEB2B12A5AADFF2A08556929A9544129517D9229011569289E750D2841C1C027EBFF2D,
   0x38F82D7538C08B123894CC623865167F382FA9B638062C0F37CC29E6379ABA5A37699C64372FAAE6370394CF36C459963691EDD1365810E2361F553335EA13A335AB45863579A896353540643503134A34BCD717348780363441B2813409E79D33C3999D338A2D13334275D133084D5B32BE54AA32845EAF323766D631FD1E04,
   0x3D4FC0AB3D36A2483D1FED303D0B7F203CF267913CD1CB243CB4DCB03C9B500C3C84DA4D3C62654C3C4026583C2272D13C08CD923BE583A63BBFC70D3B9F9EF83B8456A83B5A95453B33D01F3B1357D03AF088183AC390613A9E62273A7F8B193A4D59763A245F1D3A030EDE39D02D9739A4B1EA3981C95D394BC1E1391F51F9,
   0x3ECC20243ECB547A3EC9BF893EC766043EC44EE13EC0832C3EBC0DE63EB6FBC53EB15B003EAB3B093EA4AC473E9DBFCE3E9687153E8F13AF3E8777033E7F84173E700A393E609F543E5160393E4267533E33CC6C3E25A4803E1801A53E0AF2FE3DFD097D3DE5807F3DCF58363DBA98A93DA745133D955C533D84D9643D6B67AC,
   0x3D6B67AC3D84D9643D955C533DA745133DBA98A93DCF58363DE5807F3DFD097D3E0AF2FE3E1801A53E25A4803E33CC6C3E4267533E5160393E609F543E700A393E7F84173E8777033E8F13AF3E9687153E9DBFCE3EA4AC473EAB3B093EB15B003EB6FBC53EBC0DE63EC0832C3EC44EE13EC766043EC9BF893ECB547A3ECC2024,
   0x391F51F9394BC1E13981C95D39A4B1EA39D02D973A030EDE3A245F1D3A4D59763A7F8B193A9E62273AC390613AF088183B1357D03B33D01F3B5A95453B8456A83B9F9EF83BBFC70D3BE583A63C08CD923C2272D13C4026583C62654C3C84DA4D3C9B500C3CB4DCB03CD1CB243CF267913D0B7F203D1FED303D36A2483D4FC0AB,
   0x31FD1E04323766D632845EAF32BE54AA33084D5B334275D1338A2D1333C3999D3409E79D3441B2813487803634BCD7173503134A353540643579A89635AB458635EA13A3361F5533365810E23691EDD136C45996370394CF372FAAE637699C64379ABA5A37CC29E638062C0F382FA9B63865167F3894CC6238C08B1238F82D75,
   0x27EBFF2D2841C1C0289E750D2901156929517D9229A954412A0855692A5AADFF2AAEB2B12B0B04A72B5C637F2BAE03422C08DC302C5670C52CA758222D0215202D4972792D9B5FA92DEEBDCE2E36B4AC2E8B47062ED3841D2F1FFC3D2F7113032FB4EC7F3007409730496E813095696A30DCC9CE31227ED9316E411931ADFC67]

/-- V of (1 + tanh(sqrt(2/pi) (t + 0.044715 t^3))) / 2 on [-8, 8), w = 1/16. -/
def gelutV : List Nat :=
  [0x2D09A9A02C979F8F2C254C3F2BB259BE2B3E6EDD2AC932E62A5251A429D97F89295E7DA228E11D1B2861420827DEE539275A14F526D2F4832649BA7E25BEAE23253223AF24A4782124160CAC2387422322F0E9652253F05A21B82A36211E0D6B2085F3A21FE032CC1F393EFA1E971B211DF357571D4165201C97B07F1BEAD144,
   0x37568E70371B2F7036DEF157369F064D366141CB361E640B35DD1F7B3599358C3552B740350FCD6234C2C32F3482DC66342E75A933E6B835339752893344DD2232FDFA7F32A27357324E0A6C320188F831A17339314772D430F42F723094200E303210222FD411D02F7A34B72F1233F02EA939F32E41FB0D2DDC2E992D7773FC,
   0x3C9FCBB23C88C76F3C693D7D3C4612F43C2787983C0D1CB73BECB9763BC5B6663BA469633B881D323B605B3B3B380D673B1647E23AF43D3F3AC581343A9EEB8B3A7E74153A4AA8853A208F1839FD0CCB39C65315399A9282396F958D39389BCD390D6A8338D75E9638A3018A38753AB338374F493808273C37C8F2D737935102,
   0x3EF33E003EE688CB3ED9ED053ECD77023EC132AA3EB52B4C3EA96B863E9DFD263E92E9113E8837343E7BDCDC3E6829183E555C7E3E437E3B3E32934D3E229E913E13A0DD3E05991A3DF108DA3DD8BCAF3DC241D53DAD89DB3D9A84263D891E473D7288B63D55C2C83D3BBF3E3D2451A53D0F4D313CF90A803CD79B9F3CB9F7C5,
   0x3F7943233F7837AC3F770B2D3F75BAE63F74440C3F72A3D43F70D7753F6EDC373F6CAF7B3F6A4EC53F67B7C53F64E86A3F61DEE53F5E99B93F5B17C93F57585C3F535B2D3F4F20713F4AA8E03F45F5BA3F4108C93F3BE4663F368B773F31016D3F2B4A3D3F256A5A3F1F66AB3F19447F3F13097E3F0CBB9A3F0661003F000000,
   0x3F7FFE6E3F7FFDDF3F7FFD233F7FFC2B3F7FFAE83F7FF9453F7FF7293F7FF4763F7FF1073F7FECAE3F7FE7363F7FE05E3F7FD7DC3F7FCD563F7FC0633F7FB08A3F7F9D3F3F7F85E13F7F69B83F7F47F33F7F1FA53F7EEFC63F7EB72D3F7E74933F7E268D3F7DCB8D3F7D61E23F7CE7B43F7C5B0A3F7BB9C53F7B01A23F7A3042,
   0x3F8000003F8000003F8000003F8000003F8000003F8000003F8000003F8000003F8000003F8000003F8000003F8000003F8000003F8000003F8000003F7FFFFF3F7FFFFF3F7FFFFE3F7FFFFD3F7FFFFC3F7FFFFA3F7FFFF73F7FFFF33F7FFFED3F7FFFE43F7FFFD83F7FFFC83F7FFFB03F7FFF913F7FFF653F7FFF293F7FFED9,
   0x3F8000003F8000003F8000003F8000003F8000003F8000003F8000003F8000003F8000003F8000003F8000003F8000003F8000003F8000003F8000003F8000003F8000003F8000003F8000003F8000003F8000003F8000003F8000003F8000003F8000003F8000003F8000003F8000003F8000003F8000003F8000003F800000]

/-- S of (1 + tanh(sqrt(2/pi) (t + 0.044715 t^3))) / 2 on [-8, 8), w = 1/16. -/
def gelutS : List Nat :=
  [0x2EDB94B72E7767622E09F2DF2D983EC12D26449F2CB3AAD42C4014282BCB23C02B5481702ADBDE292A60F82E29E39ED62963B57C28E13568285C2E8727D4C6D9274B389826BFCF3D2632E39625A4D73525160F942486F13823EFB67D2352470022B62735221BCDDE2183934F20DB62D220348A971F92A4C71EEB19C21E39F85C,
   0x38A02727386D7BFF382EDB1437FFAC2937B9959B3785BB80373F51373707D3E036BF67AE3685D3BC3639AF2B35FF9B2135AE8647356C663A351ECB5A34D38FDF348BBFC434370E5133EDB882339902E933433D6C32F6E73D329AB63632401EC831EC5FF431900E73312DEEE930D0018F30765BDA301078D82FA7C7812F40E937,
   0x3D5160963D38221B3D2145803D0CAA243CF45ADF3CD3570C3CB5FFDD3C9C0C423C85340C3C6261853C3F7CA83C21374F3C0716153BE14A103BBAF02E3B9A56A43B7D8C013B4F2E423B2865B23B0822CB3ADAE6D53AAF024D3A8B1EEE3A5BE7013A2CC5273A06ECDF39D1743239A190C23977ADA6393CA035390EB74138D68757,
   0x3ECC1FF93ECB53503EC9BC6E3EC760223EC445883EC075E03EBBFC623EB6E6063EB141463EAB1DD63EA48C5B3E9D9E223E9664CF3E8EF2173E8757723E7F4BBE3E6FDB463E607C273E514AD93E4261523E33D6D53E25BFC93E182DA83E0B2EFA3DFD9EC53DE62F703DD01C503DBB6CC63DA8239F3D963F893D85BB853D6D1ECF,
   0x3D6D1ECF3D85BB853D963F893DA8239F3DBB6CC63DD01C503DE62F703DFD9EC53E0B2EFA3E182DA83E25BFC93E33D6D53E4261523E514AD93E607C273E6FDB463E7F4BBE3E8757723E8EF2173E9664CF3E9D9E223EA48C5B3EAB1DD63EB141463EB6E6063EBBFC623EC075E03EC445883EC760223EC9BC6E3ECB53503ECC1FF9,
   0x38D68757390EB741393CA0353977ADA639A190C239D174323A06ECDF3A2CC5273A5BE7013A8B1EEE3AAF024D3ADAE6D53B0822CB3B2865B23B4F2E423B7D8C013B9A56A43BBAF02E3BE14A103C0716153C21374F3C3F7CA83C6261853C85340C3C9C0C423CB5FFDD3CD3570C3CF45ADF3D0CAA243D2145803D38221B3D516096,
   0x2F40E9372FA7C781301078D830765BDA30D0018F312DEEE931900E7331EC5FF432401EC8329AB63632F6E73D33433D6C339902E933EDB88234370E51348BBFC434D38FDF351ECB5A356C663A35AE864735FF9B213639AF2B3685D3BC36BF67AE3707D3E0373F51373785BB8037B9959B37FFAC29382EDB14386D7BFF38A02727,
   0x1E39F85C1EEB19C21F92A4C720348A9720DB62D22183934F221BCDDE22B627352352470023EFB67D2486F13825160F9425A4D7352632E39626BFCF3D274B389827D4C6D9285C2E8728E135682963B57C29E39ED62A60F82E2ADBDE292B5481702BCB23C02C4014282CB3AAD42D26449F2D983EC12E09F2DF2E7767622EDB94B7]

/-- V of sin(pi t / 2) on [0, 1), w = 1/256. -/
def sineV : List Nat :=
  [0x3E419B373E3B6ECF3E3540983E2F10A23E28DEFC3E22ABB63E1C76DE3E1640833E1008B73E09CF863E0395023DFAB2733DEE38763DE1BC2E3DD53DB93DC8BD363DBC3AC33DAFB6803DA3308C3D96A9053D8A200A3D7B2B743D6214693D48FB303D2FE0073D16C32C3CFB49BA3CC90AB03C96C9B63C490E903BC90F8800000000,
   0x3EC1071E3EBE1D4A3EBB31A03EB8442A3EB554EC3EB263EF3EAF713A3EAC7CD43EA986C43EA68F123EA395C53EA09AE53E9D9E783E9AA0863E97A1173E94A0313E919DDD3E8E9A223E8B95073E888E933E8586CE3E827DC03E7EE6E13E78CFCC3E72B6513E6C9A7F3E667C663E605C133E5A39973E5415013E4DEE603E47C5C2,
   0x3F0CEAD03F0B9A6B3F0A48AD3F08F59B3F07A1363F064B823F04F4843F039C3D3F0242B13F00E7E43EFF17B23EFC5D273EF9A02D3EF6E0CB3EF41F073EF15AEA3EEE94793EEBCBBB3EE900B73EE633753EE363FA3EE0924F3EDDBE793EDAE8803ED8106B3ED536413ED25A093ECF7BCA3ECC9B8B3EC9B9533EC6D5293EC3EF15,
   0x3F33E7BC3F32C8C93F31A81D3F3085BB3F2F61A53F2E3BDE3F2D14693F2BEB4A3F2AC0823F2994153F2866053F2736563F26050A3F24D2253F239DA93F2267993F212FF93F1FF6CB3F1EBC123F1D7FD13F1C420C3F1B02C63F19C2003F187FC03F173C073F15F6D93F14B0393F13682A3F121EB03F10D3CD3F0F87843F0E39DA,
   0x3F53FAC33F5318493F5233C63F514D3D3F5064AF3F4F7A1F3F4E8D903F4D9F023F4CAE793F4BBBF83F4AC77F3F49D1123F48D8B33F47DE653F46E22A3F45E4033F44E3F53F43E2003F42DE293F41D8703F40D0DA3F3FC7673F3EBC1B3F3DAEF93F3CA0033F3B8F3B3F3A7CA43F3968423F3852163F373A233F36206C3F3504F3,
   0x3F6BE8583F6B4B0C3F6AAB7B3F6A09A73F6965913F68BF3C3F6816A83F676BD83F66BECC3F660F883F655E0B3F64AA593F63F4733F633C5A3F6282103F61C5983F6106F23F6046213F5F83273F5EBE053F5DF6BE3F5D2D533F5C61C73F5B941A3F5AC4503F59F26A3F591E6A3F5848533F5770263F5695E53F55B9933F54DB31,
   0x3F7AC5163F7A73023F7A1E843F79C79D3F796E4E3F7912983F78B47B3F7853F83F77F1103F778BC53F7724173F76BA073F764D973F75DEC63F756D973F74FA0B3F7484223F740BDD3F73913F3F7314473F7294F83F7213523F718F573F7109083F7080663F6FF5733F6F68303F6ED89E3F6E46BE3F6DB2933F6D1C1D3F6C835E,
   0x3F7FFEC43F7FFB113F7FF4E63F7FEC433F7FE1293F7FD3973F7FC38F3F7FB10F3F7F9C183F7F84AB3F7F6AC73F7F4E6D3F7F2F9D3F7F0E583F7EEA9D3F7EC46D3F7E9BC93F7E70B03F7E43233F7E13243F7DE0B13F7DABCC3F7D74743F7D3AAC3F7CFE733F7CBFC93F7C7EB03F7C3B283F7BF5313F7BACCD3F7B61FC3F7B14BE]

/-- S of sin(pi t / 2) on [0, 1), w = 1/256. -/
def sineS : List Nat :=
  [0x3FC551543FC58D0A3FC5C6D93FC5FEC03FC634BF3FC668D43FC69B003FC6CB423FC6F99A3FC726063FC750873FC7791C3FC79FC53FC7C4823FC7E7523FC808343FC827293FC844303FC85F493FC878733FC88FAF3FC8A4FC3FC8B85A3FC8C9C83FC8D9483FC8E6D73FC8F2773FC8FC273FC903E73FC909B83FC90D983FC90F88,
   0x3FB9FDED3FBA74FE3FBAEA443FBB5DBC3FBBCF663FBC3F413FBCAD4B3FBD19843FBD83EA3FBDEC7C3FBE533A3FBEB8223FBF1B343FBF7C6E3FBFDBD03FC039583FC095063FC0EED93FC146D03FC19CEA3FC1F1263FC243833FC294023FC2E2A03FC32F5D3FC37A393FC3C3323FC40A493FC44F7B3FC492CA3FC4D4333FC513B6,
   0x3FA784BF3FA832983FA8DED33FA9896C3FAA32643FAAD9B73FAB7F653FAC236C3FACC5CA3FAD667E3FAE05853FAEA2E03FAF3E8B3FAFD8873FB070D03FB107663FB19C473FB22F723FB2C0E53FB3509F3FB3DE9F3FB46AE33FB4F56A3FB57E323FB6053B3FB68A823FB70E073FB78FC83FB80FC53FB88DFB3FB90A6A3FB98510,
   0x3F8E9B883F8F797B3F90560B3F9131383F920AFE3F92E35C3F93BA503F948FD73F9563F03F9636983F9707CD3F97D78E3F98A5D83F9972A93F9A3E003F9B07DA3F9BD0363F9C97113F9D5C6A3F9E203F3F9EE28D3F9FA3533FA062903FA120413FA1DC643FA296F83FA34FFA3FA4076A3FA4BD453FA5718A3FA624363FA6D548,
   0x3F606EB33F6279BD3F6482983F66893E3F688DAC3F6A8FDD3F6C8FCA3F6E8D703F7088C93F7281D13F7478823F766CD83F785ECE3F7A4E5F3F7C3B873F7E26403F8007433F80FA2A3F81EBD33F82DC3C3F83CB613F84B9413F85A5DA3F8691293F877B2C3F8863E13F894B453F8A31573F8B16133F8BF9793F8CDB853F8DBC35,
   0x3F1B06643F1D4C773F1F91073F21D40D3F2415833F2655653F2893AC3F2AD0543F2D0B563F2F44AC3F317C533F33B2433F35E6793F3818ED3F3A499B3F3C787D3F3EA58F3F40D0CA3F42FA293F4521A73F47473F3F496AEB3F4B8CA63F4DAC6B3F4FCA343F51E5FD3F53FFC03F5617773F582D1F3F5A40B13F5C52283F5E6180,
   0x3E9F51E83EA427673EA8FB513EADCD9A3EB29E363EB76D193EBC3A383EC105863EC5CEF83ECA96823ECF5C193ED41FAF3ED8E13A3EDDA0AE3EE25DFF3EE719223EEBD20B3EF088AD3EF53CFE3EF9EEF23EFE9E7D3F01A5CA3F03FB163F064F1C3F08A1D63F0AF3403F0D43523F0F92093F11DF5C3F142B483F1675C73F18BED2,
   0x3B9DE9C63C6CDDE63CC562503D0A29E33D31A1493D5916F93D8045493D93FDD93DA7B4FB3DBB6A803DCF1E363DE2CFED3DF67F753E05164E3E0EEB993E18BF843E2291F63E2C62D73E36320E3E3FFF843E49CB203E5394CA3E5D5C6A3E6721E83E70E52B3E7AA61D3E8232523E8710543E8BED093E90C8643E95A25B3E9A7AE0]

/-- Entry k of a table. -/
def tableEntry (t : List Nat) (k : Nat) : Nat := (t.getD (k / 32) 0 >>> (32 * (k % 32))) % 2 ^ 32

/-! ## Evaluation (12 R265 to R267) -/

/-- The greatest integer not above `v * 2^k`. -/
def FV.floorAt (v : FV) (k : Nat) : Int :=
  match v with
  | .fin neg m e =>
    let x := scaled neg m (e + k) 0
    if 0 ≤ e + k then x else (if neg then -(m : Int) else (m : Int)) / (2 ^ (-(e + k)).toNat : Nat)
  | _ => 0

/-- G(t) = V[i] + S[i] (t - t_i), exact; the segment that holds t starts at `i + lo` widths of `2^-wl` (12 R265). -/
def tableG (v sl : List Nat) (lo : Int) (wl : Nat) (t : FV) : FV :=
  let start := t.floorAt wl
  let k := (start - lo).toNat
  (FV.ofBits fp32 (tableEntry v k)).add .rne
    ((FV.ofBits fp32 (tableEntry sl k)).mul (t.sub .rne (ofScaled start (-(wl : Int)) false)))

/-- `2^n` times a value. An exponent beyond 1,000 in magnitude is cut to it: every format overflows, or rounds to zero,
there as it does further out. -/
def FV.scaleCut (v : FV) (n : Int) : FV := v.scale (clampInt n (-1000) 1000)

/-- `2^u` of a finite u (12 Table 12-1, codes 1 and 2). -/
def tableExp2 (u : FV) : FV :=
  let n := u.floorAt 0
  (tableG exp2V exp2S 0 8 (u.sub .rne (ofScaled n 0 false))).scaleCut n

/-- Code 1. -/
def tableExp (x : FV) : FV := tableExp2 (x.mul (FV.ofBits fp32 0x3FB8AA3B))

/-- x as `2^e * t` with t in [1, 2). -/
def FV.normal (x : FV) : Int × FV :=
  match x with
  | .fin _ m e =>
    let l : Int := (bitLength m - 1 : Nat)
    (e + l, .fin false m (-l))
  | v => (0, v)

/-- Code 6 on a finite x that is not zero. -/
def tableSigm (x : FV) : FV :=
  let one := FV.fin false 1 0
  let sixteen := FV.fin false 16 0
  if sixteen.le x then one
  else if x.le sixteen.neg then tableExp x
  else if x.sign then one.sub .rne (tableG sigmV sigmS 0 4 x.neg)
  else tableG sigmV sigmS 0 4 x

/-- Codes 8 and 9 on a finite x. -/
def tableGelu (v sl : List Nat) (x : FV) : FV :=
  let eight := FV.fin false 8 0
  if eight.le x then x
  else if x.lt eight.neg then .fin true 0 0
  else x.mul (tableG v sl (-128) 4 x)

/-- G of the sine table, with its extra entry at t = 1. -/
def tableSine (t : FV) : FV := if t.eq (.fin false 1 0) then .fin false 1 0 else tableG sineV sineS 0 8 t

/-- Codes 11 and 12: `shift` is 0 for sin and 1 for cos. -/
def tableCircle (shift : Int) (x : FV) : FV :=
  let u := x.mul (FV.ofBits fp32 0x3F22F983)
  let n := u.floorAt 0
  let f := u.sub .rne (ofScaled n 0 false)
  let g := (FV.fin false 1 0).sub .rne f
  match ((n + shift) % 4).toNat with
  | 0 => tableSine f
  | 1 => tableSine g
  | 2 => (tableSine f).neg
  | _ => (tableSine g).neg

def zeroFV (neg : Bool) : FV := .fin neg 0 0
def oneFV (neg : Bool) : FV := .fin neg 1 0

/-- Results of special operands (12 Table 12-2); none for the others. -/
def tableSpecial (fn : Nat) (x : FV) : Option FV :=
  match x with
  | .nan => some .nan
  | .inf neg =>
    match fn with
    | 1 => some (if neg then zeroFV false else .inf false)
    | 2 => some (if neg then zeroFV false else .inf false)
    | 3 => some (if neg then .nan else .inf false)
    | 4 => some (zeroFV neg)
    | 5 => some (if neg then .nan else zeroFV false)
    | 6 => some (if neg then zeroFV false else oneFV false)
    | 7 => some (oneFV neg)
    | 11 => some .nan
    | 12 => some .nan
    | _ => some (if neg then zeroFV true else .inf false)
  | .fin neg 0 _ =>
    match fn with
    | 1 => some (oneFV false)
    | 2 => some (oneFV false)
    | 3 => some (.inf true)
    | 4 => some (.inf neg)
    | 5 => some (.inf neg)
    | 6 => some (.fin false 1 (-1))
    | 12 => some (oneFV false)
    | _ => some (zeroFV neg)
  | .fin neg _ _ => if neg && (fn == 3 || fn == 5) then some .nan else none

/-- y of a version-1 function on a finite x that no special case covers (12 Table 12-1). -/
def tableFinite (fn : Nat) (x : FV) : FV :=
  match fn with
  | 1 => tableExp x
  | 2 => tableExp2 x
  | 3 => (ofScaled x.normal.1 0 false).add .rne (tableG log2V log2S 256 8 x.normal.2)
  | 4 => let g := (tableG recipV recipS 256 8 x.normal.2).scale (-x.normal.1)
         if x.sign then g.neg else g
  | 5 =>
    let e := x.normal.1
    if e % 2 = 0 then (tableG rsqrtV rsqrtS 128 7 x.normal.2).scale (-(e / 2))
    else (tableG rsqrtV rsqrtS 0 6 (x.normal.2.scale 1)).scale (-(e / 2))
  | 6 => tableSigm x
  | 7 =>
    let a := x.abs
    let g := if (FV.fin false 8 0).le a then oneFV false else tableG tanhV tanhS 0 5 a
    if x.sign then g.neg else g
  | 8 => tableGelu geluV geluS x
  | 9 => tableGelu gelutV gelutS x
  | 10 => x.mul (tableSigm x)
  | 11 => tableCircle 0 x
  | _ => tableCircle 1 x

/-- VERc of TBLVER (12 Table 12-3). -/
def tableVersion (tblver : Word) (fn : Nat) : Nat := bits tblver.toNat (4 * fn - 1) (4 * fn - 4)

/-- The value of a function before its one rounding; a version other than 1 carries its own construction (12 R268). -/
def tableValue (tblver : Word) (fn : Nat) (x : FV) : FV :=
  match tableSpecial fn x with
  | some y => y
  | none =>
    if tableVersion tblver fn = 1 then tableFinite fn x
    else FV.ofBits fp32 (Config.tableOther fn (tableVersion tblver fn) (BitVec.ofNat 32 (roundTo fp32 .rne false x).bits)).toNat

end Sys2Proof.Machine
end

