-- ==== Sys2Proof/Machine/Drain.lean ====
section
/-! DEFINITION. Drains, epilogue descriptors, checks and implicit convolution (10). -/

namespace Sys2Proof.Machine

/-! ## Epilogue descriptors (10 Table 10-2, R222) -/

def dBits (d : BitVec 512) (hi lo : Nat) : Nat := bits d.toNat hi lo

def descOfmt (d : BitVec 512) : Nat := dBits d 3 0
def descRm (d : BitVec 512) : Nat := dBits d 6 4
def descSat (d : BitVec 512) : Bool := d.getLsbD 7
def descInt (d : BitVec 512) : Bool := d.getLsbD 8
def descScm (d : BitVec 512) : Nat := dBits d 10 9
def descBim (d : BitVec 512) : Nat := dBits d 12 11
def descStm (d : BitVec 512) : Nat := dBits d 14 13
def descAct (d : BitVec 512) : Nat := dBits d 23 16
def descSite (d : BitVec 512) : BitVec 32 := d.extractLsb' 32 32
def descParam (d : BitVec 512) : Word := d.extractLsb' 64 64
def descUsesParam (d : BitVec 512) : Bool := descScm d != 0 || descBim d != 0

def descValid (d : BitVec 512) : Bool :=
  let o := descOfmt d
  !(dBits d 511 128 != 0 || dBits d 31 24 != 0 || d.getLsbD 15 || decide (8 ≤ o) || descStm d == 3 || descBim d == 3 ||
    descScm d == 3 || decide (12 < descAct d) || decide (5 ≤ descRm d) || (descRm d == 4 && (o == 5 || o == 6)) ||
    (descSat d && o != 3 && o != 4) ||
    (o == 7 && (descInt d || descUsesParam d || descStm d != 0 || descAct d != 0 || descRm d != 0)) ||
    (descUsesParam d && (descParam d).toNat % 4 != 0))

/-- Output bytes of an element (10 R223). -/
def outBytes (ofmt : Nat) : Nat :=
  match ofmt with
  | 1 => 2
  | 2 => 2
  | 3 => 1
  | 4 => 1
  | 5 => 1
  | _ => 4

/-- The format of a floating-point output. -/
def outFmt (ofmt : Nat) : Fmt :=
  match ofmt with
  | 0 => fp32
  | 1 => bf16
  | 2 => fp16
  | 3 => e4m3
  | _ => e5m2

/-! ## Slots (10 R221, R222, R234, R235) -/

def slot512 (bs : List Byte) : BitVec 512 := BitVec.ofNat 512 (leValue bs)

/-- mxepl (10 R222). -/
def execMxepl (e : EngineFlags) (k : BitVec 2) (sA : BitVec 5) (s : State) : Host.Outcome State Fault Refusal :=
  matrixForm (.mxepl e k sA) s (fun _ _ => 0) (fun key vs => Issue.plain [mkRange key (val vs 0) 64 false false]) 0

/-- mxshp (10 R234). -/
def execMxshp (e : EngineFlags) (k : BitVec 2) (sA : BitVec 5) (s : State) : Host.Outcome State Fault Refusal :=
  matrixForm (.mxshp e k sA) s (fun _ _ => 0) (fun key vs => Issue.plain [mkRange key (val vs 0) 64 false false]) 0

/-- The one unit of mxepl or mxshp: read 64 bytes, test them and fill the slot. -/
def slotForm (s : State) (key : Nat) (c : Cell) (x : Cmd) (valid : BitVec 512 → Bool) (code : Nat)
    (put : Cell → BitVec 512 → Cell) : Form :=
  let a := val x.vals 0
  { Form.base s x x.ranges 1 (fun _ => (s.engRead key 1 a.toNat 64).bind (fun bs =>
      let d := slot512 bs
      if valid d then .ok { s := s.setCell key (put c d), x } else .fail code)) with
    paths := fun _ q => q != 4
    early := [failIf (!multipleOf 64 a.toNat) 0x17] }

def eplForm (s : State) (key : Nat) (c : Cell) (x : Cmd) (k : BitVec 2) : Form :=
  slotForm s key c x descValid 0x13 (fun c d =>
    { c with epilogue := c.epilogue.set k.toNat (some d) (by have := k.isLt; omega) })

/-! ## Shape records (10 Table 10-8) -/

def shpFmt (d : BitVec 512) : Nat := dBits d 2 0
def shpR (d : BitVec 512) : Nat := dBits d 11 8 + 1
def shpS (d : BitVec 512) : Nat := dBits d 15 12 + 1
def shpStrideH (d : BitVec 512) : Nat := dBits d 19 16 + 1
def shpStrideW (d : BitVec 512) : Nat := dBits d 23 20 + 1
def shpDilH (d : BitVec 512) : Nat := dBits d 27 24 + 1
def shpDilW (d : BitVec 512) : Nat := dBits d 31 28 + 1
def shpPadT (d : BitVec 512) : Nat := dBits d 35 32
def shpPadL (d : BitVec 512) : Nat := dBits d 39 36
def shpPadV (d : BitVec 512) : Nat := dBits d 63 48
def shpC (d : BitVec 512) : Nat := dBits d 79 64
def shpH (d : BitVec 512) : Nat := dBits d 95 80
def shpW (d : BitVec 512) : Nat := dBits d 111 96
def shpOW (d : BitVec 512) : Nat := dBits d 127 112
def shpPixP (d : BitVec 512) : Nat := dBits d 159 128
def shpRowP (d : BitVec 512) : Nat := dBits d 191 160
def shpK (d : BitVec 512) : Nat := shpR d * shpS d * shpC d
def shpEb (d : BitVec 512) : Nat := fmtBytes (shpFmt d) 1

def shapeValid (d : BitVec 512) : Bool :=
  !(dBits d 511 192 != 0 || dBits d 47 40 != 0 || dBits d 7 3 != 0 || decide (6 ≤ shpFmt d) ||
    (shpEb d == 1 && dBits d 63 56 != 0) || shpC d == 0 || decide (16384 < shpC d) || shpH d == 0 || shpW d == 0 || shpOW d == 0 ||
    decide (16384 < shpK d) || shpPixP d % shpEb d != 0 || shpRowP d % shpEb d != 0)

def shpForm (s : State) (key : Nat) (c : Cell) (x : Cmd) (k : BitVec 2) : Form :=
  slotForm s key c x shapeValid 0x15 (fun c d =>
    { c with shapes := c.shapes.set k.toNat (some d) (by have := k.isLt; omega) })

def Cell.epilogueOf (c : Cell) (k : BitVec 2) : Option (BitVec 512) := c.epilogue[k.toNat]'(by have := k.isLt; omega)
def Cell.shapeOf (c : Cell) (k : BitVec 2) : Option (BitVec 512) := c.shapes[k.toNat]'(by have := k.isLt; omega)

/-! ## Drains: ranges and issue (10 R220, R224) -/

/-- The values of a drain; mxdrs has no destination. -/
structure DrainVals where
  dst : Option Word
  sd : Nat
  posBase : Nat
  sta : Word
  shape : Word
  deriving DecidableEq, Repr

def drnVals (vs : List Word) : DrainVals :=
  { dst := some (val vs 0), sd := strideA (val vs 2), posBase := strideB (val vs 2), sta := val vs 1, shape := val vs 3 }

def drsVals (vs : List Word) : DrainVals := { dst := none, sd := 0, posBase := 0, sta := val vs 0, shape := val vs 1 }

/-- Ranges of a drain with the descriptor that it will use; with none, the destination range of 4-byte elements. -/
def drainRanges (key : Nat) (tag : Bool) (v : DrainVals) (d : Option (BitVec 512)) : List Rng :=
  let m := shapeM v.shape
  let eb := match d with
    | some d => outBytes (descOfmt d)
    | none => 4
  (match v.dst with
   | some a => [mkRange key a (rowsLen m v.sd (shapeN v.shape * eb)) true tag]
   | none => []) ++
  (match d with
   | some d =>
     (if descStm d ≠ 0 then [mkRange key v.sta (8 * m) true false] else []) ++
       (if descUsesParam d then [mkRange key (descParam d) 512 false false] else [])
   | none => [])

def tileCode (t : Word) (c : Cell) : Nat := if c.tileHeld (shapeT t) then 0 else 0x05

def tileIssue (t : Word) (slotted : Bool) : Issue :=
  { ranges := [], tiles := [shapeT t], dtile := some (shapeT t), slotted }

/-- mxdrn (10 R223). -/
def execMxdrn (e : EngineFlags) (k : BitVec 2) (ck : Bool) (tm : BitVec 2) (sA sB sS sD sT : BitVec 5) (s : State) :
    Host.Outcome State Fault Refusal :=
  matrixForm (.mxdrn e k ck tm sA sB sS sD sT) s (fun c vs => tileCode (val vs 3) c) (fun _ vs => tileIssue (val vs 3) true) 4

/-- mxdrs (10 R224). -/
def execMxdrs (e : EngineFlags) (k : BitVec 2) (ck : Bool) (tm : BitVec 2) (sB sD sT : BitVec 5) (s : State) :
    Host.Outcome State Fault Refusal :=
  matrixForm (.mxdrs e k ck tm sB sD sT) s (fun c vs => tileCode (val vs 1) c) (fun _ vs => tileIssue (val vs 1) true) 2

/-- mxcks (10 R228). -/
def execMxcks (e : EngineFlags) (sD : BitVec 5) (s : State) : Host.Outcome State Fault Refusal :=
  matrixForm (.mxcks e sD) s (fun c vs => tileCode (val vs 0) c) (fun _ vs => tileIssue (val vs 0) false) 0

/-! ## The epilogue (10 R223) -/

/-- What the epilogue forms of one element: its output bits, and v for the statistics. -/
structure OutElem where
  bits : Nat
  v : FV
  deriving DecidableEq, Repr

/-- The rounding of an output: Site and Position of stochastic rounding as R223 names them. -/
def outMode (d : BitVec 512) (seed : BitVec 32) (posBase i j : Nat) : Mode :=
  Mode.ofCode (descRm d) (draw seed (descSite d) (BitVec.ofNat 32 (posBase + 64 * i + j)))

/-- Param[k] of a parameter block. -/
def paramOf (ps : List Byte) (k : Nat) : FV := FV.ofBits fp32 (leValue ((ps.drop (4 * k)).take 4))

def epilogueElem (d : BitVec 512) (tblver : Word) (seed : BitVec 32) (posBase : Nat) (ps : List Byte) (i j : Nat)
    (x : BitVec 32) : OutElem :=
  let o := descOfmt d
  if o = 7 then { bits := x.toNat, v := .fin false 0 0 }
  else if descInt d && !descUsesParam d && descAct d == 0 && (o == 5 || o == 6) then
    let vi := if o = 5 then clampInt x.toInt (-128) 127 else x.toInt
    { bits := wrap (8 * outBytes o) vi, v := ofFP32 (roundFP32 .rne (FV.ofInt x.toInt)) }
  else
    let v := if descInt d then ofFP32 (roundFP32 .rne (FV.ofInt x.toInt)) else ofFP32 x
    let sc := if descScm d = 1 then paramOf ps i else if descScm d = 2 then paramOf ps j else .fin false 1 0
    let bi := if descBim d = 1 then paramOf ps (64 + i) else if descBim d = 2 then paramOf ps (64 + j) else .fin false 0 0
    let v := if descUsesParam d then ofFP32 (roundFP32 .rne (v.fma .rne sc bi)) else v
    let v := if descAct d ≠ 0 then ofFP32 (roundFP32 .rne (tableValue tblver (descAct d) v)) else v
    let mode := outMode d seed posBase i j
    if o = 5 || o = 6 then { bits := wrap (8 * outBytes o) (v.toInt mode (8 * outBytes o)), v }
    else { bits := (roundTo (outFmt o) mode (descSat d) v).bits, v }

/-- A row's statistics record (10 R223). -/
def statsRecord (stm : Nat) (vs : List FV) : Nat :=
  if stm = 1 then
    let r := vs.foldl (fun acc v =>
      (roundFP32 .rne ((ofFP32 acc.1).add .rne v), roundFP32 .rne (v.fma .rne v (ofFP32 acc.2)))) (0#32, 0#32)
    r.1.toNat + r.2.toNat * 2 ^ 32
  else
    match vs with
    | [] => 0
    | v :: rest =>
      (roundFP32 .rne (rest.foldl FV.max v)).toNat + (roundFP32 .rne (rest.foldl FV.min v)).toNat * 2 ^ 32

/-- The seed of stochastic rounding: LaunchSeed of the gang (02 R34). -/
def State.seedOf (s : State) (key : Nat) : BitVec 32 := ((s.gang? (gangOfCell key)).map (·.seed)).getD 0

/-- Write the outputs of row i from column j0 on, `n` of them, and with `stats` the row's record. -/
def drainWrite (s : State) (key : Nat) (c : Cell) (x : Cmd) (v : DrainVals) (d : BitVec 512) (i j0 n : Nat) (stats : Bool) :
    Eng State :=
  let t := shapeT v.shape
  let eb := outBytes (descOfmt d)
  let params := if descUsesParam d then s.engRead key 7 (descParam d).toNat 512 else .ok []
  let row (a : Word) : Nat := a.toNat + i * v.sd + j0 * eb
  let dst := match v.dst with
    | some a => (s.engDest key 5 (row a) (n * eb)).map some
    | none => .ok none
  let rec_ := if stats then (s.engDest key 6 (v.sta.toNat + 8 * i) 8).map some else .ok none
  ((dst.both rec_).both params).bind (fun q =>
    if c.accPoisoned ((List.range (shapeN v.shape)).map (accKey t i)) then .fail 1
    else
      let elem (j : Nat) : OutElem := epilogueElem d s.tblver (s.seedOf key) v.posBase q.2 i j (c.acc t i j)
      let s1 := match v.dst, q.1.1 with
        | some a, some ls => s.engWrite key x.id (row a) ls ((List.range n).flatMap (fun j => leBytes eb (elem (j0 + j)).bits))
        | _, _ => s
      .ok (match q.1.2 with
        | some ls => s1.engWrite key x.id (v.sta.toNat + 8 * i) ls
            (leBytes 8 (statsRecord (descStm d) ((List.range (shapeN v.shape)).map (fun j => (elem j).v))))
        | none => s1))

/-! ## Checks (10 R225 to R228) -/

/-- REL * 2^-24 * μ + |ABS| (10 R227); a NaN ABS reads as +0. -/
def tolerance (cktol : Word) (mu : BitVec 32) : FV :=
  let abs := (FV.ofBits fp32 (bits cktol.toNat 63 32)).abs
  let abs := if abs.isNaN then .fin false 0 0 else abs
  ((FV.fin false (bits cktol.toNat 15 0) (-24)).mul (ofFP32 mu)).add .rne abs

/-- A check's outcome. -/
inductive CheckOutcome where
  | clean
  | corrected (i j : Nat) (v : BitVec 32)
  | fails (code : Nat)
  deriving DecidableEq, Repr

def Cell.accFV (c : Cell) (t i j : Nat) : FV := ofFP32 (c.acc t i j)

/-- The indices that a check reads: its rows and columns with the checksums, without (63, 63). -/
def checkIndices (m n : Nat) : List (Nat × Nat) :=
  ((List.range m ++ [63]).flatMap (fun i => (List.range n ++ [63]).map (fun j => (i, j)))).filter (fun p => p != (63, 63))

def Cell.check (c : Cell) (t : Nat) (cktol : Word) : CheckOutcome :=
  let x := c.tile t
  let bad := x.nf || (checkIndices x.cm x.cn).any (fun p => (c.accFV t p.1 p.2).isNaN || (c.accFV t p.1 p.2).isInf)
  if bad then (if cktol.getLsbD 16 then .clean else .fails 0x11)
  else
    let rowSum (i : Nat) : FV := sumFV ((List.range x.cn).map (c.accFV t i))
    let colSum (j : Nat) : FV := sumFV ((List.range x.cm).map (fun i => c.accFV t i j))
    let rho (i : Nat) : FV := (c.accFV t i 63).sub .rne (rowSum i)
    let gam (j : Nat) : FV := (c.accFV t 63 j).sub .rne (colSum j)
    let tr (i : Nat) : FV := tolerance cktol (x.muR.getD i 0)
    let tc (j : Nat) : FV := tolerance cktol (x.muC.getD j 0)
    let rows := (List.range x.cm).filter (fun i => (tr i).lt (rho i).abs)
    let cols := (List.range x.cn).filter (fun j => (tc j).lt (gam j).abs)
    match rows, cols with
    | [], [] => .clean
    | [i], [j] =>
      if (((tr i).add .rne (tc j)).lt ((rho i).sub .rne (gam j)).abs) then .fails 0x10
      else .corrected i j (roundFP32 .rne ((c.accFV t i j).add .rne (rho i)))
    | [], [j] => .corrected 63 j (roundFP32 .rne (colSum j))
    | [i], [] => .corrected i 63 (roundFP32 .rne (rowSum i))
    | _, _ => .fails 0x10

/-- The check of a drain or mxcks, with the rewriting of 10 R229 step 3; `v` and `d` are a drain's. A correction keeps CV
(log 119). -/
def checkUnit (s : State) (key : Nat) (c : Cell) (x : Cmd) (t : Nat) (drain : Option (DrainVals × BitVec 512)) : Eng Worked :=
  let tl := c.tile t
  let keys := (checkIndices tl.cm tl.cn).map (fun p => accKey t p.1 p.2)
  if c.accPoisoned keys then .fail 1
  else match c.check t (x.aux.getD 0 0) with
    | .clean => .ok { s, x }
    | .fails code => .fail code
    | .corrected i j v =>
      let c' := c.setAccs [(accKey t i j, v)]
      let s' := s.setCell key c'
      let x' := { x with corr := true }
      match drain with
      | none => .ok { s := s', x := x' }
      | some (dv, d) =>
        if decide (i < shapeM dv.shape) && decide (j < shapeN dv.shape) then
          let whole := descStm d != 0
          (drainWrite s' key c' x dv d i (if whole then 0 else j) (if whole then shapeN dv.shape else 1) whole).map (fun t =>
            { s := t, x := x' })
        else .ok { s := s', x := x' }

/-! ## Fault injection (10 R231) -/

def State.inject (s : State) (key t : Nat) : State :=
  let p := partOfCell key
  let pt := s.part p
  let e := pt.errinj
  if pt.layout.test && e.getLsbD 31 && bits e.toNat 30 22 == indexOfCell key && bits e.toNat 21 17 == t then
    let i := bits e.toNat 16 11
    let j := bits e.toNat 10 5
    (s.setPart p { pt with errinj := e &&& 0x7FFFFFFF#32 }).modCell key (fun c =>
      let poisoned := c.poisonElems
      let upset := c.upsetElems
      { c.setAccs [(accKey t i j, c.acc t i j ^^^ BitVec.ofNat 32 (2 ^ bits e.toNat 4 0))] with poisonElems := poisoned, upsetElems := upset })
  else s

/-! ## Executions -/

/-- A slot's contents as the words a command keeps from its start on (10 R221). -/
def slotWords (d : BitVec 512) : List Word := (List.range 8).map (fun q => BitVec.ofNat 64 (dBits d (64 * q + 63) (64 * q)))

def wordsSlot (ws : List Word) : BitVec 512 := BitVec.ofNat 512 (ws.foldr (fun w acc => w.toNat + acc * 2 ^ 64) 0)

def State.cktolWord (s : State) (key : Nat) : Word := (s.part (partOfCell key)).cktol

/-- A check is asked of a tile without matching check state (10 R228). -/
def checkMissing (x : Tile) (shape : Word) : Bool := !(x.cv && x.cm == shapeM shape && x.cn == shapeN shape)

def drainShapeBad (v : Word) : Bool := shapeReserved v || shapeK v != 0 || shapeS v != 0

def drainForm (s : State) (key : Nat) (c : Cell) (x : Cmd) (k : BitVec 2) (ck : Bool) (v : DrainVals) : Form :=
  let t := shapeT v.shape
  let d? := c.epilogueOf k
  let d := if x.waiting then d?.getD 0 else wordsSlot (x.aux.drop 1)
  let m := shapeM v.shape
  let n := shapeN v.shape
  let eb := outBytes (descOfmt d)
  { ranges := if x.waiting then drainRanges key x.instr.flags.tag v d? else x.ranges
    access := if x.waiting then drainRanges key x.instr.flags.tag v d? else x.ranges
    units := m + ck.toNat
    spans := fun i => match v.dst with
      | some a => if x.instr.flags.tag && decide (i < m) then [tagSpan key (a.toNat + i * v.sd) (n * eb) true] else []
      | none => []
    paths := fun _ _ => true
    early := [failIf (c.tile t).partialK 2, failIf d?.isNone 0x14,
      failIf (drainShapeBad v.shape || !multipleOf 8 v.sta.toNat ||
        (match v.dst with
         | some a => !multipleOf eb a.toNat || !multipleOf eb v.sd
         | none => descStm d == 0)) 0x17]
    late := [failIf (ck && checkMissing (c.tile t) v.shape) 0x12]
    last := []
    start := { s := s.inject key t, x := { x with aux := s.cktolWord key :: slotWords d } }
    unit := fun i =>
      if i < m then (drainWrite s key c x v d i 0 n (descStm d != 0)).map (fun r => { s := r, x })
      else checkUnit s key c x t (some (v, d))
    failing := fun _ => s
    checked := ck }

def cksForm (s : State) (key : Nat) (c : Cell) (x : Cmd) : Form :=
  let shape := val x.vals 0
  let t := shapeT shape
  { Form.base s x [] 1 (fun _ => checkUnit s key c x t none) with
    early := [failIf (c.tile t).partialK 2, failIf (drainShapeBad shape) 0x17]
    late := [failIf (checkMissing (c.tile t) shape) 0x12]
    start := { s := s.inject key t, x := { x with aux := [s.cktolWord key] } }
    checked := true }

/-! ## Implicit convolution (10 R236) -/

/-- Values of mxcv: IN, weights, P0 and SB, shape. -/
def cvVals (vs : List Word) : MxVals := { a := val vs 0, b := val vs 1, s := val vs 2, d := val vs 3, t := val vs 4 }

def cvRanges (key : Nat) (tag : Bool) (v : MxVals) (d : Option (BitVec 512)) : List Rng :=
  match d with
  | none => []
  | some d =>
    let rb := fmtBytes (shpFmt d) (shapeK v.d)
    [mkRange key v.a ((shpH d - 1) * shpRowP d + (shpW d - 1) * shpPixP d + shpC d * shpEb d) false tag,
     mkRange key v.b (rowsLen (shapeN v.d) (strideB v.s) rb) false tag]

/-- mxcv (10 R236). -/
def execMxcv (e : EngineFlags) (k : BitVec 2) (ck new zs : Bool) (tm : BitVec 2) (sA sB sS sD sT : BitVec 5) (s : State) :
    Host.Outcome State Fault Refusal :=
  matrixForm (.mxcv e k ck new zs tm sA sB sS sD sT) s (fun c vs => tileCode (val vs 3) c) (fun _ vs => tileIssue (val vs 3) true) 4

/-- The byte address of A[i][k], or none for padding (10 R236). -/
def convAddress (d : BitVec 512) (v : MxVals) (i k : Nat) : Option Nat :=
  let p := strideA v.s + i
  let oy : Int := (p / shpOW d : Nat)
  let ox : Int := (p % shpOW d : Nat)
  let c := k % shpC d
  let s := (k / shpC d) % shpS d
  let r := k / (shpC d * shpS d)
  let iy : Int := oy * shpStrideH d - shpPadT d + r * shpDilH d
  let ix : Int := ox * shpStrideW d - shpPadL d + s * shpDilW d
  if 0 ≤ iy ∧ iy < shpH d ∧ 0 ≤ ix ∧ ix < shpW d then
    some (v.a.toNat + iy.toNat * shpRowP d + ix.toNat * shpPixP d + c * shpEb d)
  else none

/-- Row i of granule g of A. -/
def State.convRow (s : State) (key : Nat) (d : BitVec 512) (v : MxVals) (i g len : Nat) : Eng (List FV) :=
  Eng.all ((List.range len).map (fun q =>
    match convAddress d v i (32 * g + q) with
    | some a => (s.engRead key 1 a (shpEb d)).map (fun bs => elementValue (shpFmt d) false 0 (leValue bs))
    | none => .ok (elementValue (shpFmt d) false 0 (shpPadV d))))

def cvForm (s : State) (key : Nat) (c : Cell) (x : Cmd) (k : BitVec 2) (ck new : Bool) : Form :=
  let v := cvVals x.vals
  let d? := c.shapeOf k
  let d := if x.waiting then d?.getD 0 else wordsSlot x.aux
  let p : Multiply := { t := shapeT v.d, m := shapeM v.d, n := shapeN v.d, k := shapeK v.d, fmt := shpFmt d, ck, fresh := new }
  let eb := shpEb d
  { ranges := if x.waiting then cvRanges key x.instr.flags.tag v d? else x.ranges
    access := if x.waiting then cvRanges key x.instr.flags.tag v d? else x.ranges
    units := ceilDiv p.k 32
    spans := fun g => if x.instr.flags.tag then
        (List.range p.m).flatMap (fun i => (List.range (granuleLen p.k g)).flatMap (fun q =>
          match convAddress d v i (32 * g + q) with
          | some a => [tagSpan key a eb false]
          | none => [])) ++
        (granuleSpans v.b p.n (strideB v.s) p.fmt p.k g).map (fun r => tagSpan key r.1 r.2 false)
      else []
    paths := fun _ q => q != 4
    early := [failIf (!new && (c.tile p.t).partialK) 2, failIf (d?.isNone || decide (p.k ≠ shpK d)) 0x16,
      failIf (shapeReserved v.d || shapeS v.d != 0 || (ck && (decide (63 < p.m) || decide (63 < p.n)))) 0x17]
    late := []
    last := []
    start := { s := s.setCell key (c.startMultiply p),
               x := { x with aux := slotWords d } }
    unit := fun g =>
      let len := granuleLen p.k g
      let a := Eng.all ((List.range p.m).map (fun i => s.convRow key d v i g len))
      let b := s.readOperand key 2 p.fmt p.k g p.n (strideB v.s) v.b 0 true
      commitUnit s key c x p g ((a.both b).map (fun q => { a := q.1, b := q.2 }))
    failing := fun _ => s
    checked := false }

end Sys2Proof.Machine
end

