-- ==== Sys2Proof/Machine/Vector.lean ====
section
/-! DEFINITION. Regions, groups, the vector commands and the mask stack (11). -/

namespace Sys2Proof.Machine

/-! ## Regions (11 R237 to R240) -/

/-- A region: `eb2` is twice the element size, so that MX-FP4 codes have 1. -/
structure Region where
  off : Nat
  stride : Int
  count : Nat
  eb2 : Nat
  deriving DecidableEq, Repr

def regionOf (v : Word) (eb2 : Nat) : Region :=
  { off := bits v.toNat 23 0, stride := signedOf 16 (bits v.toNat 39 24), count := bits v.toNat 55 40, eb2 }

def Region.eb (r : Region) : Nat := (r.eb2 + 1) / 2

/-- The offset of element e; a single element serves every index. -/
def Region.offset (r : Region) (e : Nat) : Int :=
  if r.count ≤ 1 then r.off else if r.eb2 = 1 then r.off + (e / 2 : Nat) else r.off + e * r.stride * r.eb

/-- Lowest byte and length of the span. -/
def Region.low (r : Region) : Int := min (r.off : Int) (r.offset (r.count - 1))
def Region.high (r : Region) : Int := max (r.off : Int) (r.offset (r.count - 1)) + r.eb

/-- The vector fault codes of a descriptor (11 Table 11-11). -/
def regionCodes (size : Nat) (v : Word) (eb2 : Nat) : List Nat :=
  let r := regionOf v eb2
  (if bits v.toNat 63 56 ≠ 0 then [1] else []) ++ (if r.count = 0 then [2] else []) ++
    (if r.count ≠ 0 && (decide (r.low < 0) || decide ((size : Int) < r.high)) then [3] else []) ++
    (if r.off % r.eb ≠ 0 then [4] else []) ++ (if eb2 = 1 && r.count > 1 && r.stride ≠ 1 then [6] else [])

/-- The own-slice address of an offset. -/
def ownAddr (off : Nat) : Nat := 3 * 2 ^ 60 + off

def Region.addr (r : Region) (e : Nat) : Nat := ownAddr (r.offset e).toNat

def Region.range (r : Region) (key : Nat) (write tagged : Bool) : Rng :=
  mkRange key (BitVec.ofNat 64 (ownAddr r.low.toNat)) (r.high - r.low).toNat write tagged

/-- One range from the lower start of two spans to the higher end (11 R247). -/
def spanRange (key : Nat) (b c : Region) : Rng :=
  let lo := min b.low c.low
  let hi := max b.high c.high
  mkRange key (BitVec.ofNat 64 (ownAddr lo.toNat)) (hi - lo).toNat false false

/-- Twice the element size of a format code of 11 Table 11-2. -/
def vfmtEb2 (f : Nat) : Nat :=
  match f with
  | 0 => 8
  | 1 => 4
  | 2 => 4
  | 3 => 16
  | 4 => 2
  | 5 => 2
  | 6 => 2
  | 7 => 8
  | 8 => 16
  | _ => 1

/-- The floating-point format of codes 0 to 5. -/
def vfmt (f : Nat) : Fmt :=
  match f with
  | 0 => fp32
  | 1 => bf16
  | 2 => fp16
  | 3 => fp64
  | 4 => e4m3
  | _ => e5m2

/-- The accumulation format (11 R239), as a format code. -/
def accFmt (f : Nat) : Nat := if f = 3 then 3 else 0

/-! ## Elements of groups (11 R242) -/

/-- Raw bits of an element of a region. -/
def readElem (s : State) (key : Nat) (r : Region) (e : Nat) : Eng Nat :=
  (s.engRead key 0 (r.addr e) r.eb).map (fun bs =>
    let v := leValue bs
    if r.eb2 = 1 then (if e % 2 = 0 then v % 16 else v / 16) else v)

def readElems (s : State) (key : Nat) (r : Region) (es : List Nat) : Eng (List Nat) := Eng.all (es.map (readElem s key r))

/-- Join a write to the run before it where the two adjoin. -/
def joinRun : List (Nat × List Byte) → (Nat × List Byte) → List (Nat × List Byte)
  | [], w => [w]
  | (a, bs) :: rest, (b, cs) =>
    if a + bs.length = b then (a, bs ++ cs) :: rest
    else if b + cs.length = a then (b, cs ++ bs) :: rest
    else (b, cs) :: (a, bs) :: rest

/-- Runs of adjoining bytes, in the order of the writes. -/
def writeRuns (ws : List (Nat × List Byte)) : List (Nat × List Byte) := (ws.foldl joinRun []).reverse

/-- Write the bytes of a group: none if one of them may not be written (11 R261). -/
def writeGroup (s : State) (key id opnd : Nat) (ws : List (Nat × List Byte)) : Eng State :=
  let runs := writeRuns ws
  (Eng.all (runs.map (fun w => s.engDest key opnd w.1 w.2.length))).map (fun ls =>
    (runs.zip ls).foldl (fun s p => s.engWrite key id p.1.1 p.2 p.1.2) s)

/-! ## Floating-point events (11 R258, R259) -/

/-- What is counted of a result: its format code and the events. -/
structure FpEvent where
  fmt : Nat
  nan : Bool
  inf : Bool
  ovf : Bool
  unf : Bool
  deriving DecidableEq, Repr

def eventOf (f : Nat) (r : Rounded) : FpEvent :=
  { fmt := f, nan := bitsNaN (vfmt f) r.bits, inf := bitsInf (vfmt f) r.bits, ovf := r.ovf, unf := r.unf }

/-- The counters that an event adds to: `4 * format + kind`, kinds NAN, INF, OVF, UNF. -/
def FpEvent.counters (e : FpEvent) : List Nat :=
  [(0, e.nan), (1, e.inf), (2, e.ovf), (3, e.unf)].filterMap (fun p => if p.2 then some (4 * e.fmt + p.1) else none)

/-- The threshold of a kind (11 Table 11-10). -/
def fpThreshold (w : Word) (kind : Nat) : Nat := bits w.toNat (16 * kind + 15) (16 * kind)

/-- Count one event: the counter saturates, and its threshold sends one interrupt per gang (11 R259, log 17). -/
def State.countFp (s : State) (key n : Nat) : State :=
  match s.cell? key with
  | none => s
  | some c =>
    let k := n % 24
    let v := min ((c.fpc[k]'(Nat.mod_lt _ (by decide))).toNat + 1) (2 ^ 32 - 1)
    let s := s.setCell key { c with fpc := c.fpc.set k (BitVec.ofNat 32 v) (Nat.mod_lt _ (by decide)) }
    let p := partOfCell key
    let thr := fpThreshold (s.part p).fpxthr (k % 4)
    let mark := indexOfCell key * 24 + k
    let sent := ((s.gang? (gangOfCell key)).map (·.fpSent)).getD []
    if thr = 0 || v < thr || sent.contains mark then s
    else (s.interrupt (s.agentPort (.aseq key)) (4 * p + 2)
        (BitVec.ofNat 64 (indexOfCell key + 2 ^ 16 * (k / 4) + 2 ^ 24 * (k % 4)))).modGang (gangOfCell key)
      (fun g => { g with fpSent := insertAsc mark g.fpSent })

def State.countEvents (s : State) (key : Nat) (es : List FpEvent) : State :=
  (es.flatMap FpEvent.counters).foldl (fun s n => s.countFp key n) s

/-! ## The mask of a command (11 R256) -/

/-- EM as a test of an index. -/
def Cell.em (c : Cell) (um : Bool) (level e : Nat) : Bool := um || level == 0 || (c.mask (level - 1)).bits.getLsbD e

def maskPoisoned (c : Cell) (um : Bool) (level : Nat) : Bool := !um && level != 0 && (c.mask (level - 1)).psn

/-! ## What each form names (11 Tables 11-6 to 11-8) -/

/-- The regions of a form: descriptor value and element size. -/
structure VRegs where
  d : Word × Nat
  a : Word × Nat
  b : Option (Word × Nat)
  c : Option (Word × Nat)
  deriving DecidableEq, Repr

def VRegs.all (r : VRegs) : List (Word × Nat) := [r.d, r.a] ++ r.b.toList ++ r.c.toList

def vreg2 (vs : List Word) (eb : Nat) : VRegs := { d := (val vs 0, eb), a := (val vs 1, eb), b := none, c := none }
def vreg3 (vs : List Word) (eb : Nat) : VRegs := { vreg2 vs eb with b := some (val vs 2, eb) }

/-- Twice the element size of an integer width. -/
def iwEb2 (iw : BitVec 2) : Nat := 2 * 2 ^ iw.toNat

def vregs (i : Instr) (vs : List Word) : VRegs :=
  match i with
  | .vadd _ _ f _ _ _ _ _ => vreg3 vs (vfmtEb2 f.toNat)
  | .vsub _ _ f _ _ _ _ _ => vreg3 vs (vfmtEb2 f.toNat)
  | .vmul _ _ f _ _ _ _ _ => vreg3 vs (vfmtEb2 f.toNat)
  | .vdiv _ _ f _ _ _ _ _ => vreg3 vs (vfmtEb2 f.toNat)
  | .vfma _ _ f _ _ _ _ _ _ => { vreg3 vs (vfmtEb2 f.toNat) with c := some (val vs 3, vfmtEb2 f.toNat) }
  | .vmin _ f _ _ _ _ => vreg3 vs (vfmtEb2 f.toNat)
  | .vmax _ f _ _ _ _ => vreg3 vs (vfmtEb2 f.toNat)
  | .vsqrt _ _ f _ _ _ _ => vreg2 vs (vfmtEb2 f.toNat)
  | .vsgn _ f op _ _ _ _ => if op = 2 then vreg3 vs (vfmtEb2 f.toNat) else vreg2 vs (vfmtEb2 f.toNat)
  | .vcmp _ _ f _ _ _ _ => { vreg3 vs (vfmtEb2 f.toNat) with d := (val vs 0, 2) }
  | .vrsc _ _ f _ _ _ _ _ _ =>
    { vreg2 vs (vfmtEb2 f.toNat) with b := some (val vs 2, 8), c := if val vs 3 = 0 then none else some (val vs 3, 8) }
  | .vrst _ f _ _ _ _ _ => { vreg2 vs (vfmtEb2 f.toNat) with d := (val vs 0, vfmtEb2 (accFmt f.toNat)) }
  | .viadd _ iw _ _ _ _ _ => vreg3 vs (iwEb2 iw)
  | .visub _ iw _ _ _ _ _ => vreg3 vs (iwEb2 iw)
  | .vimul _ _ iw _ _ _ _ _ => vreg3 vs (iwEb2 iw)
  | .vilog _ _ iw _ _ _ _ => vreg3 vs (iwEb2 iw)
  | .vishf _ _ iw _ _ _ _ => vreg3 vs (iwEb2 iw)
  | .vicmp _ _ iw _ _ _ _ => { vreg3 vs (iwEb2 iw) with d := (val vs 0, 2) }
  | .vsel _ iw _ _ _ _ _ => { vreg3 vs (iwEb2 iw) with c := some (val vs 3, 2) }
  | .vcvt _ _ df _ _ _ _ sf _ _ =>
    { d := (val vs 0, vfmtEb2 df.toNat), a := (val vs 1, vfmtEb2 sf.toNat), b := none,
      c := if df = 9 || sf = 9 then some (val vs 2, 2) else none }
  | .vred _ f _ _ _ _ _ => { vreg2 vs (vfmtEb2 f.toNat) with d := (val vs 0, vfmtEb2 (accFmt f.toNat)) }
  | .vdot _ f _ _ _ _ _ => { vreg3 vs (vfmtEb2 f.toNat) with d := (val vs 0, vfmtEb2 (accFmt f.toNat)) }
  | .vscan _ f _ _ _ _ _ => { vreg2 vs (vfmtEb2 f.toNat) with d := (val vs 0, vfmtEb2 (accFmt f.toNat)) }
  | .vbcast _ iw _ _ _ => vreg2 vs (iwEb2 iw)
  | _ => vreg2 vs 8

/-- S[sE] of a command that uses it, else 0 (11 R245). -/
def vaux (i : Instr) (vs : List Word) : Word :=
  match i with
  | .vadd .. => val vs 3
  | .vsub .. => val vs 3
  | .vmul .. => val vs 3
  | .vdiv .. => val vs 3
  | .vfma .. => val vs 4
  | .vsqrt .. => val vs 2
  | .vrsc .. => val vs 4
  | .vrst .. => val vs 2
  | .vcvt .. => val vs 3
  | .vred .. => val vs 2
  | .vdot .. => val vs 3
  | .vscan .. => val vs 2
  | _ => 0

def vum : Instr → Bool
  | .vadd _ _ _ um _ _ _ _ => um
  | .vsub _ _ _ um _ _ _ _ => um
  | .vmul _ _ _ um _ _ _ _ => um
  | .vdiv _ _ _ um _ _ _ _ => um
  | .vfma _ _ _ um _ _ _ _ _ => um
  | .vmin _ _ um _ _ _ => um
  | .vmax _ _ um _ _ _ => um
  | .vsqrt _ _ _ um _ _ _ => um
  | .vsgn _ _ _ um _ _ _ => um
  | .vcmp _ _ _ um _ _ _ => um
  | .vrsc _ _ _ um _ _ _ _ _ => um
  | .vrst _ _ _ um _ _ _ => um
  | .viadd _ _ _ um _ _ _ => um
  | .visub _ _ _ um _ _ _ => um
  | .vimul _ _ _ _ um _ _ _ => um
  | .vilog _ _ _ um _ _ _ => um
  | .vishf _ _ _ um _ _ _ => um
  | .vicmp _ _ _ um _ _ _ => um
  | .vsel _ _ um _ _ _ _ => um
  | .vcvt _ _ _ um _ _ _ _ _ _ => um
  | .vred _ _ _ um _ _ _ => um
  | .vdot _ _ um _ _ _ _ => um
  | .vscan _ _ _ um _ _ _ => um
  | .vbcast _ _ um _ _ => um
  | _ => true

/-- ROWLEN, or nA (11 R241, R245). -/
def rowLen (aux : Word) (nA : Nat) : Nat := let l := bits aux.toNat 63 48; if l = 0 then nA else l

/-- The counts agree (11 R241, Table 11-8). -/
def countsOk (i : Instr) (vs : List Word) (r : VRegs) : Bool :=
  let n (p : Word × Nat) : Nat := (regionOf p.1 p.2).count
  let nD := n r.d
  let nA := n r.a
  let opt (p : Option (Word × Nat)) (ok : Nat → Bool) : Bool := match p with
    | some q => ok (n q)
    | none => true
  let l := rowLen (vaux i vs) nA
  let rows := nA / l
  let rowOk := decide (l ≠ 0) && decide (nA % l = 0) && decide (l ≤ nA)
  let one (k : Nat) : Bool := k == nD || k == 1
  match i with
  | .vrsc .. => rowOk && nD == nA && opt r.b (fun k => k == rows || k == 1) && opt r.c (fun k => k == rows || k == 1)
  | .vrst .. => rowOk && nD == 2 * rows
  | .vred .. => rowOk && nD == rows
  | .vdot .. => rowOk && nD == rows && opt r.b (fun k => k == nA || k == l)
  | .vscan .. => rowOk && nD == nA
  | .vcvt _ _ _ _ _ _ _ sf _ _ =>
    (if sf = 9 then nA == nD else one nA) && opt r.c (fun k => k == ceilDiv nD 32)
  | _ => one nA && opt r.b one && opt r.c one

/-- A vector fault (11 R260). -/
def State.vectorTrap (s : State) (key code : Nat) : State := s.raiseTrap (.aseq key) 0x0E code .fatal 0 0

/-- The least of a list of codes, 0 for none. -/
def leastCode : List Nat → Nat
  | [] => 0
  | x :: rest => let m := leastCode rest; if m = 0 || x < m then x else m

/-- Codes of the regions and counts of a form. -/
def regionsCode (size : Nat) (regs : List (Word × Nat)) (countsOk : Bool) : Nat :=
  leastCode (regs.flatMap (fun p => regionCodes size p.1 p.2) ++ (if countsOk then [] else [5]))

/-- Ranges of a command: D, A, and the other sources; `scales` says that C is the scale region that a conversion to MX-FP4
writes (11 R247, R251). -/
def VRegs.ranges (r : VRegs) (key : Nat) (tag : Bool) (scales : Bool := false) : List Rng :=
  let reg (p : Word × Nat) : Region := regionOf p.1 p.2
  [(reg r.d).range key true tag, (reg r.a).range key false tag] ++
    (match r.b, r.c with
     | some b, some c => [spanRange key (reg b) (reg c)]
     | some b, none => [(reg b).range key false false]
     | none, some c => [(reg c).range key scales false]
     | none, none => [])

/-- A conversion to MX-FP4. -/
def toMx : Instr → Bool
  | .vcvt _ _ df .. => df == 9
  | _ => false

/-- A VFP, VIC or VRD form issues once its descriptors and counts pass (11 R238, R241, R246). -/
def vectorForm (i : Instr) (s : State) : Host.Outcome State Fault Refusal :=
  onEngine i [.vector] s (fun key c vs =>
    let r := vregs i vs
    match regionsCode c.ctype.sliceSize r.all (countsOk i vs r) with
    | 0 => s.enqueue key c i vs 0 (Issue.plain (r.ranges key i.flags.tag (toMx i)))
    | n => s.vectorTrap key n)

/-! ## Element operations (11 R249 to R251) -/

/-- A result of an element: its bits, and what is counted of it. -/
structure VOut where
  bits : Nat
  event : Option FpEvent
  deriving DecidableEq, Repr

def rounded (f : Nat) (r : Rounded) : VOut := { bits := r.bits, event := some (eventOf f r) }
def plainOut (b : Nat) : VOut := { bits := b, event := none }

/-- Round a value to FMT with a mode. -/
def roundOut (f : Nat) (mode : Mode) (v : FV) (sticky : Bool := false) : VOut := rounded f (roundTo (vfmt f) mode false v sticky)

/-- The mode of an element: stochastic rounding draws by SITE and PBLK * 65,536 + e (11 R245). -/
def elemMode (rm : Nat) (seed : BitVec 32) (aux : Word) (e : Nat) : Mode :=
  Mode.ofCode rm (draw seed (aux.setWidth 32) (BitVec.ofNat 32 (bits aux.toNat 47 32 * 65536 + e)))

/-- vcmp's relation (11 R249). -/
def cmpRel (rel : Nat) (x y : FV) : Bool :=
  let u := x.isNaN || y.isNaN
  match rel with
  | 0 => x.eq y
  | 1 => u || !x.eq y
  | 2 => x.lt y
  | 3 => x.le y
  | 4 => y.lt x
  | 5 => y.le x
  | _ => u

/-- Sign operations on raw bits. -/
def signOp (f : Nat) (op : Nat) (a b : Nat) : Nat :=
  let k := (vfmt f).width - 1
  let mag := a % 2 ^ k
  match op with
  | 0 => mag
  | 1 => mag + (if a.testBit k then 0 else 2 ^ k)
  | _ => mag + (if b.testBit k then 2 ^ k else 0)

/-- Saturation of a sum, difference or low product (11 R250, 05 R102): `op` on the operands as SAT reads them. -/
def satOp (sat w : Nat) (op : Int → Int → Int) (a b : Nat) : Nat :=
  match sat with
  | 0 => wrap w (op a b)
  | 1 => wrap w (clampInt (op (signedOf w a) (signedOf w b)) (-(2 ^ (w - 1) : Nat)) ((2 ^ (w - 1) : Nat) - 1))
  | _ => (clampInt (op a b) 0 ((2 ^ w : Nat) - 1)).toNat

def mulOp (iop sat w a b : Nat) : Nat :=
  match iop with
  | 0 => satOp sat w (· * ·) a b
  | 1 => wrap w ((signedOf w a * signedOf w b) / (2 ^ w : Nat))
  | _ => a * b / 2 ^ w

def logOp (iop w a b : Nat) : Nat :=
  match iop with
  | 0 => a &&& b
  | 1 => a ||| b
  | 2 => a ^^^ b
  | 3 => a &&& (2 ^ w - 1 - b)
  | 4 => if signedOf w a < signedOf w b then a else b
  | 5 => if signedOf w a < signedOf w b then b else a
  | 6 => min a b
  | _ => max a b

def shiftOp (iop w a b : Nat) : Nat :=
  let k := b % w
  match iop with
  | 0 => a * 2 ^ k % 2 ^ w
  | 1 => a / 2 ^ k
  | _ => wrap w (signedOf w a / (2 ^ k : Nat))

def icmpRel (iop w a b : Nat) : Bool :=
  match iop with
  | 0 => a == b
  | 1 => a != b
  | 2 => decide (signedOf w a < signedOf w b)
  | 3 => decide (a < b)
  | 4 => decide (signedOf w a ≤ signedOf w b)
  | _ => decide (a ≤ b)

/-- Integer width of a format code 6 to 8. -/
def intWidth (f : Nat) : Nat := if f = 6 then 8 else if f = 7 then 32 else 64

/-- One conversion between codes 0 to 8 (11 R251). -/
def cvtElem (df sf : Nat) (mode : Mode) (sat : Bool) (x : Nat) : VOut :=
  let dInt := decide (6 ≤ df)
  let sInt := decide (6 ≤ sf)
  if dInt && sInt then plainOut (wrap (intWidth df) (signedOf (intWidth sf) x))
  else if dInt then plainOut (wrap (intWidth df) ((FV.ofBits (vfmt sf) x).toInt mode (intWidth df)))
  else
    let v := if sInt then FV.ofInt (signedOf (intWidth sf) x) else FV.ofBits (vfmt sf) x
    rounded df (roundTo (vfmt df) mode sat v)

def boolOut (b : Bool) : VOut := plainOut b.toNat

/-- Op of an element-wise form on raw elements (11 Tables 11-6, 11-7); `bias` says that vrsc has a region C, which it has
unless S[sC] = 0 (11 Table 11-8). -/
def vop (i : Instr) (seed : BitVec 32) (aux : Word) (bias : Bool) (e a b c : Nat) : VOut :=
  match i with
  | .vadd _ rm f _ _ _ _ _ =>
    let m := elemMode rm.toNat seed aux e
    roundOut f.toNat m ((FV.ofBits (vfmt f.toNat) a).add m (FV.ofBits (vfmt f.toNat) b))
  | .vsub _ rm f _ _ _ _ _ =>
    let m := elemMode rm.toNat seed aux e
    roundOut f.toNat m ((FV.ofBits (vfmt f.toNat) a).sub m (FV.ofBits (vfmt f.toNat) b))
  | .vmul _ rm f _ _ _ _ _ =>
    roundOut f.toNat (elemMode rm.toNat seed aux e) ((FV.ofBits (vfmt f.toNat) a).mul (FV.ofBits (vfmt f.toNat) b))
  | .vdiv _ rm f _ _ _ _ _ =>
    let q := (FV.ofBits (vfmt f.toNat) a).div (FV.ofBits (vfmt f.toNat) b)
    roundOut f.toNat (elemMode rm.toNat seed aux e) q.1 q.2
  | .vfma _ rm f _ _ _ _ _ _ =>
    let m := elemMode rm.toNat seed aux e
    roundOut f.toNat m ((FV.ofBits (vfmt f.toNat) a).fma m (FV.ofBits (vfmt f.toNat) b) (FV.ofBits (vfmt f.toNat) c))
  | .vmin _ f _ _ _ _ =>
    plainOut (roundTo (vfmt f.toNat) .rne false ((FV.ofBits (vfmt f.toNat) a).min (FV.ofBits (vfmt f.toNat) b))).bits
  | .vmax _ f _ _ _ _ =>
    plainOut (roundTo (vfmt f.toNat) .rne false ((FV.ofBits (vfmt f.toNat) a).max (FV.ofBits (vfmt f.toNat) b))).bits
  | .vsqrt _ rm f _ _ _ _ =>
    let q := (FV.ofBits (vfmt f.toNat) a).sqrt
    roundOut f.toNat (elemMode rm.toNat seed aux e) q.1 q.2
  | .vsgn _ f op _ _ _ _ => plainOut (signOp f.toNat op.toNat a b)
  | .vcmp _ rel f _ _ _ _ => boolOut (cmpRel rel.toNat (FV.ofBits (vfmt f.toNat) a) (FV.ofBits (vfmt f.toNat) b))
  | .vrsc _ rm f _ _ _ _ _ _ =>
    let m := elemMode rm.toNat seed aux e
    let p := (FV.ofBits (vfmt f.toNat) a).mul (FV.ofBits fp32 b)
    roundOut f.toNat m (if bias then p.add m (FV.ofBits fp32 c) else p)
  | .viadd _ iw sat _ _ _ _ => plainOut (satOp sat.toNat (8 * 2 ^ iw.toNat) (· + ·) a b)
  | .visub _ iw sat _ _ _ _ => plainOut (satOp sat.toNat (8 * 2 ^ iw.toNat) (· - ·) a b)
  | .vimul _ iop iw sat _ _ _ _ => plainOut (mulOp iop.toNat sat.toNat (8 * 2 ^ iw.toNat) a b)
  | .vilog _ iop iw _ _ _ _ => plainOut (logOp iop.toNat (8 * 2 ^ iw.toNat) a b)
  | .vishf _ iop iw _ _ _ _ => plainOut (shiftOp iop.toNat (8 * 2 ^ iw.toNat) a b)
  | .vicmp _ iop iw _ _ _ _ => boolOut (icmpRel iop.toNat (8 * 2 ^ iw.toNat) a b)
  | .vsel .. => plainOut (if c = 0 then b else a)
  | .vcvt _ rm df _ sat _ _ sf _ _ => cvtElem df.toNat sf.toNat (elemMode rm.toNat seed aux e) sat a
  | _ => plainOut a

/-! ## Executions -/

/-- The indices of group q of n. -/
def groupOf (n q : Nat) : List Nat := (List.range (min 64 (n - 64 * q))).map (64 * q + ·)

/-- Tagged spans of the elements of a group. -/
def groupSpans (key : Nat) (r : Region) (es : List Nat) (write : Bool) : List TagSpan :=
  es.map (fun e => tagSpan key (r.addr e) r.eb write)

def readOpt (s : State) (key : Nat) (r : Option Region) (es : List Nat) : Eng (List Nat) :=
  match r with
  | some r => readElems s key r es
  | none => .ok (es.map (fun _ => 0))

/-- Write the results of a group and count them. -/
def putGroup (s : State) (key : Nat) (x : Cmd) (d : Region) (out : List (Nat × VOut)) : Eng Worked :=
  (writeGroup s key x.id 0 (out.map (fun o => (d.addr o.1, leBytes d.eb o.2.bits)))).map (fun s =>
    { s := s.countEvents key (out.filterMap (fun o => o.2.event)), x })

def VRegs.reg (p : Word × Nat) : Region := regionOf p.1 p.2

/-- Element-wise forms (11 R248). -/
def elementUnit (s : State) (key : Nat) (c : Cell) (x : Cmd) (r : VRegs) (q : Nat) : Eng Worked :=
  let d := VRegs.reg r.d
  let es := groupOf d.count q
  (((readElems s key (VRegs.reg r.a) es).both (readOpt s key (r.b.map VRegs.reg) es)).both
    (readOpt s key (r.c.map VRegs.reg) es)).bind (fun v =>
      let out := (es.zip (v.1.1.zip (v.1.2.zip v.2))).map (fun p =>
        (p.1, vop x.instr (s.seedOf key) (vaux x.instr x.vals) r.c.isSome p.1 p.2.1 p.2.2.1 p.2.2.2))
      putGroup s key x d (out.filter (fun o => c.em (vum x.instr) x.maskLevel o.1)))

/-- vrsc: a row is formed and written with the group that holds its last element; the elements of a row that has not ended
wait in the command (11 R242, R252; log 91). -/
def scaleUnit (s : State) (key : Nat) (c : Cell) (x : Cmd) (r : VRegs) (q : Nat) : Eng Worked :=
  let d := VRegs.reg r.d
  let aux := vaux x.instr x.vals
  let l := rowLen aux d.count
  let first := 64 * q / l * l
  let ended := min d.count (64 * (q + 1)) / l * l
  let es := (List.range (ended - first)).map (first + ·)
  let rows := es.map (· / l)
  ((readElems s key (VRegs.reg r.a) (groupOf d.count q)).both ((readOpt s key (r.b.map VRegs.reg) rows).both
    (readOpt s key (r.c.map VRegs.reg) rows))).bind (fun v =>
      let a := x.aux.map (·.toNat) ++ v.1
      let out := (es.zip (a.zip (v.2.1.zip v.2.2))).map (fun p =>
        (p.1, vop x.instr (s.seedOf key) aux r.c.isSome p.1 p.2.1 p.2.2.1 p.2.2.2))
      putGroup s key { x with aux := (a.drop (ended - first)).map (BitVec.ofNat 64) } d
        (out.filter (fun o => c.em (vum x.instr) x.maskLevel o.1)))

/-- vcvt from MX-FP4 (11 R251). -/
def fromMxUnit (s : State) (key : Nat) (x : Cmd) (r : VRegs) (rm df : Nat) (sat : Bool) (q : Nat) : Eng Worked :=
  let d := VRegs.reg r.d
  let es := groupOf d.count q
  ((readElems s key (VRegs.reg r.a) es).both (readOpt s key (r.c.map VRegs.reg) (es.map (· / 32)))).bind (fun v =>
    putGroup s key x d ((es.zip (v.1.zip v.2)).map (fun p =>
      (p.1, rounded df (roundTo (vfmt df) (elemMode rm (s.seedOf key) (vaux x.instr x.vals) p.1) sat (mxValue p.2.2 p.2.1))))))

/-- Codes of a block as bytes, two to a byte; an odd count leaves the last high nibble 0 (11 R251). -/
def packNibbles : List Nat → List Byte
  | [] => []
  | [a] => [BitVec.ofNat 8 a]
  | a :: b :: rest => BitVec.ofNat 8 (a + 16 * b) :: packNibbles rest

/-- vcvt to MX-FP4: codes and scales are written together (11 R251). -/
def toMxUnit (s : State) (key : Nat) (x : Cmd) (r : VRegs) (rm sf : Nat) (q : Nat) : Eng Worked :=
  let d := VRegs.reg r.d
  let es := groupOf d.count q
  let aux := vaux x.instr x.vals
  (readElems s key (VRegs.reg r.a) es).bind (fun v =>
    let vals := v.map (fun b => if 6 ≤ sf then FV.ofInt (signedOf (intWidth sf) b) else FV.ofBits (vfmt sf) b)
    let block (k : Nat) : List (Nat × List Byte) :=
      let vs := (vals.drop (32 * k)).take 32
      if vs.isEmpty then []
      else
        let e0 := 64 * q + 32 * k
        let z := mxQuantise (fun j => elemMode rm (s.seedOf key) aux (e0 + j)) vs
        let sc : List (Nat × List Byte) := match r.c with
          | some c => [((VRegs.reg c).addr (e0 / 32), leBytes 1 z.1)]
          | none => []
        (d.addr e0, packNibbles z.2) :: sc
    (writeGroup s key x.id 0 (block 0 ++ block 1)).map (fun s => { s, x }))

/-! ## Row forms (11 R252, R253) -/

/-- The partial state of a row: two running values with the events of the roundings that made them, and the terms of the
granule that runs. -/
structure RowState where
  p : Rounded
  q : Rounded
  terms : List (Nat × Nat)
  deriving DecidableEq, Repr

def RowState.toWords (r : RowState) : List Word :=
  [BitVec.ofNat 64 r.p.bits, BitVec.ofNat 64 r.q.bits,
   BitVec.ofNat 64 (r.p.ovf.toNat + 2 * r.p.unf.toNat + 4 * r.q.ovf.toNat + 8 * r.q.unf.toNat)] ++
    r.terms.flatMap (fun t => [BitVec.ofNat 64 t.1, BitVec.ofNat 64 t.2])

def pairsOf : List Word → List (Nat × Nat)
  | a :: b :: rest => (a.toNat, b.toNat) :: pairsOf rest
  | _ => []

def RowState.ofWords (ws : List Word) : RowState :=
  let f := (val ws 2).toNat
  { p := { bits := (val ws 0).toNat, ovf := f.testBit 0, unf := f.testBit 1 },
    q := { bits := (val ws 1).toNat, ovf := f.testBit 2, unf := f.testBit 3 }, terms := pairsOf (ws.drop 3) }

def exactBits (f : Nat) (v : FV) : Rounded := { roundTo (vfmt f) .rne false v with ovf := false, unf := false }

/-- The row state before a row's first element; `f` is the format code of Fa. -/
def rowStart (i : Instr) (f : Nat) : RowState :=
  let mk (p q : FV) : RowState := { p := exactBits f p, q := exactBits f q, terms := [] }
  let z := FV.fin false 0 0
  match i with
  | .vrst _ _ op _ _ _ _ => if op = 1 then mk (.inf true) (.inf false) else mk z z
  | .vred _ _ op _ _ _ _ => if op = 1 then mk (.inf true) z else if op = 2 then mk (.inf false) z else mk z z
  | .vscan _ _ op _ _ _ _ => if op = 2 then mk (.inf true) z else if op = 3 then mk (.inf false) z else mk z z
  | _ => mk z z

def Rounded.fv (f : Nat) (r : Rounded) : FV := FV.ofBits (vfmt f) r.bits

/-- One contributing element enters the row state. -/
def rowTake (i : Instr) (f src : Nat) (r : RowState) (a b : Nat) : RowState :=
  let va := FV.ofBits (vfmt src) a
  let rnd (v : FV) : Rounded := roundTo (vfmt f) .rne false v
  let p := r.p.fv f
  let q := r.q.fv f
  match i with
  | .vrst _ _ op _ _ _ _ =>
    if op = 1 then { r with p := exactBits f (p.max va), q := exactBits f (q.min va) }
    else { r with p := rnd (p.add .rne va), q := rnd (va.fma .rne va q) }
  | .vred _ _ op _ _ _ _ =>
    if op = 0 then { r with terms := r.terms ++ [(a, b)] }
    else if op = 1 then { r with p := exactBits f (p.max va) }
    else if op = 2 then { r with p := exactBits f (p.min va) }
    else { r with p := exactBits f (p.max va.abs) }
  | .vdot .. => { r with terms := r.terms ++ [(a, b)] }
  | .vscan _ _ op _ _ _ _ =>
    if op = 2 then { r with p := exactBits f (p.max va) }
    else if op = 3 then { r with p := exactBits f (p.min va) }
    else { r with p := rnd (p.add .rne va) }
  | _ => r

/-- The form sums in granules (11 R253). -/
def sumsGranules : Instr → Bool
  | .vred _ _ op _ _ _ _ => op == 0
  | .vdot .. => true
  | _ => false

/-- A granule of 32 closes: its exact sum is rounded and added (11 R253). -/
def rowGranule (i : Instr) (f src : Nat) (r : RowState) : RowState :=
  let term (t : Nat × Nat) : FV :=
    match i with
    | .vdot .. => (FV.ofBits (vfmt src) t.1).mul (FV.ofBits (vfmt src) t.2)
    | _ => FV.ofBits (vfmt src) t.1
  let sum := sumFV (r.terms.map term)
  { r with p := roundTo (vfmt f) .rne false ((r.p.fv f).add .rne ((roundTo (vfmt f) .rne false sum).fv f)), terms := [] }

/-- A form whose results are counted (11 R258). -/
def rowCounts : Instr → Bool
  | .vrst .. => true
  | .vred _ _ op _ _ _ _ => op == 0
  | .vdot .. => true
  | .vscan _ _ op _ _ _ _ => op == 0 || op == 1
  | _ => false

def rowOut (i : Instr) (f : Nat) (v : Rounded) : VOut := if rowCounts i then rounded f v else plainOut v.bits

/-- Element e of A passes: the row state after it, and the destination elements that it writes. -/
def rowElem (i : Instr) (f src l : Nat) (r : RowState) (e : Nat) (on : Bool) (a b : Nat) : RowState × List (Nat × VOut) :=
  let r0 := if e % l = 0 then rowStart i f else r
  let r1 := if on then rowTake i f src r0 a b else r0
  let last := e % l + 1 == l
  let r2 := if sumsGranules i && (e % l % 32 == 31 || last) then rowGranule i f src r1 else r1
  let out := match i with
    | .vscan _ _ op _ _ _ _ => [(e, rowOut i f (if op = 1 then r0.p else r2.p))]
    | .vrst .. => if last then [(2 * (e / l), rowOut i f r2.p), (2 * (e / l) + 1, rowOut i f r2.q)] else []
    | _ => if last then [(e / l, rowOut i f r2.p)] else []
  (r2, out)

/-- The B index of vdot. -/
def dotIndex (b : Region) (nA l e : Nat) : Nat := if b.count = nA then e else e % l

def rowUnit (s : State) (key : Nat) (c : Cell) (x : Cmd) (r : VRegs) (src q : Nat) : Eng Worked :=
  let a := VRegs.reg r.a
  let es := groupOf a.count q
  let l := rowLen (vaux x.instr x.vals) a.count
  let f := accFmt src
  let bs := match r.b with
    | some b => readElems s key (VRegs.reg b) (es.map (dotIndex (VRegs.reg b) a.count l))
    | none => .ok (es.map (fun _ => 0))
  ((readElems s key a es).both bs).bind (fun v =>
    let fold := (es.zip (v.1.zip v.2)).foldl (fun acc p =>
      let y := rowElem x.instr f src l acc.1 p.1 (c.em (vum x.instr) x.maskLevel p.1) p.2.1 p.2.2
      (y.1, acc.2 ++ y.2)) (RowState.ofWords x.aux, [])
    putGroup s key { x with aux := fold.1.toWords } (VRegs.reg r.d) fold.2)

/-- The format of A in a row form other than vrsc. -/
def rowFmt : Instr → Option Nat
  | .vrst _ f _ _ _ _ _ => some f.toNat
  | .vred _ f _ _ _ _ _ => some f.toNat
  | .vdot _ f _ _ _ _ _ => some f.toNat
  | .vscan _ f _ _ _ _ _ => some f.toNat
  | _ => none

/-- The row forms (11 R241). -/
def isRowForm : Instr → Bool
  | .vrsc .. => true
  | i => (rowFmt i).isSome

/-- Destination indices that a group of a row form may write, for its tags. -/
def rowDests (i : Instr) (l : Nat) (es : List Nat) : List Nat :=
  es.flatMap (fun e => match i with
    | .vscan .. => [e]
    | .vrst .. => if e % l + 1 = l then [2 * (e / l), 2 * (e / l) + 1] else []
    | .vrsc .. => if e % l + 1 = l then (List.range l).map (e / l * l + ·) else []
    | _ => if e % l + 1 = l then [e / l] else [])

/-- The unit of a vector command. -/
def vectorUnit (s : State) (key : Nat) (c : Cell) (x : Cmd) (r : VRegs) (q : Nat) : Eng Worked :=
  match x.instr with
  | .vcvt _ rm df _ sat _ _ sf _ _ =>
    if sf = 9 then fromMxUnit s key x r rm.toNat df.toNat sat q
    else if df = 9 then toMxUnit s key x r rm.toNat sf.toNat q
    else elementUnit s key c x r q
  | .vrsc .. => scaleUnit s key c x r q
  | i => match rowFmt i with
    | some f => rowUnit s key c x r f q
    | none => elementUnit s key c x r q

/-- Execution of a VFP, VIC or VRD command. -/
def vectorExec (s : State) (key : Nat) (c : Cell) (x : Cmd) : Form :=
  let r := vregs x.instr x.vals
  let d := VRegs.reg r.d
  let a := VRegs.reg r.a
  let n := if (rowFmt x.instr).isSome then a.count else d.count
  let l := rowLen (vaux x.instr x.vals) a.count
  { Form.base s x x.ranges (ceilDiv n 64) (vectorUnit s key c x r) with
    spans := fun q => if x.instr.flags.tag then
        let es := groupOf n q
        let ds := if isRowForm x.instr then rowDests x.instr l es else es
        groupSpans key a es false ++ groupSpans key d ds true
      else []
    early := [failIf (maskPoisoned c (vum x.instr) x.maskLevel) 2] }

/-! ## The mask stack (11 R254 to R257) -/

def maskAll : BitVec 65536 := BitVec.allOnes 65536

/-- below(e), as bits: the level under slot k. -/
def Cell.below (c : Cell) (k : Nat) : BitVec 65536 := if k = 0 then maskAll else (c.mask (k - 1)).bits

def Cell.writeMask (c : Cell) (k : Nat) (b : BitVec 65536) (psn : Bool) : Cell := c.setMask k { bits := b, any := b != 0, psn }

/-- mpush (11 R255). -/
def execMpush (e : EngineFlags) (sA : BitVec 5) (s : State) : Host.Outcome State Fault Refusal :=
  let i := Instr.mpush e sA
  onEngine i [.vector] s (fun key c vs =>
    let code := leastCode (regionCodes c.ctype.sliceSize (val vs 0) 2 ++ (if c.mdi = 8 then [7] else []))
    if code ≠ 0 then s.vectorTrap key code
    else s.enqueue key c i vs 0 (Issue.plain [(regionOf (val vs 0) 2).range key false false]) (fun c => { c with mdi := c.mdi + 1 }))

/-- The bits of a predicate read in order. -/
def predBits (bs : List Nat) : BitVec 65536 :=
  BitVec.ofNat 65536 (bs.foldr (fun b acc => (if b = 0 then 0 else 1) + 2 * acc) 0)

def pushForm (s : State) (key : Nat) (c : Cell) (x : Cmd) : Form :=
  let k := x.maskLevel
  let r := regionOf (val x.vals 0) 2
  { Form.base s x x.ranges 1 (fun _ => (readElems s key r (List.range r.count)).map (fun bs =>
      { s := s.setCell key (c.writeMask k (c.below k &&& predBits bs) false), x })) with
    early := [failIf (k != 0 && (c.mask (k - 1)).psn) 2] }

/-- minv and mpop issue: they fault on an empty stack. -/
def maskForm (i : Instr) (post : Cell → Cell) (s : State) : Host.Outcome State Fault Refusal :=
  onEngine i [.vector] s (fun key c vs =>
    if c.mdi = 0 then s.vectorTrap key 0x08 else s.enqueue key c i vs 0 (Issue.plain []) post)

/-- minv (11 R255). -/
def execMinv (e : EngineFlags) (s : State) : Host.Outcome State Fault Refusal := maskForm (.minv e) id s

/-- The short minv (03 Table 3-4). -/
def execMinvShort (s : State) : Host.Outcome State Fault Refusal := maskForm .minvShort id s

/-- mpop (11 R255). -/
def execMpop (e : EngineFlags) (s : State) : Host.Outcome State Fault Refusal :=
  maskForm (.mpop e) (fun c => { c with mdi := c.mdi - 1 }) s

/-- The short mpop (03 Table 3-4). -/
def execMpopShort (s : State) : Host.Outcome State Fault Refusal :=
  maskForm .mpopShort (fun c => { c with mdi := c.mdi - 1 }) s

def invForm (s : State) (key : Nat) (c : Cell) (x : Cmd) : Form :=
  let k := x.maskLevel - 1
  { Form.base s x [] 1 (fun _ =>
      .ok { s := s.setCell key (c.writeMask k (~~~(c.mask k).bits &&& c.below k) false), x }) with
    early := [failIf (c.mask k).psn 2] }

def popForm (s : State) (key : Nat) (c : Cell) (x : Cmd) : Form :=
  let k := x.maskLevel - 1
  Form.base s x [] 1 (fun _ => .ok { s := s.setCell key (c.setMask k { c.mask k with psn := false }), x })

/-- bmz waits for the MSK commands before it, then branches when the top level is empty or poisoned, which takes one cycle more
(11 R257). -/
def execBmz (off : BitVec 17) (s : State) : Host.Outcome State Fault Refusal :=
  let i := Instr.bmz off
  onEngine i [.vector] s (fun key c _ =>
    if c.mskBusy then s
    else
      let m := c.mask (c.mdi - 1)
      if c.mdi ≠ 0 && (!m.any || m.psn) then
        s.setCell key { c with a := { c.a with pos := c.a.pos.transfer (c.a.pos.pc + 2 * off.signExtend 64), busy := 1 } }
      else s.setCell key { c with a := c.a.retire 8 })

/-! ## The forms -/

/-- vadd (11 R249). -/
def execVadd (e : EngineFlags) (rm : BitVec 3) (fmt : BitVec 2) (um : Bool) (sD sA sB sE : BitVec 5) (s : State) :
    Host.Outcome State Fault Refusal := vectorForm (.vadd e rm fmt um sD sA sB sE) s

/-- vsub (11 R249). -/
def execVsub (e : EngineFlags) (rm : BitVec 3) (fmt : BitVec 2) (um : Bool) (sD sA sB sE : BitVec 5) (s : State) :
    Host.Outcome State Fault Refusal := vectorForm (.vsub e rm fmt um sD sA sB sE) s

/-- vmul (11 R249). -/
def execVmul (e : EngineFlags) (rm : BitVec 3) (fmt : BitVec 2) (um : Bool) (sD sA sB sE : BitVec 5) (s : State) :
    Host.Outcome State Fault Refusal := vectorForm (.vmul e rm fmt um sD sA sB sE) s

/-- vfma (11 R249). -/
def execVfma (e : EngineFlags) (rm : BitVec 3) (fmt : BitVec 2) (um : Bool) (sD sA sB sC sE : BitVec 5) (s : State) :
    Host.Outcome State Fault Refusal := vectorForm (.vfma e rm fmt um sD sA sB sC sE) s

/-- vmin (11 R249). -/
def execVmin (e : EngineFlags) (fmt : BitVec 2) (um : Bool) (sD sA sB : BitVec 5) (s : State) :
    Host.Outcome State Fault Refusal := vectorForm (.vmin e fmt um sD sA sB) s

/-- vmax (11 R249). -/
def execVmax (e : EngineFlags) (fmt : BitVec 2) (um : Bool) (sD sA sB : BitVec 5) (s : State) :
    Host.Outcome State Fault Refusal := vectorForm (.vmax e fmt um sD sA sB) s

/-- vdiv (11 R249). -/
def execVdiv (e : EngineFlags) (rm : BitVec 3) (fmt : BitVec 2) (um : Bool) (sD sA sB sE : BitVec 5) (s : State) :
    Host.Outcome State Fault Refusal := vectorForm (.vdiv e rm fmt um sD sA sB sE) s

/-- vsqrt (11 R249). -/
def execVsqrt (e : EngineFlags) (rm : BitVec 3) (fmt : BitVec 2) (um : Bool) (sD sA sE : BitVec 5) (s : State) :
    Host.Outcome State Fault Refusal := vectorForm (.vsqrt e rm fmt um sD sA sE) s

/-- vsgn (11 R249). -/
def execVsgn (e : EngineFlags) (fmt op : BitVec 2) (um : Bool) (sD sA sB : BitVec 5) (s : State) :
    Host.Outcome State Fault Refusal := vectorForm (.vsgn e fmt op um sD sA sB) s

/-- vcmp (11 R249). -/
def execVcmp (e : EngineFlags) (cond : BitVec 3) (fmt : BitVec 2) (um : Bool) (sD sA sB : BitVec 5) (s : State) :
    Host.Outcome State Fault Refusal := vectorForm (.vcmp e cond fmt um sD sA sB) s

/-- vrsc (11 R252). -/
def execVrsc (e : EngineFlags) (rm : BitVec 3) (fmt : BitVec 2) (um : Bool) (sD sA sB sC sE : BitVec 5) (s : State) :
    Host.Outcome State Fault Refusal := vectorForm (.vrsc e rm fmt um sD sA sB sC sE) s

/-- vrst (11 R252). -/
def execVrst (e : EngineFlags) (fmt op : BitVec 2) (um : Bool) (sD sA sE : BitVec 5) (s : State) :
    Host.Outcome State Fault Refusal := vectorForm (.vrst e fmt op um sD sA sE) s

/-- viadd (11 R250). -/
def execViadd (e : EngineFlags) (iw sat : BitVec 2) (um : Bool) (sD sA sB : BitVec 5) (s : State) :
    Host.Outcome State Fault Refusal := vectorForm (.viadd e iw sat um sD sA sB) s

/-- visub (11 R250). -/
def execVisub (e : EngineFlags) (iw sat : BitVec 2) (um : Bool) (sD sA sB : BitVec 5) (s : State) :
    Host.Outcome State Fault Refusal := vectorForm (.visub e iw sat um sD sA sB) s

/-- vimul (11 R250). -/
def execVimul (e : EngineFlags) (iop : BitVec 3) (iw sat : BitVec 2) (um : Bool) (sD sA sB : BitVec 5) (s : State) :
    Host.Outcome State Fault Refusal := vectorForm (.vimul e iop iw sat um sD sA sB) s

/-- vilog (11 R250). -/
def execVilog (e : EngineFlags) (iop : BitVec 3) (iw : BitVec 2) (um : Bool) (sD sA sB : BitVec 5) (s : State) :
    Host.Outcome State Fault Refusal := vectorForm (.vilog e iop iw um sD sA sB) s

/-- vishf (11 R250). -/
def execVishf (e : EngineFlags) (iop : BitVec 3) (iw : BitVec 2) (um : Bool) (sD sA sB : BitVec 5) (s : State) :
    Host.Outcome State Fault Refusal := vectorForm (.vishf e iop iw um sD sA sB) s

/-- vicmp (11 R250). -/
def execVicmp (e : EngineFlags) (iop : BitVec 3) (iw : BitVec 2) (um : Bool) (sD sA sB : BitVec 5) (s : State) :
    Host.Outcome State Fault Refusal := vectorForm (.vicmp e iop iw um sD sA sB) s

/-- vsel (11 R250). -/
def execVsel (e : EngineFlags) (iw : BitVec 2) (um : Bool) (sD sA sB sC : BitVec 5) (s : State) :
    Host.Outcome State Fault Refusal := vectorForm (.vsel e iw um sD sA sB sC) s

/-- vcvt (11 R251). -/
def execVcvt (e : EngineFlags) (rm : BitVec 3) (df : BitVec 4) (um sat : Bool) (sD sA sf sC sE : BitVec 5) (s : State) :
    Host.Outcome State Fault Refusal := vectorForm (.vcvt e rm df um sat sD sA sf sC sE) s

/-- vred (11 R253). -/
def execVred (e : EngineFlags) (fmt op : BitVec 2) (um : Bool) (sD sA sE : BitVec 5) (s : State) :
    Host.Outcome State Fault Refusal := vectorForm (.vred e fmt op um sD sA sE) s

/-- vdot (11 R253). -/
def execVdot (e : EngineFlags) (fmt : BitVec 2) (um : Bool) (sD sA sB sE : BitVec 5) (s : State) :
    Host.Outcome State Fault Refusal := vectorForm (.vdot e fmt um sD sA sB sE) s

/-- vscan (11 R252). -/
def execVscan (e : EngineFlags) (fmt op : BitVec 2) (um : Bool) (sD sA sE : BitVec 5) (s : State) :
    Host.Outcome State Fault Refusal := vectorForm (.vscan e fmt op um sD sA sE) s

/-- vbcast (11 R250). -/
def execVbcast (e : EngineFlags) (iw : BitVec 2) (um : Bool) (sD sA : BitVec 5) (s : State) :
    Host.Outcome State Fault Refusal := vectorForm (.vbcast e iw um sD sA) s

end Sys2Proof.Machine
end

