-- ==== Sys2Proof/Machine/Table.lean ====
section
/-! DEFINITION. The commands of the table engine (12 R271 to R274). -/

namespace Sys2Proof.Machine

/-- A field of TBL names a region; FMT codes 0 to 2 are those of 11 Table 11-2 (12 Table 12-4). -/
def tblRegs (i : Instr) (vs : List Word) : List (Word × Nat) :=
  match i with
  | .tfn _ _ f _ _ _ _ => [(val vs 0, vfmtEb2 f.toNat), (val vs 1, vfmtEb2 f.toNat)]
  | .tfnx _ _ f _ _ _ _ _ _ => (List.range 4).map (fun k => (val vs k, vfmtEb2 f.toNat))
  | _ => [(val vs 0, 16)]

/-- Counts: sources have n or 1; tver and tvchk have 1 (12 R271, R272). -/
def tblCounts (i : Instr) (vs : List Word) : Bool :=
  let n (k : Nat) : Nat := (regionOf (val vs k) 8).count
  let one (k : Nat) : Bool := n k == n 0 || n k == 1
  match i with
  | .tfn .. => one 1
  | .tfnx .. => one 1 && one 2 && one 3
  | _ => n 0 == 1

def tblRanges (key : Nat) (i : Instr) (vs : List Word) : List Rng :=
  let reg (k : Nat) : Region := VRegs.reg ((tblRegs i vs).getD k (0, 8))
  let tag := i.flags.tag
  match i with
  | .tfn .. => [(reg 0).range key true tag, (reg 1).range key false tag]
  | .tfnx .. => [(reg 0).range key true tag, (reg 1).range key false tag, spanRange key (reg 2) (reg 3)]
  | .tver .. => [(reg 0).range key true false]
  | _ => [(reg 0).range key false false]

/-- A TBL form issues once its descriptors and counts pass. -/
def tableForm (i : Instr) (s : State) : Host.Outcome State Fault Refusal :=
  onEngine i [.vector] s (fun key c vs =>
    match regionsCode c.ctype.sliceSize (tblRegs i vs) (tblCounts i vs) with
    | 0 => s.enqueue key c i vs 0 (Issue.plain (tblRanges key i vs))
    | n => s.vectorTrap key n)

/-- tfn (12 R272). -/
def execTfn (e : EngineFlags) (fn : BitVec 4) (fmt : BitVec 2) (sr : Bool) (sD sA sE : BitVec 5) (s : State) :
    Host.Outcome State Fault Refusal := tableForm (.tfn e fn fmt sr sD sA sE) s

/-- tfnx (12 R272). -/
def execTfnx (e : EngineFlags) (fn : BitVec 4) (fmt : BitVec 2) (sr : Bool) (sD sA sB sC sE : BitVec 5) (s : State) :
    Host.Outcome State Fault Refusal := tableForm (.tfnx e fn fmt sr sD sA sB sC sE) s

/-- tver (12 R272). -/
def execTver (e : EngineFlags) (sD : BitVec 5) (s : State) : Host.Outcome State Fault Refusal := tableForm (.tver e sD) s

/-- tvchk (12 R272). -/
def execTvchk (e : EngineFlags) (sA : BitVec 5) (s : State) : Host.Outcome State Fault Refusal := tableForm (.tvchk e sA) s

/-- The mode of element e: nearest-even, or stochastic by SITE and PBLK (12 R271). -/
def tblMode (s : State) (key : Nat) (sr : Bool) (aux : Word) (e : Nat) : Mode := elemMode (if sr then 4 else 0) (s.seedOf key) aux e

/-- tfn and tfnx on one group: `pre` forms the operand (12 R272). -/
def tblUnit (s : State) (key : Nat) (x : Cmd) (fn fmt : Nat) (sr : Bool) (aux : Word) (srcs : List Region) (d : Region)
    (pre : List FV → FV) (q : Nat) : Eng Worked :=
  let es := groupOf d.count q
  (Eng.all (srcs.map (fun r => readElems s key r es))).bind (fun cols =>
    let out := (List.range es.length).map (fun k =>
      let e := 64 * q + k
      let v := pre (cols.map (fun col => FV.ofBits (vfmt fmt) (col.getD k 0)))
      (e, plainOut (roundTo (vfmt fmt) (tblMode s key sr aux e) false (tableValue s.tblver fn v)).bits))
    putGroup s key x d out)

/-- A VERc of the expected value disagrees with TBLVER (12 R272). -/
def versionMismatch (tblver x : Word) : Bool :=
  bits x.toNat 63 48 != 0 || (List.range 12).any (fun k => tableVersion x (k + 1) != 0 && tableVersion x (k + 1) != tableVersion tblver (k + 1))

/-- Execution of a TBL command. -/
def tableExec (s : State) (key : Nat) (x : Cmd) : Form :=
  let regs := (tblRegs x.instr x.vals).map VRegs.reg
  let reg (k : Nat) : Region := regs.getD k (regionOf 0 8)
  let d := reg 0
  let tagged (q : Nat) : List TagSpan :=
    if x.instr.flags.tag then groupSpans key (reg 1) (groupOf d.count q) false ++ groupSpans key d (groupOf d.count q) true else []
  let unit : Nat → Eng Worked :=
    match x.instr with
    | .tfn _ fn f sr _ _ _ =>
      tblUnit s key x fn.toNat f.toNat sr (val x.vals 2) [reg 1] d (fun v => v.headD .nan)
    | .tfnx _ fn f sr _ _ _ _ _ =>
      tblUnit s key x fn.toNat f.toNat sr (val x.vals 4) [reg 1, reg 2, reg 3] d (fun v =>
        ofFP32 (roundFP32 .rne ((v.getD 0 .nan).fma .rne (v.getD 1 .nan) (v.getD 2 .nan))))
    | .tver .. => fun _ => (writeGroup s key x.id 0 [(d.addr 0, leBytes 8 s.tblver.toNat)]).map (fun s => { s, x })
    | _ => fun _ => (readElem s key d 0).bind (fun v =>
        if versionMismatch s.tblver (BitVec.ofNat 64 v) then .fail 0x18 else .ok { s, x })
  { Form.base s x x.ranges (ceilDiv d.count 64) unit with spans := tagged }

end Sys2Proof.Machine
end

