-- ==== Sys2Proof/Machine/Copy.lean ====
section
/-! DEFINITION. Bulk copies: values, granules, the CRC and the completion record (13). -/

namespace Sys2Proof.Machine

/-! ## Values (13 R279) -/

/-- A copy as its values give it. A side has an address and a row stride. -/
structure CopyJob where
  src : Option (Nat × Nat)
  dst : Option (Nat × Nat)
  nrow : Nat
  rowB : Nat
  pattern : Word
  /-- FIRST, NCELL and STEP. -/
  multi : Option Word
  /-- Record address. -/
  rec_ : Option Word
  crc : Bool
  stamp : Word
  /-- Reserved bits of the length or shape, and a destination stride below the row. -/
  badShape : Bool
  deriving DecidableEq, Repr

def recordOf (sR : BitVec 5) (v : Word) : Option Word := if sR = 0 then none else some v

def lenBad (v : Word) : Bool := bits v.toNat 63 40 != 0
def lenOf (v : Word) : Nat := bits v.toNat 39 0

def rows2 (v : Word) : Nat := bits v.toNat 47 24
def rowB2 (v : Word) : Nat := bits v.toNat 23 0

def shape2Bad (v st : Word) : Bool :=
  bits v.toNat 63 48 != 0 || decide (2 ^ 40 - 1 < rows2 v * rowB2 v) || (decide (1 < rows2 v) && decide (strideB st < rowB2 v))

def copyJob (i : Instr) (vs : List Word) : CopyJob :=
  let a (k : Nat) : Nat := (val vs k).toNat
  match i with
  | .cpy _ crc _ _ _ _ _ sR =>
    { src := some (a 1, 0), dst := some (a 0, 0), nrow := 1, rowB := lenOf (val vs 2), pattern := 0, multi := none,
      rec_ := recordOf sR (val vs 4), crc, stamp := val vs 3, badShape := lenBad (val vs 2) }
  | .cpy2 _ crc _ _ _ _ _ _ sR =>
    { src := some (a 1, strideA (val vs 3)), dst := some (a 0, strideB (val vs 3)), nrow := rows2 (val vs 2), rowB := rowB2 (val vs 2),
      pattern := 0, multi := none, rec_ := recordOf sR (val vs 5), crc, stamp := val vs 4, badShape := shape2Bad (val vs 2) (val vs 3) }
  | .cfill _ crc _ _ _ _ _ sR =>
    { src := none, dst := some (a 0, 0), nrow := 1, rowB := lenOf (val vs 1), pattern := val vs 2, multi := none,
      rec_ := recordOf sR (val vs 4), crc, stamp := val vs 3, badShape := lenBad (val vs 1) }
  | .cpym _ crc _ _ _ _ _ _ sR =>
    { src := some (a 1, 0), dst := some (a 0, 0), nrow := 1, rowB := lenOf (val vs 2), pattern := 0, multi := some (val vs 4),
      rec_ := recordOf sR (val vs 5), crc, stamp := val vs 3, badShape := lenBad (val vs 2) }
  | .cpym2 _ crc _ _ _ _ _ _ _ sR =>
    { src := some (a 1, strideA (val vs 3)), dst := some (a 0, strideB (val vs 3)), nrow := rows2 (val vs 2), rowB := rowB2 (val vs 2),
      pattern := 0, multi := some (val vs 5), rec_ := recordOf sR (val vs 6), crc, stamp := val vs 4,
      badShape := shape2Bad (val vs 2) (val vs 3) }
  | .ccrc _ crc _ _ _ _ sR =>
    { src := some (a 0, 0), dst := none, nrow := 1, rowB := lenOf (val vs 1), pattern := 0, multi := none,
      rec_ := recordOf sR (val vs 3), crc, stamp := val vs 2, badShape := lenBad (val vs 1) }
  | _ =>
    { src := none, dst := none, nrow := 0, rowB := 0, pattern := 0, multi := none, rec_ := none, crc := false, stamp := 0,
      badShape := false }

def CopyJob.nb (j : CopyJob) : Nat := j.nrow * j.rowB

/-- The targets of a multicast. -/
def multiTargets (v : Word) : List Nat :=
  (List.range (bits v.toNat 24 16)).map (fun k => bits v.toNat 8 0 + k * bits v.toNat 40 32)

/-- The comb-path address of an offset in gang cell c; for an index that no comb address can name (06 R143), one of the comb
die 14, which is unassigned (06 R122). -/
def targetAddr (c off : Nat) : Nat := (if 448 ≤ c then combOfCell 448 0 else combOfCell c 0) + off

/-- Address and stride of each destination: the one of S[sD], or one for each target (13 R279). -/
def CopyJob.dests (j : CopyJob) : List (Nat × Nat) :=
  match j.dst, j.multi with
  | none, _ => []
  | some d, none => [d]
  | some d, some v => (multiTargets v).map (fun c => (targetAddr c (d.1 % 2 ^ 30), d.2))

/-- The length of the span of a side. -/
def CopyJob.spanLen (j : CopyJob) (stride : Nat) : Nat := if j.nb = 0 then 0 else (j.nrow - 1) * stride + j.rowB

def multiBad (j : CopyJob) (v : Word) : Bool :=
  match j.dst with
  | none => false
  | some d =>
    let n := bits v.toNat 24 16
    let step := bits v.toNat 40 32
    bits d.1 63 60 != 3 || (decide (0 < j.nb) && decide (2 ^ 30 < d.1 % 2 ^ 30 + j.spanLen d.2)) || n == 0 || decide (448 < n) ||
      step == 0 || decide (447 < step) || bits v.toNat 15 9 != 0 || bits v.toNat 31 25 != 0 || bits v.toNat 63 41 != 0

/-- A value breaks R279. -/
def CopyJob.bad (j : CopyJob) : Bool :=
  j.badShape ||
  (match j.multi with
   | some v => multiBad j v
   | none => false) ||
  (match j.rec_ with
   | some r => r.toNat % 16 != 0 || (let p := bits r.toNat 63 60; p == 2 || decide (5 < p))
   | none => false)

/-! ## Ranges (13 R282, R283) -/

def CopyJob.srcRange (j : CopyJob) (key : Nat) (tag : Bool) : List Rng :=
  match j.src with
  | some q => if j.nb = 0 then [] else [mkRange key (BitVec.ofNat 64 q.1) (j.spanLen q.2) false tag]
  | none => []

def CopyJob.recRange (j : CopyJob) (key : Nat) : List Rng :=
  match j.rec_ with
  | some r => [mkRange key r 16 true false]
  | none => []

/-- Each destination's own span. -/
def CopyJob.destRanges (j : CopyJob) (key : Nat) (tag : Bool) : List Rng :=
  if j.nb = 0 then [] else j.dests.map (fun q => mkRange key (BitVec.ofNat 64 q.1) (j.spanLen q.2) true tag)

/-- The destination range: for a multicast the one span from the first target to the last. -/
def CopyJob.destRange (j : CopyJob) (key : Nat) (tag : Bool) : List Rng :=
  match j.multi, j.destRanges key tag with
  | none, rs => rs
  | some _, [] => []
  | some _, r :: rest =>
    let last := rest.getLastD r
    [{ r with len := last.name + last.len - r.name }]

def CopyJob.ranges (j : CopyJob) (key : Nat) (tag : Bool) : List Rng := j.srcRange key tag ++ j.destRange key tag ++ j.recRange key

/-- The rows of a side, as comparable names. -/
def CopyJob.rowNames (j : CopyJob) (key : Nat) (q : Nat × Nat) : List Rng :=
  if j.nb = 0 then [] else (List.range j.nrow).map (fun r => mkRange key (BitVec.ofNat 64 (q.1 + r * q.2)) j.rowB true false)

/-- Two elements of a list meet. -/
def anyPairMeets : List Rng → Bool
  | [] => false
  | r :: rest => rest.any r.meets || anyPairMeets rest

/-- The ranges of the command share a byte, compared byte by byte (13 R283). -/
def CopyJob.overlaps (j : CopyJob) (key : Nat) : Bool :=
  let src := match j.src with
    | some q => j.rowNames key q
    | none => []
  let sets := j.dests.map (j.rowNames key)
  let dst := sets.flatten
  let rc := j.recRange key
  dst.any (fun d => src.any d.meets) || rc.any (fun r => src.any r.meets || dst.any r.meets) || sets.any anyPairMeets

/-! ## CRC-64 (13 R281) -/

def crcBits : Nat → Word → Word
  | 0, c => c
  | n + 1, c => crcBits n (if c.getLsbD 63 then (c <<< 1) ^^^ 0x42F0E1EBA9EA3693#64 else c <<< 1)

def crc64Step (c : Word) (v : Byte) : Word := crcBits 8 (c ^^^ (v.setWidth 64 <<< 56))

def crc64 (c : Word) (bs : List Byte) : Word := bs.foldl crc64Step c

/-! ## Granules (13 R280) -/

/-- The pieces of bytes `b` to `b + n - 1`, cut at rows: the row, the byte of it, and the length. -/
def rowPieces (rowB : Nat) : Nat → Nat → Nat → List (Nat × Nat × Nat)
  | 0, _, _ => []
  | _, _, 0 => []
  | fuel + 1, b, n =>
    let k := min n (rowB - b % rowB)
    if k = 0 then [] else (b / rowB, b % rowB, k) :: rowPieces rowB fuel (b + k) (n - k)

def CopyJob.granule (j : CopyJob) (g : Nat) : List (Nat × Nat × Nat) :=
  let n := min 256 (j.nb - 256 * g)
  rowPieces j.rowB n (256 * g) n

def pieceAddr (q : Nat × Nat) (p : Nat × Nat × Nat) : Nat := q.1 + p.1 * q.2 + p.2.1

/-- Bytes b on of a fill. -/
def fillBytes (pattern : Word) (b n : Nat) : List Byte :=
  (List.range n).map (fun i => BitVec.ofNat 8 (bits pattern.toNat (8 * ((b + i) % 8) + 7) (8 * ((b + i) % 8))))

/-- The record (13 Table 13-4). -/
def copyRecord (code bytes : Nat) (crc : Word) : List Byte := leBytes 8 (bytes + code * 2 ^ 56) ++ leBytes 8 crc.toNat

def copyUnit (s : State) (key : Nat) (x : Cmd) (j : CopyJob) (g : Nat) : Eng Worked :=
  let ps := j.granule g
  let data := match j.src with
    | some q => (Eng.all (ps.map (fun p => s.engRead key 1 (pieceAddr q p) p.2.2))).map List.flatten
    | none => .ok (fillBytes j.pattern (256 * g) (min 256 (j.nb - 256 * g)))
  let targets := j.dests.flatMap (fun q => ps.map (fun p => (pieceAddr q p, p)))
  let dests := Eng.all (targets.map (fun t => (s.engDest key 2 t.1 t.2.2.2).map (fun ls => (t, ls))))
  (data.both dests).map (fun v =>
    let s := v.2.foldl (fun s t =>
      let p := t.1.2
      let b := p.1 * j.rowB + p.2.1 - 256 * g
      s.engWrite key x.id t.1.1 t.2 ((v.1.drop b).take p.2.2)) s
    { s, x := if j.crc then { x with aux := [crc64 (val x.aux 0) v.1] } else x })

/-- The record is the command's last write; the command may fail at its releases (07 R166), and the record says so. -/
def recordUnit (s : State) (key : Nat) (x : Cmd) (j : CopyJob) : Eng Worked :=
  match j.rec_ with
  | none => .ok { s, x }
  | some r => (s.engDest key 3 r.toNat 16).map (fun ls =>
      { s := s.engWrite key x.id r.toNat ls (copyRecord ((s.releaseFails key x).getD 0) j.nb (val x.aux 0)),
        x := { x with failed := s.releaseFails key x } })

/-- A failed command's record; a fault of this write is no trap (13 R284). -/
def recordFailed (s : State) (key : Nat) (x : Cmd) (j : CopyJob) (code : Nat) : State :=
  match j.rec_ with
  | none => s
  | some r =>
    match s.engDest key 3 r.toNat 16 with
    | .ok ls => s.engWrite key x.id r.toNat ls (copyRecord code (min j.nb (256 * x.prog)) (val x.aux 0))
    | _ => s

/-- Execution of a copy. Tiles of a tagged range that lie wholly in a stride gap are neither waited on nor changed (log 105). -/
def copyExec (s : State) (key : Nat) (x : Cmd) : Form :=
  let j := copyJob x.instr x.vals
  let tag := x.instr.flags.tag
  let n := ceilDiv j.nb 256
  { Form.base s x x.ranges (n + j.rec_.isSome.toNat) (fun g => if g < n then copyUnit s key x j g else recordUnit s key x j) with
    access := j.srcRange key tag ++ j.destRanges key tag ++ j.recRange key
    spans := fun g => if tag && decide (g < n) then
        (j.granule g).flatMap (fun p =>
          (match j.src with
           | some q => [tagSpan key (pieceAddr q p) p.2.2 false]
           | none => []) ++ j.dests.map (fun q => tagSpan key (pieceAddr q p) p.2.2 true))
      else []
    early := [failIf j.bad 0x1A, failIf (j.overlaps key) 0x19]
    failing := recordFailed s key x j }

/-- A CPY form issues; every check is made at its start (13 R276, R279). -/
def copyForm (i : Instr) (s : State) : Host.Outcome State Fault Refusal :=
  onEngine i [.matrix, .vector, .gather] s (fun key c vs =>
    let j := copyJob i vs
    s.enqueue key c i vs j.stamp (Issue.plain (j.ranges key i.flags.tag)))

/-- cpy (13 R280). -/
def execCpy (e : EngineFlags) (crc : Bool) (tm : BitVec 2) (sD sA sB sT sR : BitVec 5) (s : State) :
    Host.Outcome State Fault Refusal := copyForm (.cpy e crc tm sD sA sB sT sR) s

/-- cpy2 (13 R280). -/
def execCpy2 (e : EngineFlags) (crc : Bool) (tm : BitVec 2) (sD sA sB sC sT sR : BitVec 5) (s : State) :
    Host.Outcome State Fault Refusal := copyForm (.cpy2 e crc tm sD sA sB sC sT sR) s

/-- cfill (13 R280). -/
def execCfill (e : EngineFlags) (crc : Bool) (tm : BitVec 2) (sD sB sC sT sR : BitVec 5) (s : State) :
    Host.Outcome State Fault Refusal := copyForm (.cfill e crc tm sD sB sC sT sR) s

/-- cpym (13 R280). -/
def execCpym (e : EngineFlags) (crc : Bool) (tm : BitVec 2) (sD sA sB sT sM sR : BitVec 5) (s : State) :
    Host.Outcome State Fault Refusal := copyForm (.cpym e crc tm sD sA sB sT sM sR) s

/-- cpym2 (13 R280). -/
def execCpym2 (e : EngineFlags) (crc : Bool) (tm : BitVec 2) (sD sA sB sC sT sM sR : BitVec 5) (s : State) :
    Host.Outcome State Fault Refusal := copyForm (.cpym2 e crc tm sD sA sB sC sT sM sR) s

/-- ccrc (13 R280). -/
def execCcrc (e : EngineFlags) (crc : Bool) (tm : BitVec 2) (sA sB sT sR : BitVec 5) (s : State) :
    Host.Outcome State Fault Refusal := copyForm (.ccrc e crc tm sA sB sT sR) s

end Sys2Proof.Machine
end

