-- ==== Sys2Proof/Machine/Gather.lean ====
section
/-! DEFINITION. The commands of gather cells: gather, scatter, bags, rank, sort, scan, histogram and draws (14). -/

namespace Sys2Proof.Machine

/-! ## Elements of GTH and SRT formats (14 R292, R294) -/

def fmtIsInt (f : Nat) : Bool := decide (6 ≤ f)

/-- Bytes of an element of a format code. -/
def fmtEb (f : Nat) : Nat := vfmtEb2 f / 2

/-- Addition in a format: one rounding, or modulo 2^w. -/
def addIn (f : Nat) (a b : Nat) : Nat :=
  if fmtIsInt f then (a + b) % 2 ^ intWidth f
  else (roundTo (vfmt f) .rne false ((FV.ofBits (vfmt f) a).add .rne (FV.ofBits (vfmt f) b))).bits

/-- The greater or lesser: as vmax and vmin on floating point, signed on integers. -/
def extremeIn (f : Nat) (big : Bool) (a b : Nat) : Nat :=
  if fmtIsInt f then
    (if (signedOf (intWidth f) a < signedOf (intWidth f) b) = big then b else a)
  else
    let x := FV.ofBits (vfmt f) a
    let y := FV.ofBits (vfmt f) b
    (roundTo (vfmt f) .rne false (if big then x.max y else x.min y)).bits

/-- Comb of sct (14 R292): OP 0 st, 1 add, 2 max, 3 min. -/
def combOp (f op old v : Nat) : Nat :=
  match op with
  | 0 => v
  | 1 => addIn f old v
  | 2 => extremeIn f true old v
  | _ => extremeIn f false old v

/-- The format in which a bag accumulates: FP32 for BF16 (14 R292). -/
def bagFmt (f : Nat) : Nat := if f = 1 then 0 else f

/-- Id of a bag operation. -/
def bagId (f op : Nat) : Nat :=
  let g := bagFmt f
  if fmtIsInt g then
    (match op with
     | 1 => 0
     | 2 => 2 ^ (intWidth g - 1)
     | _ => 2 ^ (intWidth g - 1) - 1)
  else
    (match op with
     | 1 => 0
     | 2 => infBits (vfmt g) true false
     | _ => infBits (vfmt g) false false)

/-- Widen a row element to the bag's format. -/
def bagWiden (f v : Nat) : Nat := if f = 1 then (roundTo fp32 .rne false (FV.ofBits bf16 v)).bits else v

/-! ## GTH: values (14 Table 14-2) -/

structure GthVals where
  idx : Region
  base : Nat
  tb : Nat
  rowB : Nat
  nrows : Nat
  tstr : Nat
  offs : Option Region
  /-- Values break Table 14-2. -/
  bad : Bool
  deriving DecidableEq, Repr

/-- FMT and OP of a GTH form. -/
def gthFmt : Instr → Nat
  | .sct _ _ f _ _ _ _ _ => f.toNat
  | .gred _ _ f _ _ _ _ _ _ => f.toNat
  | _ => 0

def gthOp : Instr → Nat
  | .sct _ op _ _ _ _ _ _ => op.toNat
  | .gred _ op _ _ _ _ _ _ _ => op.toNat
  | _ => 0

def isGred : Instr → Bool
  | .gred .. => true
  | _ => false

def isSct : Instr → Bool
  | .sct .. => true
  | _ => false

/-- Local row size LB. -/
def localB (i : Instr) (rowB : Nat) : Nat := if isGred i && gthFmt i == 1 then 2 * rowB else rowB

def gthVals (i : Instr) (vs : List Word) : GthVals :=
  let idx := regionOf (val vs 1) 8
  let offs := if isGred i then some (regionOf (val vs 5) 8) else none
  let rowB := bits (val vs 3).toNat 16 0
  let nrows := bits (val vs 4).toNat 31 0
  let base := bits (val vs 0).toNat 23 0
  let locals := match offs with
    | some o => o.count - 1
    | none => idx.count
  { idx, base, tb := (val vs 2).toNat, rowB, nrows, tstr := bits (val vs 4).toNat 63 32, offs,
    bad := bits (val vs 0).toNat 63 24 != 0 || rowB == 0 || decide (65536 < rowB) || rowB % fmtEb (gthFmt i) != 0 ||
      bits (val vs 3).toNat 63 17 != 0 || nrows == 0 || decide (2 ^ 31 < nrows) ||
      decide (0x400000 < base + locals * localB i rowB) }

/-- Local rows: as many as indices, or bags. -/
def GthVals.locals (g : GthVals) : Nat :=
  match g.offs with
  | some o => o.count - 1
  | none => g.idx.count

def GthVals.localAddr (g : GthVals) (lb e : Nat) : Nat := ownAddr (g.base + e * lb)

def GthVals.rowAddr (g : GthVals) (i : Nat) : Nat := g.tb + i * g.tstr

def GthVals.tableRange (g : GthVals) (key : Nat) (write : Bool) : Rng :=
  mkRange key (BitVec.ofNat 64 g.tb) ((g.nrows - 1) * g.tstr + g.rowB) write false

def GthVals.localRange (g : GthVals) (key lb : Nat) (write tag : Bool) : Rng :=
  mkRange key (BitVec.ofNat 64 (ownAddr g.base)) (g.locals * lb) write tag

/-- Ranges (14 Table 14-3); under TAG the bag offsets stand apart from the tagged index region. -/
def gthRanges (key : Nat) (i : Instr) (g : GthVals) : List Rng :=
  let tag := i.flags.tag
  let lb := localB i g.rowB
  let idx := g.idx.range key false tag
  let reads := match g.offs with
    | some o => if tag then [idx, o.range key false false] else [spanRange key g.idx o]
    | none => [idx]
  if isSct i then [g.tableRange key true] ++ reads ++ [g.localRange key lb false tag]
  else [g.localRange key lb true tag] ++ reads ++ [g.tableRange key false]

/-- A GTH form issues once its descriptors and counts pass (14 R291). -/
def gatherForm (i : Instr) (s : State) : Host.Outcome State Fault Refusal :=
  onEngine i [.gather] s (fun key c vs =>
    let g := gthVals i vs
    let regs := (val vs 1, 8) :: (if isGred i then [(val vs 5, 8)] else [])
    let ok := match g.offs with
      | some o => decide (2 ≤ o.count)
      | none => true
    match regionsCode c.ctype.sliceSize regs ok with
    | 0 => s.enqueue key c i vs 0 (Issue.plain (gthRanges key i g))
    | n => s.vectorTrap key n)

/-- gth (14 R292). -/
def execGth (e : EngineFlags) (sD sA sB sC sE : BitVec 5) (s : State) : Host.Outcome State Fault Refusal :=
  gatherForm (.gth e sD sA sB sC sE) s

/-- sct (14 R292). -/
def execSct (e : EngineFlags) (op : BitVec 3) (fmt : BitVec 4) (sD sA sB sC sE : BitVec 5) (s : State) :
    Host.Outcome State Fault Refusal := gatherForm (.sct e op fmt sD sA sB sC sE) s

/-- gred (14 R292). -/
def execGred (e : EngineFlags) (op : BitVec 3) (fmt : BitVec 4) (sD sA sB sC sE sO : BitVec 5) (s : State) :
    Host.Outcome State Fault Refusal := gatherForm (.gred e op fmt sD sA sB sC sE sO) s

/-! ## GTH: execution -/

/-- Signed elements of an INT32 region. -/
def readInts (s : State) (key : Nat) (r : Region) (es : List Nat) : Eng (List Int) :=
  (readElems s key r es).map (·.map (signedOf 32))

/-- A check on elements read at the start: poison fails the command with 0x01. -/
def readCheck (v : Eng (List Int)) (code : Nat) (bad : List Int → Bool) : Option Nat :=
  match v with
  | .ok l => failIf (bad l) code
  | .fail c => some c
  | .fault .. => none

def notSorted : List Int → Bool
  | a :: b :: rest => decide (b < a) || notSorted (b :: rest)
  | _ => false

/-- The elements of a row of bytes. -/
def rowElems (f : Nat) (bs : List Byte) : List Nat :=
  (List.range (bs.length / fmtEb f)).map (fun j => leValue ((bs.drop (j * fmtEb f)).take (fmtEb f)))

def elemBytes (f : Nat) (vs : List Nat) : List Byte := vs.flatMap (leBytes (fmtEb f))

def gthUnit (s : State) (key : Nat) (x : Cmd) (g : GthVals) (e : Nat) : Eng Worked :=
  (readInts s key g.idx [e]).bind (fun l =>
    let i := l.headD 0
    let row := if i < 0 then .ok (List.replicate g.rowB (0 : Byte)) else s.engRead key 1 (g.rowAddr i.toNat) g.rowB
    row.bind (fun bs => (writeGroup s key x.id 0 [(g.localAddr g.rowB e, bs)]).map (fun s => { s, x })))

/-- One row of a scatter: each element is one atomic (14 R292, 08 R187). -/
def sctUnit (s : State) (key : Nat) (x : Cmd) (g : GthVals) (f op e : Nat) : Eng Worked :=
  (readInts s key g.idx [e]).bind (fun l =>
    let i := l.headD 0
    if i < 0 then .ok { s, x }
    else
      let a := g.rowAddr i.toNat
      ((s.engRead key 0 (g.localAddr g.rowB e) g.rowB).both (s.engSpan key 1 a g.rowB .atomic)).bind (fun v =>
        let hit (q : Nat → Nat → Bool) : Bool := v.2.any (fun p => match p.1 with
          | some l => q l p.2
          | none => false)
        if hit s.hitsObject then .fail 5
        else if s.placesPoisoned v.2 then .fail 1
        else
          let new := List.zipWith (combOp f op) (rowElems f (s.readPlaces v.2)) (rowElems f v.1)
          .ok { s := s.engWrite key x.id a v.2 (elemBytes f new), x }))

/-- One bag (14 R292). -/
def gredUnit (s : State) (key : Nat) (x : Cmd) (g : GthVals) (f op b : Nat) : Eng Worked :=
  match g.offs with
  | none => .ok { s, x }
  | some o =>
    (readInts s key o [b, b + 1]).bind (fun ob =>
      let lo := (ob.getD 0 0).toNat
      let hi := (ob.getD 1 0).toNat
      (readInts s key g.idx ((List.range (hi - lo)).map (lo + ·))).bind (fun is =>
        (Eng.all ((is.filter (fun i => decide (0 ≤ i))).map (fun i => s.engRead key 1 (g.rowAddr i.toNat) g.rowB))).bind (fun rows =>
          let n := g.rowB / fmtEb f
          let acc := rows.foldl (fun acc bs =>
            List.zipWith (fun a v => combOp (bagFmt f) op a (bagWiden f v)) acc (rowElems f bs)) (List.replicate n (bagId f op))
          (writeGroup s key x.id 0 [(g.localAddr (localB x.instr g.rowB) b, elemBytes (bagFmt f) acc)]).map (fun s => { s, x }))))

/-- A GTH command with tags: its first unit claims the index tiles and makes the checks that follow the reading of the
indices; row e is its unit e + 1 (14 R292, R297). -/
def gthTagged (i : Instr) : Bool := i.opcode.1 == 0x18 && i.flags.tag

/-- sct updates the table element by element, each in one atomic (14 R292). -/
def gthProbe (i : Instr) : Probe := if isSct i then .atomic else .write

/-- The index check of a tagged GTH command, with the checks and acquires that come after it. -/
def indexUnit (s : State) (key : Nat) (x : Cmd) (codes : List (Option Nat)) : Eng Worked :=
  let f := { Form.base s x x.ranges 0 (fun _ => .ok { s, x }) with written := gthProbe x.instr }
  match firstCode (codes ++ s.lateStatus key x f x.acqObjs) with
  | some n => .fail n
  | none => .ok { s := s.engineAcquired key x x.acqObjs, x }

/-- Execution of a GTH command. -/
def gatherExec (s : State) (key : Nat) (x : Cmd) : Form :=
  let g := gthVals x.instr x.vals
  let tag := gthTagged x.instr
  let f := gthFmt x.instr
  let op := gthOp x.instr
  let lb := localB x.instr g.rowB
  let allIdx := readInts s key g.idx (List.range g.idx.count)
  let offCheck := match g.offs with
    | some o => readCheck (readInts s key o (List.range o.count)) 0x1C (fun l =>
        notSorted l || decide (l.headD 0 < 0) || decide ((g.idx.count : Int) < l.getLastD 0))
    | none => none
  let idxCheck := readCheck allIdx 0x1B (fun l => l.any (fun i => decide ((g.nrows : Int) ≤ i)))
  let share := (g.tableRange key true).meets (g.localRange key lb true false)
  let row (e : Nat) : Eng Worked :=
    if isGred x.instr then gredUnit s key x g f op e
    else if isSct x.instr then sctUnit s key x g f op e
    else gthUnit s key x g e
  { Form.base s x x.ranges (g.locals + tag.toNat) (fun e =>
      if tag && e == 0 then indexUnit s key x [idxCheck, failIf share 0x19] else row (e - tag.toNat)) with
    deferred := tag
    written := gthProbe x.instr
    spans := fun u =>
      if tag && u == 0 then groupSpans key g.idx (List.range g.idx.count) false
      else if tag then
        let e := u - 1
        let idx := if isGred x.instr then
            (match g.offs with
             | some o => (match readInts s key o [e, e + 1] with
               | .ok ob => (List.range ((ob.getD 1 0).toNat - (ob.getD 0 0).toNat)).map ((ob.getD 0 0).toNat + ·)
               | _ => [])
             | none => [])
          else [e]
        groupSpans key g.idx idx false ++ [tagSpan key (g.localAddr lb e) lb (!isSct x.instr)]
      else []
    early := [failIf g.bad 0x1D, offCheck] ++ (if tag then [] else [idxCheck, failIf share 0x19]) }

/-! ## SRT: values -/

/-- Regions of an SRT form. -/
structure SrtRegs where
  d : Option (Word × Nat)
  a : Option (Word × Nat)
  b : Option (Word × Nat)
  c : Option (Word × Nat)
  deriving DecidableEq, Repr

def optReg (r : BitVec 5) (v : Word) (eb2 : Nat) : Option (Word × Nat) := if r = 0 then none else some (v, eb2)

def srtRegs (i : Instr) (vs : List Word) : SrtRegs :=
  match i with
  | .topk _ _ f _ _ sB sC _ =>
    { d := some (val vs 0, vfmtEb2 f.toNat), a := some (val vs 1, vfmtEb2 f.toNat), b := optReg sB (val vs 2) 8, c := optReg sC (val vs 3) 8 }
  | .psort _ _ f _ _ sB sC _ =>
    { d := some (val vs 0, vfmtEb2 f.toNat), a := some (val vs 1, vfmtEb2 f.toNat), b := optReg sB (val vs 2) 8, c := optReg sC (val vs 3) 8 }
  | .gscan _ _ f sD _ sB sC _ =>
    { d := optReg sD (val vs 0) (vfmtEb2 f.toNat), a := some (val vs 1, vfmtEb2 f.toNat), b := optReg sB (val vs 2) 8,
      c := optReg sC (val vs 3) (vfmtEb2 f.toNat) }
  | .ghist _ _ _ f _ _ => { d := some (val vs 0, 8), a := some (val vs 1, vfmtEb2 f.toNat), b := none, c := none }
  | _ => { d := some (val vs 0, 8), a := none, b := none, c := none }

def SrtRegs.all (r : SrtRegs) : List (Word × Nat) := r.d.toList ++ r.a.toList ++ r.b.toList ++ r.c.toList

/-- FMT of an SRT form. -/
def srtFmt : Instr → Nat
  | .topk _ _ f _ _ _ _ _ => f.toNat
  | .psort _ _ f _ _ _ _ _ => f.toNat
  | .gscan _ _ f _ _ _ _ _ => f.toNat
  | .ghist _ _ _ f _ _ => f.toNat
  | .rndh _ _ f _ _ _ => f.toNat
  | _ => 0

def srtK (vs : List Word) : Nat := bits (val vs 4).toNat 47 32
def srtBase (vs : List Word) : Nat := bits (val vs 4).toNat 31 0

def countOf (p : Option (Word × Nat)) : Nat :=
  match p with
  | some q => (VRegs.reg q).count
  | none => 0

/-- L: ROWLEN, or nA. -/
def srtLen (vs : List Word) (nA : Nat) : Nat := rowLen (val vs 4) nA

def srtCounts (i : Instr) (vs : List Word) (r : SrtRegs) : Bool :=
  let nA := countOf r.a
  let l := srtLen vs nA
  let rows := nA / l
  let rowOk := decide (l ≠ 0) && decide (nA % l = 0)
  let eq (p : Option (Word × Nat)) (n : Nat) : Bool := p.isNone || countOf p == n
  match i with
  | .topk .. => rowOk && eq r.d (rows * srtK vs) && eq r.b (rows * srtK vs) && eq r.c nA
  | .psort .. => rowOk && eq r.d nA && eq r.b nA && eq r.c nA
  | .gscan .. => rowOk && eq r.d nA && eq r.b (rows * countOf r.c)
  | _ => true

/-- Write ranges: D and B as one span; under TAG the tagged D stands apart (14 R297). -/
def srtWrites (key : Nat) (tag : Bool) (r : SrtRegs) : List Rng :=
  match r.d, r.b with
  | some d, some b =>
    if tag then [(VRegs.reg d).range key true true, (VRegs.reg b).range key true false]
    else [{ spanRange key (VRegs.reg d) (VRegs.reg b) with write := true }]
  | some d, none => [(VRegs.reg d).range key true tag]
  | none, some b => [(VRegs.reg b).range key true false]
  | none, none => []

def srtRanges (key : Nat) (tag : Bool) (r : SrtRegs) : List Rng :=
  srtWrites key tag r ++ (r.a.toList.map (fun a => (VRegs.reg a).range key false tag)) ++
    (r.c.toList.map (fun c => (VRegs.reg c).range key false false))

/-- An SRT form issues once its descriptors and counts pass (14 R291). -/
def sortForm (i : Instr) (s : State) : Host.Outcome State Fault Refusal :=
  onEngine i [.gather] s (fun key c vs =>
    let r := srtRegs i vs
    match regionsCode c.ctype.sliceSize r.all (srtCounts i vs r) with
    | 0 => s.enqueue key c i vs 0 (Issue.plain (srtRanges key i.flags.tag r))
    | n => s.vectorTrap key n)

/-- topk (14 R294). -/
def execTopk (e : EngineFlags) (up : Bool) (fmt : BitVec 4) (sD sA sB sC sE : BitVec 5) (s : State) :
    Host.Outcome State Fault Refusal := sortForm (.topk e up fmt sD sA sB sC sE) s

/-- psort (14 R294). -/
def execPsort (e : EngineFlags) (up : Bool) (fmt : BitVec 4) (sD sA sB sC sE : BitVec 5) (s : State) :
    Host.Outcome State Fault Refusal := sortForm (.psort e up fmt sD sA sB sC sE) s

/-- gscan (14 R296). -/
def execGscan (e : EngineFlags) (exc : Bool) (fmt : BitVec 4) (sD sA sB sC sE : BitVec 5) (s : State) :
    Host.Outcome State Fault Refusal := sortForm (.gscan e exc fmt sD sA sB sC sE) s

/-- ghist (14 R296). -/
def execGhist (e : EngineFlags) (clamp accum : Bool) (fmt : BitVec 4) (sD sA : BitVec 5) (s : State) :
    Host.Outcome State Fault Refusal := sortForm (.ghist e clamp accum fmt sD sA) s

/-- rndh (14 R296). -/
def execRndh (e : EngineFlags) (seed : Bool) (fmt : BitVec 4) (sD sA sB : BitVec 5) (s : State) :
    Host.Outcome State Fault Refusal := sortForm (.rndh e seed fmt sD sA sB) s

/-! ## Rank and sort (14 R294) -/

/-- A pair of key bits and index. -/
structure Ranked where
  key : Nat
  gidx : Nat
  deriving DecidableEq, Repr

/-- The order of keys: NaN above every value, -0 equal to +0; integers signed. -/
def keyLt (f a b : Nat) : Bool :=
  if fmtIsInt f then decide (signedOf (intWidth f) a < signedOf (intWidth f) b)
  else
    let x := FV.ofBits (vfmt f) a
    let y := FV.ofBits (vfmt f) b
    !x.isNaN && (y.isNaN || x.lt y)

/-- p comes before q, the order of their positions aside. -/
def ranksBefore (f : Nat) (up : Bool) (p q : Ranked) : Bool :=
  let lt := keyLt f p.key q.key
  let gt := keyLt f q.key p.key
  if lt || gt then (if up then lt else gt) else decide (p.gidx < q.gidx)

/-- Insert a pair, with its position, after those that come before it or equal it. -/
def rankInsert (f : Nat) (up : Bool) (p : Nat × Ranked) : List (Nat × Ranked) → List (Nat × Ranked)
  | [] => [p]
  | q :: rest => if ranksBefore f up p.2 q.2 then p :: q :: rest else q :: rankInsert f up p rest

/-- Pairs of a row in rank order; equal pairs keep their order. -/
def rankRow (f : Nat) (up : Bool) (ps : List (Nat × Ranked)) : List (Nat × Ranked) :=
  ps.foldl (fun acc p => rankInsert f up p acc) []

/-- The pairs that topk or psort writes of a row. -/
def rankedOut (f : Nat) (up whole : Bool) (k : Nat) (ps : List Ranked) : List Ranked :=
  let ranked := rankRow f up ((List.range ps.length).zip ps)
  let first := ranked.take k
  if whole then
    first.map (·.2) ++ (((List.range ps.length).zip ps).filter (fun p => !first.any (fun q => q.1 == p.1))).map (·.2)
  else first.map (·.2)

def srtAddrs (r : Option (Word × Nat)) (k0 : Nat) (vs : List Nat) : List (Nat × List Byte) :=
  match r with
  | none => []
  | some q =>
    let g := VRegs.reg q
    (List.range vs.length).map (fun j => (g.addr (k0 + j), leBytes g.eb (vs.getD j 0)))

def rankUnit (s : State) (key : Nat) (x : Cmd) (r : SrtRegs) (f : Nat) (up whole : Bool) (row : Nat) : Eng Worked :=
  let a := VRegs.reg (r.a.getD (0, 8))
  let l := srtLen x.vals a.count
  let es := (List.range l).map (row * l + ·)
  let idx := match r.c with
    | some c => readElems s key (VRegs.reg c) es
    | none => .ok ((List.range l).map (fun e => (srtBase x.vals + e) % 2 ^ 32))
  ((readElems s key a es).both idx).bind (fun v =>
    let out := rankedOut f up whole (srtK x.vals) (List.zipWith Ranked.mk v.1 v.2)
    let k0 := row * (if whole then l else srtK x.vals)
    (writeGroup s key x.id 0 (srtAddrs r.d k0 (out.map (·.key)) ++ srtAddrs r.b k0 (out.map (·.gidx)))).map (fun s => { s, x }))

/-! ## Scan, histogram and draws (14 R296) -/

/-- Outputs and inclusive prefixes of a row. Where every element of the row is written over the next, as in place with a
stride of 0, each but the first reads the output before it. -/
def scanRow (f : Nat) (exc shared : Bool) (vs : List Nat) : List (Nat × Nat) :=
  (vs.foldl (fun acc v =>
    let v := if shared then ((acc.2.getLast?).map (·.1)).getD v else v
    let p := addIn f acc.1 v
    (p, acc.2 ++ [(if exc then acc.1 else p, p)])) (0, [])).2

/-- pre ≥ threshold; a NaN compares false. -/
def reaches (f pre t : Nat) : Bool :=
  if fmtIsInt f then decide (signedOf (intWidth f) t ≤ signedOf (intWidth f) pre)
  else (FV.ofBits (vfmt f) t).le (FV.ofBits (vfmt f) pre)

def scanUnit (s : State) (key : Nat) (x : Cmd) (r : SrtRegs) (f : Nat) (exc : Bool) (row : Nat) : Eng Worked :=
  let a := VRegs.reg (r.a.getD (0, 8))
  let l := srtLen x.vals a.count
  let es := (List.range l).map (row * l + ·)
  let nT := countOf r.c
  let thr := match r.c with
    | some c => readElems s key (VRegs.reg c) (List.range nT)
    | none => .ok []
  ((readElems s key a es).both thr).bind (fun v =>
    let out := scanRow f exc (r.d == r.a && a.stride == 0) v.1
    let found := v.2.map (fun t => out.findIdx (fun o => reaches f o.2 t))
    (writeGroup s key x.id 0 (srtAddrs r.d (row * l) (out.map (·.1)) ++ srtAddrs r.b (row * nT) found)).map (fun s => { s, x }))

/-- Bins of a group, in order, each clamped or dropped. -/
def histBins (clamp : Bool) (nbin : Nat) (w : Nat) (vs : List Nat) : List Nat :=
  vs.filterMap (fun v =>
    let i := signedOf w v
    let i := if clamp then clampInt i 0 ((nbin : Int) - 1) else i
    if 0 ≤ i ∧ i < nbin then some i.toNat else none)

/-- Each element counts in its bin; bins at one address, which a stride of 0 gives, count together. -/
def histUnit (s : State) (key : Nat) (x : Cmd) (r : SrtRegs) (f : Nat) (clamp accum : Bool) (q : Nat) : Eng Worked :=
  let a := VRegs.reg (r.a.getD (0, 8))
  let d := VRegs.reg (r.d.getD (0, 8))
  let zero := if q = 0 && !accum then
      writeGroup s key x.id 0 ((List.range d.count).map (fun i => (d.addr i, leBytes 4 0)))
    else .ok s
  (zero.both (readElems s key a (groupOf a.count q))).bind (fun v =>
    let bins := histBins clamp d.count (intWidth f) v.2
    let touched := (List.range d.count).filter bins.contains
    (readElems v.1 key d touched).bind (fun old =>
      (writeGroup v.1 key x.id 0 ((touched.zip old).map (fun p =>
        (d.addr p.1, leBytes 4 (min (p.2 + bins.countP (fun b => d.addr b == d.addr p.1)) (2 ^ 32 - 1)))))).map (fun s => { s, x })))

def drawUnit (s : State) (key : Nat) (x : Cmd) (r : SrtRegs) (f : Nat) (seed : Bool) (q : Nat) : Eng Worked :=
  let d := VRegs.reg (r.d.getD (0, 8))
  let k := (val x.vals 1).setWidth 32 ^^^ (if seed then s.seedOf key else 0)
  let out := (groupOf d.count q).map (fun e =>
    let v := rndh k (((val x.vals 2) + BitVec.ofNat 64 e).setWidth 32)
    (d.addr e, leBytes 4 (if f = 7 then v.toNat else (roundTo fp32 .rne false (.fin false (v >>> 8).toNat (-24))).bits)))
  (writeGroup s key x.id 0 out).map (fun s => { s, x })

/-- Two regions share a byte of their elements. -/
def regionsShare (p q : Word × Nat) : Bool :=
  let a := VRegs.reg p
  let b := VRegs.reg q
  (List.range a.count).any (fun i => (List.range b.count).any (fun j =>
    overlap (a.offset i).toNat a.eb (b.offset j).toNat b.eb))

/-- Overlaps that fail an SRT form with 0x19 (14 R297). -/
def srtOverlap (i : Instr) (r : SrtRegs) : Bool :=
  let written := r.d.toList ++ r.b.toList
  let inPlace := match i with
    | .gscan .. => r.d == r.a
    | _ => false
  let meets (w : Word × Nat) (q : Option (Word × Nat)) : Bool := match q with
    | some q => regionsShare w q
    | none => false
  (match i with
   | .rndh .. => false
   | _ =>
     (match r.d, r.b with
      | some d, some b => regionsShare d b
      | _, _ => false) ||
     written.any (fun w => (meets w r.a && !(inPlace && r.d == some w)) || meets w r.c))

/-- K is not from 1 to L. -/
def srtBadK (i : Instr) (vs : List Word) (nA : Nat) : Bool :=
  let bad := srtK vs == 0 || decide (srtLen vs nA < srtK vs)
  match i with
  | .topk .. => bad
  | .psort .. => bad
  | _ => false

/-- Execution of an SRT command. -/
def sortExec (s : State) (key : Nat) (x : Cmd) : Form :=
  let r := srtRegs x.instr x.vals
  let f := srtFmt x.instr
  let nA := countOf r.a
  let l := srtLen x.vals nA
  let units := match x.instr with
    | .ghist .. => ceilDiv nA 64
    | .rndh .. => ceilDiv (countOf r.d) 64
    | _ => nA / l
  let unit : Nat → Eng Worked :=
    match x.instr with
    | .topk _ up _ _ _ _ _ _ => rankUnit s key x r f up false
    | .psort _ up _ _ _ _ _ _ => rankUnit s key x r f up true
    | .gscan _ exc _ _ _ _ _ _ => scanUnit s key x r f exc
    | .ghist _ clamp accum _ _ _ => histUnit s key x r f clamp accum
    | .rndh _ seed _ _ _ _ => drawUnit s key x r f seed
    | _ => fun _ => .ok { s, x }
  let reg (p : Option (Word × Nat)) : Region := VRegs.reg (p.getD (0, 8))
  let rowEs (n q : Nat) : List Nat := (List.range n).map (q * n + ·)
  { Form.base s x x.ranges units unit with
    spans := fun q => if x.instr.flags.tag then
        (match x.instr with
         | .ghist .. => groupSpans key (reg r.a) (groupOf nA q) false ++ groupSpans key (reg r.d) (List.range (countOf r.d)) true
         | .topk .. => groupSpans key (reg r.a) (rowEs l q) false ++ groupSpans key (reg r.d) (rowEs (srtK x.vals) q) true
         | _ => groupSpans key (reg r.a) (rowEs l q) false ++
             (if r.d.isSome then groupSpans key (reg r.d) (rowEs l q) true else []))
      else []
    early := [failIf (srtBadK x.instr x.vals nA) 0x1D, failIf (srtOverlap x.instr r) 0x19] }

end Sys2Proof.Machine
end

