-- ==== Sys2Proof/Machine/Link.lean ====
section
/-! DEFINITION. The commands of the link receive unit: reductions, ordered lanes and waggle digests (15). -/

namespace Sys2Proof.Machine

/-! ## Values (15 R302, Table 15-2) -/

/-- Twice the element size of a link form. -/
def linkEb2 : Instr → Nat
  | .lred _ _ w _ _ => iwEb2 w
  | .lopen _ _ f _ _ _ => vfmtEb2 f.toNat
  | .lord _ f _ _ => vfmtEb2 f.toNat
  | _ => 8

def lopenNR (v : Word) : Nat := bits v.toNat 13 8 + 1
def lopenLane (v : Word) : Nat := bits v.toNat 3 0
def lordCell (v : Word) : Nat := bits v.toNat 8 0
def lordLane (v : Word) : Nat := bits v.toNat 19 16
def lordRank (v : Word) : Nat := bits v.toNat 29 24
def wagStep (v : Word) : Nat := bits v.toNat 31 0
def wagNexp (v : Word) : Nat := bits v.toNat 40 32

/-- Source region of lred, lord; destination and staging of lopen. -/
def linkRegion (i : Instr) (v : Word) : Region := regionOf v (linkEb2 i)

/-- A link form issues once its descriptors pass (15 R302). -/
def linkForm (i : Instr) (regs : List Word → List Word) (counts : List Word → Bool) (rs : Nat → List Word → List Rng) (s : State) :
    Host.Outcome State Fault Refusal :=
  onEngine i [.matrix, .vector, .gather] s (fun key c vs =>
    match regionsCode c.ctype.sliceSize ((regs vs).map (fun v => (v, linkEb2 i))) (counts vs) with
    | 0 => s.enqueue key c i vs 0 (Issue.plain (rs key vs))
    | n => s.vectorTrap key n)

/-- Ranges of lred: source, and target span (15 R303). -/
def lredRanges (i : Instr) (key : Nat) (vs : List Word) : List Rng :=
  let r := linkRegion i (val vs 1)
  [r.range key false i.flags.tag, mkRange key (val vs 0) (r.count * r.eb) true false]

/-- lred (15 R303). -/
def execLred (e : EngineFlags) (op : BitVec 3) (w : BitVec 2) (sD sA : BitVec 5) (s : State) :
    Host.Outcome State Fault Refusal :=
  let i := Instr.lred e op w sD sA
  linkForm i (fun vs => [val vs 1]) (fun _ => true) (lredRanges i) s

/-- lopen: the counts agree if staging has NR elements for each of the destination (15 R302, R304). -/
def execLopen (e : EngineFlags) (op : BitVec 3) (fmt : BitVec 2) (sD sA sB : BitVec 5) (s : State) :
    Host.Outcome State Fault Refusal :=
  let i := Instr.lopen e op fmt sD sA sB
  linkForm i (fun vs => [val vs 0, val vs 1])
    (fun vs => (linkRegion i (val vs 1)).count == lopenNR (val vs 2) * (linkRegion i (val vs 0)).count)
    (fun key vs => [(linkRegion i (val vs 0)).range key true false, (linkRegion i (val vs 1)).range key true false]) s

/-- lord (15 R305). -/
def execLord (e : EngineFlags) (fmt : BitVec 2) (sA sB : BitVec 5) (s : State) : Host.Outcome State Fault Refusal :=
  let i := Instr.lord e fmt sA sB
  linkForm i (fun vs => [val vs 0]) (fun _ => true) (fun key vs => [(linkRegion i (val vs 0)).range key false e.tag]) s

/-- lwag (15 R309). -/
def execLwag (e : EngineFlags) (sA sB sC sE : BitVec 5) (s : State) : Host.Outcome State Fault Refusal :=
  let i := Instr.lwag e sA sB sC sE
  linkForm i (fun _ => []) (fun _ => true)
    (fun key vs => [mkRange key (val vs 0) (val vs 1).toNat false false, mkRange key (val vs 2) 64 true false]) s

/-! ## lred (15 R303) -/

def lredUnit (s : State) (key : Nat) (x : Cmd) (op : BitVec 3) (e : Nat) : Eng Worked :=
  let r := linkRegion x.instr (val x.vals 1)
  let a := (val x.vals 0).toNat + e * r.eb
  ((readElem s key r e).both (s.engSpan key 0 a r.eb .atomic)).bind (fun v =>
    let hit : Bool := v.2.any (fun p => match p.1 with
      | some l => s.hitsObject l p.2
      | none => false)
    if hit then .fail 5
    else if s.placesPoisoned v.2 then .fail 1
    else .ok { s := s.engWrite key x.id a v.2 (leBytes r.eb (amoResult op r.eb (leValue (s.readPlaces v.2)) v.1)), x })

def lredExec (s : State) (key : Nat) (x : Cmd) (op : BitVec 3) : Form :=
  let r := linkRegion x.instr (val x.vals 1)
  let t := (val x.vals 0).toNat
  { Form.base s x x.ranges r.count (lredUnit s key x op) with
    spans := fun e => if x.instr.flags.tag then groupSpans key r [e] false else []
    paths := fun g p => !g.write || p == 0 || p == 1 || p == 3 || p == 5
    written := .atomic
    early := [failIf (t % r.eb != 0 || bits t 63 60 == 4) 0x1F] }

/-! ## Lanes (15 R304 to R307) -/

def Cell.lane (c : Cell) (k : Nat) : Lane := c.lanes[k % 16]'(Nat.mod_lt _ (by decide))

def Cell.setLane (c : Cell) (k : Nat) (l : Lane) : Cell := { c with lanes := c.lanes.set (k % 16) l (Nat.mod_lt _ (by decide)) }

/-- The lane that a lopen opens. -/
def lopenLaneOf (x : Cmd) (op fmt : Nat) : Lane :=
  { opened := true, op, fmt, count := (linkRegion x.instr (val x.vals 0)).count, rows := lopenNR (val x.vals 2),
    staging := val x.vals 1, dest := val x.vals 0, arrived := [], poisoned := [] }

/-- lopen opens its lane as it starts; its one unit is the closing of the lane, which LORD_ARRIVAL does. -/
def lopenExec (s : State) (key : Nat) (x : Cmd) (op fmt : Nat) : Form :=
  let v := val x.vals 2
  let st := linkRegion x.instr (val x.vals 1)
  let opened := ((s.cell? key).map (fun c => (c.lane (lopenLane v)).opened)).getD true
  let live := ((s.gang? (gangOfCell key)).map (·.live)).getD 0
  { Form.base s x x.ranges 1 (fun _ => .ok { s, x }) with
    early := [failIf (bits v.toNat 7 4 != 0 || bits v.toNat 63 14 != 0 || (st.count > 1 && st.stride != 1) ||
      decide ((live : Int) < st.high) || opened) 0x1F]
    start := { s := s.modCell key (fun c => c.setLane (lopenLane v) (lopenLaneOf x op fmt)), x := { x with slot := lopenLane v } } }

/-- Fa of a lane: FP64 for .f64 and FP32 otherwise. -/
def laneFa (f : Nat) : Nat := if f = 3 then 3 else 0

/-- OP on values in Fa (15 R306). -/
def laneOp (op f a b : Nat) : Nat :=
  let fa := vfmt (laneFa f)
  let x := FV.ofBits fa a
  let y := FV.ofBits fa b
  match op with
  | 0 => (roundTo fa .rne false (x.add .rne y)).bits
  | 1 => (roundTo fa .rne false (x.max y)).bits
  | _ => (roundTo fa .rne false (x.min y)).bits

/-- A contribution widened to Fa. -/
def laneWiden (f v : Nat) : Nat := (convertBits (vfmt f) (vfmt (laneFa f)) .rne false v).bits

/-- One element of D: the contributions in rank order, combined and rounded. -/
def laneElem (op f : Nat) (cs : List Nat) : Nat :=
  match cs.map (laneWiden f) with
  | [] => 0
  | c :: rest => (convertBits (vfmt (laneFa f)) (vfmt f) .rne false (rest.foldl (laneOp op f) c)).bits

/-- The lopen that holds a lane open. -/
def Cell.laneCmd (c : Cell) (k : Nat) : Option Cmd :=
  c.cmds.find? (fun y => y.queue == 5 && !y.waiting && y.slot == k && (match y.instr with
    | .lopen .. => true
    | _ => false))

/-- The combination of a full lane, written to D, element by element: each is written before the next is read (15 R306). -/
def State.combineLane (s : State) (key : Nat) (x : Cmd) (l : Lane) : State × Option Nat :=
  let d := linkRegion x.instr l.dest
  let st := linkRegion x.instr l.staging
  (List.range l.count).foldl (fun acc e =>
    match acc.2 with
    | some _ => acc
    | none =>
      match ((readElems acc.1 key st ((List.range l.rows).map (fun r => r * l.count + e))).map (laneElem l.op l.fmt)).bind
          (fun v => writeGroup acc.1 key x.id 0 [(d.addr e, leBytes d.eb v)]) with
      | .ok s => (s, none)
      | .fail n => (acc.1, some n)
      | .fault .. => (acc.1, some 6)) (s, none)

/-- When every rank has arrived, the lane closes (15 R306). -/
def State.closeLane (s : State) (key k : Nat) : State :=
  match s.cell? key with
  | none => s
  | some c =>
    let l := c.lane k
    if !l.opened || l.arrived.length < l.rows then s
    else match c.laneCmd k with
      | none => s
      | some x =>
        let s := s.modCell key (fun c => c.setLane k Lane.closed)
        if !l.poisoned.isEmpty then s.setCmd key { x with prog := 1, failed := some 2 }
        else (s.combineLane key x l).1.setCmd key { x with prog := 1, failed := (s.combineLane key x l).2 }

/-- A rank joins the arrival set. -/
def State.joinLane (s : State) (key k rank : Nat) (poison : Bool) : State :=
  (s.modCell key (fun c =>
    let l := c.lane k
    c.setLane k { l with arrived := l.arrived ++ [rank], poisoned := if poison then l.poisoned ++ [rank] else l.poisoned })).closeLane key k

/-- The cell that a lord contributes to. -/
def lordTarget (key : Nat) (v : Word) : Nat := cellKey (gangOfCell key) (lordCell v)

/-- A lord may be delivered: its lane is open, or it has none to wait for. -/
def State.lordReady (s : State) (key : Nat) (v : Word) : Bool :=
  let n := ((s.gang? (gangOfCell key)).map (·.ncells)).getD 0
  decide (n ≤ lordCell v) || (match s.cell? (lordTarget key v) with
    | some c => c.gone || (c.lane (lordLane v)).opened
    | none => true)

/-- The lord is aimed at a lane of a cell that has exited: it is discarded (15 R307). -/
def State.lordLost (s : State) (key : Nat) (v : Word) : Bool :=
  match s.gang? (gangOfCell key), s.cell? (lordTarget key v) with
  | some g, some c => decide (lordCell v < g.ncells) && c.gone
  | _, _ => false

/-- A command is discarded: it never completes, and its claims are dropped (08 R173, R185). -/
def State.discardCmd (s : State) (key : Nat) (x : Cmd) : State :=
  (s.dropClaims key x).modCell key (fun c => { c with cmds := c.cmds.filter (fun y => y.id ≠ x.id) })

/-- The receiving unit's treatment of a contribution: the state, and the status of a lord that fails (15 R305). -/
def State.lordDeliver (s : State) (key : Nat) (x : Cmd) (fmt : Nat) : State × Option Nat :=
  let v := val x.vals 1
  let src := linkRegion x.instr (val x.vals 0)
  let t := lordTarget key v
  let k := lordLane v
  let rank := lordRank v
  let n := ((s.gang? (gangOfCell key)).map (·.ncells)).getD 0
  if n ≤ lordCell v then (s, some 0x1F)
  else match s.cell? t with
    | none => (s, none)
    | some c =>
      let l := c.lane k
      if l.fmt ≠ fmt || l.count ≠ src.count || decide (l.rows ≤ rank) then (s, some 0x1F)
      else if l.arrived.contains rank then (s, some 0x20)
      else
        let st := linkRegion x.instr l.staging
        let done := (readElems s key src (List.range src.count)).bind (fun vs =>
          writeGroup s t x.id 0 ((List.range src.count).zipWith (fun j v => (st.addr (rank * l.count + j), leBytes st.eb v)) vs))
        match done with
        | .ok s => (s.joinLane t k rank false, none)
        | .fail code => (s.joinLane t k rank true, some code)
        | .fault .. => (s.joinLane t k rank true, some 6)

def lordExec (s : State) (key : Nat) (x : Cmd) : Form :=
  let v := val x.vals 1
  { Form.base s x x.ranges 1 (fun _ => .ok { s, x }) with
    spans := fun _ => if x.instr.flags.tag then
        let r := linkRegion x.instr (val x.vals 0)
        groupSpans key r (List.range r.count) false
      else []
    early := [failIf (bits v.toNat 15 9 != 0 || bits v.toNat 23 20 != 0 || bits v.toNat 63 30 != 0) 0x1F] }

/-! ## Waggle digests (15 R308, R309) -/

/-- The span of S[sA], S[sB] lies in the own slice. -/
def wagSpanBad (key size : Nat) (a len : Word) : Bool :=
  let v := a.toNat
  let p := bits v 63 60
  let own := p == 3 || (p == 1 && bits v 39 30 == bits (combName key (ownAddr 0)) 39 30)
  !own || decide (size < len.toNat) || decide (size < bits v 29 0 + len.toNat)

def lwagExec (s : State) (key : Nat) (x : Cmd) : Form :=
  let a := val x.vals 0
  let n := val x.vals 1
  let line := (val x.vals 2).toNat
  let e := val x.vals 3
  let size := ((s.cell? key).map (fun c => c.ctype.sliceSize)).getD 0
  { Form.base s x x.ranges 3 (fun g =>
      if g = 0 then (s.engRead key 0 a.toNat n.toNat).map (fun bs => { s, x := { x with aux := [crc64 0 bs] } }) else .ok { s, x }) with
    early := [failIf (wagSpanBad key size a n || line % 64 != 0 || (bits line 63 60 != 1 && bits line 63 60 != 3) ||
      wagNexp e == 0 || decide (448 < wagNexp e) || bits e.toNat 63 41 != 0) 0x1F] }

/-- A waggle line as a number (15 Table 15-3). -/
def waggleLine (step d narr : Nat) (mism : Bool) : Nat := d + step * 2 ^ 64 + narr * 2 ^ 96 + mism.toNat * 2 ^ 105

/-- What one arrival does at the line's home. -/
inductive WagOutcome where
  | reject (status : Nat)
  /-- The line's new value, its step's NEXP, and the status of the step if it is complete. -/
  | take (line expect : Nat) (done : Option Nat)
  deriving DecidableEq, Repr

/-- The procedure of 15 R309. -/
def wagArrive (line expect step nexp d : Nat) : WagOutcome :=
  let narr := bits line 104 96
  let take (step dig narr : Nat) (mism : Bool) (ex : Nat) : WagOutcome :=
    if narr = ex then .take (waggleLine step dig 0 false) 0 (some (if mism then 0x1E else 0))
    else .take (waggleLine step dig narr mism) ex none
  if bits line 511 106 ≠ 0 then .reject 0x1F
  else if narr = 0 then take step d 1 (line.testBit 105) nexp
  else if step ≠ bits line 95 64 || nexp ≠ expect then .reject 0x1F
  else take step (bits line 63 0) (narr + 1) (line.testBit 105 || d != bits line 63 0) expect

/-- The place of an lwag's line; none while it has none. -/
def State.wagHome (s : State) (key : Nat) (x : Cmd) : Option Nat :=
  match s.engSpan key 0 (val x.vals 2).toNat 64 .write with
  | .ok ((loc, _) :: _) => loc
  | _ => none

/-- The command is an lwag whose digest has arrived. -/
def Cmd.wagWaits (x : Cmd) : Bool :=
  match x.instr with
  | .lwag .. => x.prog == 2
  | _ => false

/-- The lwags of a cell that wait at a line end with a status. -/
def State.endWaits (s : State) (loc status key : Nat) (c : Cell) : Cell :=
  { c with cmds := c.cmds.map (fun y =>
      if y.wagWaits && s.wagHome key y == some loc then { y with prog := 3, failed := if status = 0 then y.failed else some status } else y) }

/-- The lwags that wait at a line end with a status, those of parked gangs too. -/
def State.endWaggle (s : State) (loc status : Nat) : State :=
  { s with
    cells := s.cells.map (fun p => (p.1, s.endWaits loc status p.1 p.2))
    parked := s.parked.map (fun p => (p.1, { p.2 with cell := s.endWaits loc status p.1 p.2.cell })) }

/-- The arrival of a digest (15 R308, R309): the state, and the status of an lwag that fails. -/
def State.wagDeliver (s : State) (key : Nat) (x : Cmd) : State × Option Nat :=
  let e := val x.vals 3
  match s.engSpan key 0 (val x.vals 2).toNat 64 .write with
  | .ok ((some loc, _) :: _) =>
    if s.marked loc then (s, some 5)
    else if s.poisoned loc 64 then (s, some 1)
    else match wagArrive (readLE s.mem loc 64) (s.waggles.getD loc 0) (wagStep e) (wagNexp e) (val x.aux 0).toNat with
      | .reject n => (s, some n)
      | .take line ex done =>
        let s := { s.putBytes loc (leBytes 64 line) with
          waggles := if ex = 0 then s.waggles.remove loc else s.waggles.insert loc ex }
        let s := s.setCmd key { x with prog := 2 }
        match done with
        | none => (s, none)
        | some st =>
          let s := s.endWaggle loc st
          (if st = 0 then s else s.raiseTrap (.aseq key) 0x12 0 .event (BitVec.ofNat 64 (wagStep e)) (val x.vals 2) true, none)
  | .ok _ => (s.setCmd key { x with prog := if wagNexp e = 1 then 3 else 2 }, none)
  | .fail n => (s, some n)
  | .fault .. => (s, some 6)

/-- Execution of a link command. -/
def linkExec (s : State) (key : Nat) (x : Cmd) : Form :=
  match x.instr with
  | .lred _ op _ _ _ => lredExec s key x op
  | .lopen _ op f _ _ _ => lopenExec s key x op.toNat f.toNat
  | .lord .. => lordExec s key x
  | _ => lwagExec s key x

end Sys2Proof.Machine
end

