-- ==== Sys2Proof/Machine/Engines.lean ====
section
/-! DEFINITION. The events of engine commands: start, stamps, tag waits, units of work, suspension, checks and completion
(06 R135; 08 R171, R180 to R185; 09 R213; 10 R229; 15 R305, R309; 16 R317, R318). -/

namespace Sys2Proof.Machine

/-! ## The execution of a command -/

/-- The execution of a command by its form. -/
def engineForm (s : State) (key : Nat) (c : Cell) (x : Cmd) : Form :=
  match x.instr with
  | .mxmm _ fmt ck new _ _ _ _ _ _ _ _ _ => mmForm s key c x fmt.toNat ck new
  | .mxld _ accum i32 _ _ _ _ _ => ldForm s key c x accum i32
  | .mxclr .. => clrForm s key c x
  | .mxmma _ new _ _ _ _ _ _ => mmaForm s key c x new
  | .mxmv _ tr _ _ _ => mvForm s key c x tr
  | .mxmark _ => markForm s x
  | .mxmarkStamped .. => markForm s x
  | .mxdrn _ k ck _ _ _ _ _ _ => drainForm s key c x k ck (drnVals x.vals)
  | .mxepl _ k _ => eplForm s key c x k
  | .mxcks .. => cksForm s key c x
  | .mxdrs _ k ck _ _ _ _ => drainForm s key c x k ck (drsVals x.vals)
  | .mxshp _ k _ => shpForm s key c x k
  | .mxcv _ k ck new _ _ _ _ _ _ _ => cvForm s key c x k ck new
  | .mpush .. => pushForm s key c x
  | .minv _ => invForm s key c x
  | .minvShort => invForm s key c x
  | .mpop _ => popForm s key c x
  | .mpopShort => popForm s key c x
  | i => match i.engineQueue with
    | 1 => vectorExec s key c x
    | 2 => tableExec s key x
    | 3 => (match i.opcode.1 with
        | 0x18 => gatherExec s key x
        | _ => sortExec s key x)
    | 4 => copyExec s key x
    | _ => linkExec s key x

/-- The ranges of a command as the checker compares them: those of a waiting command that uses a slot follow from the
slot (10 R224). -/
def State.rangesOf (s : State) (key : Nat) (c : Cell) (y : Cmd) : List Rng :=
  if y.waiting && (slotUse y.instr).isSome then (engineForm s key c y).ranges else y.ranges

/-- What does a command's next unit of work. -/
inductive UnitBy where
  /-- GRANULE_COMMIT. -/
  | commit
  /-- DRAIN_CHECK_RESOLVE (10 R229). -/
  | check
  /-- LORD_ARRIVAL. -/
  | lord
  /-- WAGGLE_ARRIVAL. -/
  | waggle
  /-- Another command's arrival. -/
  | held
  deriving DecidableEq, Repr

def unitBy (x : Cmd) (f : Form) : UnitBy :=
  match x.instr with
  | .lopen .. => .held
  | .lord .. => .lord
  | .lwag .. => if x.prog = 0 then .commit else if x.prog = 1 then .waggle else .held
  | _ => if f.checked && decide (x.prog + 1 = f.units) then .check else .commit

/-- An active command of a cell, with its execution. -/
structure Running where
  c : Cell
  x : Cmd
  f : Form

def State.running? (s : State) (key id : Nat) : Option Running :=
  match s.cell? key with
  | none => none
  | some c =>
    match c.cmd? id with
    | none => none
    | some x =>
      if s.enginesRun key c && (x.state == .active || x.state == .withheld) then some { c, x, f := engineForm s key c x } else none

/-- A unit of work is still to be made. -/
def Running.unmade (r : Running) : Bool := r.x.failed.isNone && !r.x.sent && decide (r.x.prog < r.f.units)

/-- The next unit can be done, tags held. -/
def Running.due (r : Running) (by_ : UnitBy) : Bool :=
  r.unmade && unitBy r.x r.f == by_ && (r.x.wants (r.f.spans r.x.prog)).isNone

/-! ## Start (08 R180, R182; 10 R221; 16 R317, R318) -/

/-- Lowest copy slot that no command holds (13 R276). -/
def Cell.freeSlot (c : Cell) : Nat :=
  let used (k : Nat) : Bool := c.cmds.any (fun y => y.queue == 4 && !y.waiting && y.slot == k)
  ((List.range 64).find? (fun k => !used k)).getD 0

/-- The objects that a command acquires: those of a form that uses a slot follow from the slot (10 R224). -/
def State.acquiredBy (s : State) (key : Nat) (x : Cmd) (f : Form) : List Nat :=
  if (slotUse x.instr).isSome && x.instr.flags.acq then s.rangeObjects key x.table f.ranges false else x.acqObjs

/-- The command leaves its queue: it starts, or fails without starting. -/
def State.startCmd (s : State) (key : Nat) (c : Cell) (x : Cmd) : State :=
  let f := engineForm s key c x
  let acq := s.acquiredBy key x f
  let rel := if (slotUse x.instr).isSome && x.instr.flags.rel then s.rangeObjects key x.table f.ranges true else x.relObjs
  let y := { x with state := .active, ranges := f.ranges, acqObjs := acq, relObjs := rel, startAt := none, fault := none,
                    slot := if x.queue = 4 then c.freeSlot else x.slot }
  match s.startStatus key x f acq with
  | some code => s.setCmd key { y with failed := some code, relObjs := [] }
  | none =>
    (if f.deferred then f.start.s else f.start.s.engineAcquired key x acq).setCmd key
      { y with aux := f.start.x.aux, slot := if x.queue = 5 then f.start.x.slot else y.slot }

/-- A command of the table engine needs the tables: RDYMAP0 bit 2 (23 R432). -/
def State.tablesReady (s : State) (x : Cmd) : Bool := x.queue != 2 || s.rdymap0.getLsbD 2

/-- A waiting command, its cell, and whether it is ready apart from its stamp. -/
def State.waiting? (s : State) (key id : Nat) : Option (Cell × Cmd × Bool) :=
  match s.cell? key with
  | none => none
  | some c =>
    match c.cmd? id with
    | none => none
    | some x => if x.waiting && s.startsRun key c && s.tablesReady x then some (c, x, c.ready (s.rangesOf key c) x) else none

def State.startDue (s : State) (key id : Nat) : Bool :=
  match s.waiting? key id with
  | some (_, x, ready) => x.startAt.isNone && ready
  | none => false

/-- The stamp value among the captured values. -/
def stampValue (i : Instr) (vs : List Word) : Word :=
  match i with
  | .mxmm .. => val vs 4
  | .mxld .. => val vs 3
  | .mxclr .. => val vs 1
  | .mxmma .. => val vs 3
  | .mxmv .. => val vs 1
  | .mxmarkStamped .. => val vs 0
  | .mxdrn .. => val vs 4
  | .mxdrs .. => val vs 2
  | .mxcv .. => val vs 4
  | i => (copyJob i vs).stamp

/-- A command without a stamp starts. -/
def execEngineCommandStart (cell id : Nat) (s : State) : Host.Outcome State Fault Refusal :=
  event (s.startDue cell id) s
    (match s.waiting? cell id with
     | some (c, x, _) => s.startCmd cell c x
     | none => s)

/-- The acquires of a stamped command are made in the first cycle in which it is ready, before its Start (16 R446). -/
def State.earlyAcquire (s : State) (key id : Nat) : State :=
  match s.waiting? key id with
  | some (c, x, ready) =>
    let acq := s.acquiredBy key x (engineForm s key c x)
    if x.startAt.isSome && x.acquired.isNone && ready && !acq.isEmpty then
      (s.engineAcquired key x acq).setCmd key { x with acquired := some (s.objectsCode key acq) }
    else s
  | none => s

/-- A tile lies in the cell's own slice. -/
def ownTile (key t : Nat) : Bool := bits (t * 4096) 39 30 == bits (combName key (ownAddr 0)) 39 30

/-- OPND of a range that a command only writes: destination, statistics, record. -/
def writtenOpnd (queue opnd : Nat) : Bool :=
  if queue = 4 then decide (2 ≤ opnd) else opnd == 5 || opnd == 6

/-- The first unit of work of a command that would start now, if it has one. -/
def State.firstUnit (s : State) (key : Nat) (c : Cell) (x : Cmd) : Option Running :=
  ((s.startCmd key c x).running? key x.id).filter Running.unmade

/-- The first unit waits for no tagged tile of another slice that it reads (log 4). -/
def State.tilesArrived (s : State) (key : Nat) (c : Cell) (x : Cmd) : Bool :=
  match s.firstUnit key c x with
  | none => true
  | some r => (spansTiles (r.f.spans 0)).all (fun t => t.2 || ownTile key t.1 || s.tileOpen key t)

/-- The first unit does not stop on a translation of a byte that it reads (log 4). -/
def State.readsArrive (s : State) (key : Nat) (c : Cell) (x : Cmd) : Bool :=
  match s.firstUnit key c x with
  | none => true
  | some r =>
    match r.f.unit 0 with
    | .fault o _ _ => writtenOpnd x.queue o && !(x.queue == 0 && r.x.ranges.any (fun q => !q.write &&
        (s.engSpan key 7 q.addr.toNat q.len .read).isFault))
    | _ => true

/-- The operands of the first unit have arrived (16 R446). -/
def State.operandsArrived (s : State) (key : Nat) (c : Cell) (x : Cmd) : Bool := s.tilesArrived key c x && s.readsArrive key c x

/-- An elastic command that is ready starts as soon as its operands have arrived (16 R318). A translation fault keeps it from
starting on its Start alone: it starts on the cycle after, and then meets the fault, which firmware repairs (log 4). -/
def State.elasticStarts (s : State) (key : Nat) (c : Cell) (x : Cmd) (start : Word) : Bool :=
  s.tilesArrived key c x && (start ≠ s.now || s.readsArrive key c x)

/-- The stamp of a command is reached, and it starts or its time fault is due; `fault` marks a timed command whose time
fault has been taken, which runs as elastic once its cell goes on (16 R320). -/
def State.stampDue (s : State) (key id : Nat) : Bool :=
  match s.waiting? key id with
  | some (c, x, ready) =>
    (match x.startAt with
     | some t => reached t s.now &&
         (!x.elastic || (ready && (x.fault.isNone || c.trap.isNone) && s.elasticStarts key c x t))
     | none => false)
  | none => false

/-- A timed command has missed its Start: time fault 0x01 (16 R318). A cell that is stopped on a trap already takes no second
record: the command slips once the cell goes on (log 4). -/
def State.missedStart (s : State) (key : Nat) (c : Cell) (x : Cmd) (t : Word) : State :=
  let s := s.setCmd key { x with elastic := true, fault := some (0, t) }
  if c.trap.isSome then s
  else s.raiseTrap (.aseq key) 0x0F 0x01 .replayable s.now (stampValue x.instr x.vals) true

/-- A stamped command starts on its stamp, slips, or takes time fault 0x01 (16 R318). -/
def execStampStart (cell id : Nat) (s : State) : Host.Outcome State Fault Refusal :=
  event (s.stampDue cell id) s
    (match s.waiting? cell id with
     | some (c, x, ready) =>
       let t := x.startAt.getD 0
       let slip := s.now - t
       if x.elastic || (ready && slip = 0 && s.operandsArrived cell c x) then
         let c' := { c with schmiss := if slip = 0 then c.schmiss else addSlip c.schmiss slip }
         (s.setCell cell c').startCmd cell c' x
       else s.missedStart cell c x t
     | none => s)

/-! ## Tag waits (08 R185) -/

def State.tagDue (s : State) (key id : Nat) : Bool :=
  match s.running? key id with
  | some r => r.unmade && unitBy r.x r.f != .held &&
    (match r.x.wants (r.f.spans r.x.prog) with
     | some t => s.tileOpen key t
     | none => false)
  | none => false

/-- A tile of a tagged range is claimed. -/
def execTagWait (cell id : Nat) (s : State) : Host.Outcome State Fault Refusal :=
  event (s.tagDue cell id) s
    (match s.running? cell id with
     | some r => match r.x.wants (r.f.spans r.x.prog) with
       | some t => s.claimTile cell r.x t.1
       | none => s
     | none => s)

/-! ## Units of work -/

/-- A tile is touched by a unit from number `n` on. -/
def Form.laterTile (f : Form) (n : Nat) (t : Nat) : Bool :=
  (List.range (f.units - n)).any (fun k => (spansTiles (f.spans (n + k))).any (fun p => p.1 == t))

/-- The writes of a unit are performed: it counts, and its tiles make their final changes. A checked drain changes its tiles
only after its check (10 R229). The tiles of one unit are held together (log 117). -/
def State.countUnit (s : State) (key : Nat) (f : Form) (x : Cmd) : State :=
  let n := x.prog + 1
  let done := if !f.checked then f.spans x.prog else if n = f.units then (List.range n).flatMap f.spans else []
  let p := s.passTiles key x done (f.laterTile n)
  let st := if f.checked && decide (n + 1 = f.units) then .withheld else .active
  p.1.setCmd key { p.2 with prog := n, state := st, sent := false }

/-- The outcome of the next unit: done, done but for acknowledgements of its mirrored writes (22 R420), or a failure. -/
def State.finishUnit (s : State) (key : Nat) (r : Running) : State :=
  match r.f.unit r.x.prog with
  | .fault .. => s
  | .fail n => (r.f.failing n).setCmd key { r.x with failed := some n }
  | .ok w =>
    if w.s.mirrorsOf key w.x.id then w.s.setCmd key { w.x with sent := true, aux := r.x.aux, ahead := w.x.aux }
    else w.s.countUnit key r.f w.x

def Running.faults (r : Running) : Bool := (r.f.unit r.x.prog).isFault

/-- The next unit is due, or the acknowledgements of the last one have come. -/
def State.unitDue (s : State) (key id : Nat) (by_ : UnitBy) : Bool :=
  match s.running? key id with
  | some r => if r.x.sent then unitBy r.x r.f == by_ && !s.mirrorsOf key id else r.due by_ && !r.faults
  | none => false

def State.runUnit (s : State) (key id : Nat) : State :=
  match s.running? key id with
  | some r => if r.x.sent then s.countUnit key r.f { r.x with aux := r.x.ahead, ahead := [] } else s.finishUnit key r
  | none => s

/-- A unit of work is committed (09 R213, 10 R233, 11 R261, 13 R280, 14 R300). -/
def execGranuleCommit (cell id : Nat) (s : State) : Host.Outcome State Fault Refusal :=
  event (s.unitDue cell id .commit) s (s.runUnit cell id)

/-- The check of a drain, or of mxcks, resolves (10 R228, R229). -/
def execDrainCheckResolve (cell id : Nat) (s : State) : Host.Outcome State Fault Refusal :=
  event (s.unitDue cell id .check) s (s.runUnit cell id)

/-- FMT of a lord. -/
def lordFmt : Instr → Nat
  | .lord _ f _ _ => f.toNat
  | _ => 0

def State.lordDue (s : State) (key id : Nat) : Bool :=
  match s.running? key id with
  | some r => r.due .lord && s.lordReady key (val r.x.vals 1)
  | none => false

/-- A contribution arrives at its lane (15 R305). -/
def execLordArrival (cell id : Nat) (s : State) : Host.Outcome State Fault Refusal :=
  event (s.lordDue cell id) s
    (match s.running? cell id with
     | some r =>
       if s.lordLost cell (val r.x.vals 1) then s.discardCmd cell r.x
       else
         let d := s.lordDeliver cell r.x (lordFmt r.x.instr)
         (match d.2 with
          | some n => d.1.setCmd cell { r.x with failed := some n }
          | none =>
            let p := d.1.passTiles cell r.x (r.f.spans 0) (fun _ => false)
            p.1.setCmd cell { p.2 with prog := 1 })
     | none => s)

def State.waggleDue (s : State) (key id : Nat) : Bool :=
  match s.running? key id with
  | some r => r.due .waggle
  | none => false

/-- A digest arrives at its line (15 R309). -/
def execWaggleArrival (cell id : Nat) (s : State) : Host.Outcome State Fault Refusal :=
  event (s.waggleDue cell id) s
    (match s.running? cell id with
     | some r =>
       let d := s.wagDeliver cell r.x
       (match d.2 with
        | some n => d.1.setCmd cell { r.x with failed := some n }
        | none => d.1)
     | none => s)

/-! ## Translations (06 R125, R136; 09 R213) -/

def State.suspendDue (s : State) (key id : Nat) : Bool :=
  match s.running? key id with
  | some r => (r.due .commit || r.due .check) && r.faults
  | none => false

/-- A replayable fault suspends a command: it is recorded unless its cell is stopped already (18 R347). The spec gives no
OPND code for a link command: that field of INFO is a free value there (log 18). -/
def State.suspendCmd (s : State) (key : Nat) (r : Running) : State :=
  match r.f.unit r.x.prog with
  | .fault o a code =>
    let q := r.x.queue
    let fr := if q = 5 then s.free else (BitVec.ofNat 64 o, s)
    let opnd := fr.1.toNat % 16
    let s := fr.2.setCmd key { r.x with state := .suspended, fault := some (opnd, a) }
    if r.c.trap.isSome then s
    else s.raiseTrap (.aseq key) 0x09 code .replayable (BitVec.ofNat 64 (q + opnd * 2 ^ 16)) a true
  | _ => s

/-- A translation arrives: for an access of an agent it commits or faults; for an engine command it is the fault that
suspends it. -/
def execTranslationReply (ag : Agent) (eng : Bool) (id : Nat) (s : State) : Host.Outcome State Fault Refusal :=
  if eng then
    let key := ag.cell?.getD 0
    event (s.suspendDue key id) s
      (match s.running? key id with
       | some r => s.suspendCmd key r
       | none => s)
  else event (s.replyDue ag id) s (s.scalarReply ag id)

/-! ## Completion (08 R171) -/

/-- mxmark completes after every matrix command issued before it (09 R210). -/
def Cell.markWaits (c : Cell) (x : Cmd) : Bool :=
  match x.instr with
  | .mxmark _ => (c.before x).any (·.queue == 0)
  | .mxmarkStamped .. => (c.before x).any (·.queue == 0)
  | _ => false

/-- Stores that the releases of a command cover are outstanding: those of the A-seq that were issued before it and are bound to
an object that it releases (07 R158, R160). -/
def Cell.coveredStores (c : Cell) (x : Cmd) : Bool :=
  x.failed.isNone && c.a.out.any (fun y => y.id < x.afterAcc && y.kind.isWrite && y.bound.any x.relObjs.contains)

def State.completeDue (s : State) (key id : Nat) : Bool :=
  match s.running? key id with
  | some r => (r.x.failed.isSome || decide (r.f.units ≤ r.x.prog)) && !s.mirrorsOf key id && !r.c.markWaits r.x &&
      !r.c.coveredStores r.x
  | none => false

/-- A command that has done its work completes, or it fails at its releases: a copy then corrects its record (13 R284), and
completes once that is performed. -/
def State.endCmd (s : State) (key : Nat) (r : Running) : State :=
  match s.releaseFails key r.x with
  | none => s.completeEngine key r.x
  | some n =>
    let x := { r.x with failed := some n }
    let t := (r.f.failing n).setCmd key x
    if t.mirrorsOf key x.id then t else t.completeEngine key x

/-- A command completes. -/
def execEngineCommandComplete (cell id : Nat) (s : State) : Host.Outcome State Fault Refusal :=
  event (s.completeDue cell id) s
    (match s.running? cell id with
     | some r => s.endCmd cell r
     | none => s)

end Sys2Proof.Machine
end

