-- ==== Sys2Proof/Machine/Frame.lean ====
section
/-! DEFINITION. The words of a cell's trap frame, which are also the state section of a saved context (18 R353, R354). A
frame is given as the list of its words that are not 0. -/

namespace Sys2Proof.Machine

/-! ## Tables of words -/

/-- Consecutive words from `base` on. -/
def wordsAt (base : Nat) (vs : List Nat) : List (Nat × Nat) := ((List.range vs.length).map (base + ·)).zip vs

def wordNats (ws : List Word) : List Nat := ws.map (·.toNat)

/-- Bit k of a bit table at `base`, for each k of a list. -/
def bitWords (base : Nat) (ks : List Nat) : List (Nat × Nat) :=
  ks.foldl (fun m k => AMap.insert m (base + k / 64) (AMap.getD m (base + k / 64) 0 ||| 2 ^ (k % 64))) []

def frameWord (f : List (Nat × Nat)) (w : Nat) : Nat := ((f.find? (fun p => p.1 = w)).map (·.2)).getD 0

/-! ## Sequencers -/

def levelWords (p : Pos) : List Nat :=
  p.levels.reverse.flatMap (fun l => [l.start.toNat, l.stop.toNat, l.ln.toNat, l.lx.toNat])

def loopWord (p : Pos) : Nat := p.levels.length + p.exited.toNat * 8

/-- Count and entries of a branch-outcome queue. -/
def bqWord (q : List BqEntry) : Nat :=
  q.length + (((List.range q.length).zip q).map (fun p => p.2.bit.toNat * 2 ^ (8 + p.1))).foldl (· + ·) 0

def queueSlotOf : AccessKind → Nat
  | .queueLoad _ slot => slot
  | _ => 0

/-- KIND of a replay entry. -/
def accessCode : AccessKind → Nat
  | .release _ => 1
  | .xfer .. => 2
  | _ => 0

/-- DATA and the second operand of an access. -/
def accessData : AccessKind → Nat × Nat
  | .store v => (v.toNat, 0)
  | .atomic _ _ d e => (d.toNat, e.toNat)
  | .xfer _ o => (o.toNat, 0)
  | _ => (0, 0)

def replayWord (kind left slot : Nat) (first : BitVec 32) : Nat :=
  2 ^ 63 + kind * 2 ^ 60 + left % 16 * 2 ^ 56 + slot * 2 ^ 32 + first.toNat

def accessWords (x : Access) : List Nat :=
  let d := accessData x.kind
  [replayWord (accessCode x.kind) 0 (queueSlotOf x.kind) x.first, x.ea.toNat, (BitVec.ofNat 64 d.1 ^^^ x.spare).toNat, d.2]

def moveWords (m : Move) : List Nat := [replayWord 3 m.delay 0 m.first, ((m.value.map (·.toNat)).getD 0), 0, 0]

def opWords (o : XOp) : List Nat := [replayWord 4 o.left 0 o.first, o.t.toNat, o.o.toNat, o.addend.toNat]

/-! ## Engine entries (18 R354) -/

/-- The words of a command, argument words included, in 32-bit words; a 16-bit word stands in bits 15:0. -/
def commandWords (i : Instr) : List Nat :=
  match encode i with
  | [p] => [p.toNat]
  | ps => pairs ps
where
  pairs : List Parcel → List Nat
    | a :: b :: rest => (a.toNat * 2 ^ 16 + b.toNat) :: pairs rest
    | _ => []

def CmdState.code : CmdState → Nat
  | .queued => 0
  | .active => 1
  | .suspended => 2
  | .withheld => 3

/-- Units of work as the progress record counts them: rows of a drain, granules of a copy. -/
def Cmd.recorded (x : Cmd) : Nat :=
  match x.instr with
  | .mxdrn .. => min x.prog (shapeM (val x.vals 3))
  | .mxdrs .. => min x.prog (shapeM (val x.vals 1))
  | i => if x.queue = 4 then min x.prog (ceilDiv (copyJob i x.vals).nb 256) else x.prog - (gthTagged i).toNat

/-- OPND of a suspended command. -/
def Cmd.opnd (x : Cmd) : Nat := if x.state == .suspended then ((x.fault.map (·.1)).getD 0) else 0

/-- The progress record (09 Table 9-9, 10 Table 10-7, 11 Table 11-12, 13 Table 13-5, 14 Table 14-4); a link command has
none (log 18). -/
def Cmd.progress (x : Cmd) : Nat × Nat :=
  let started := (!x.waiting && !(gthTagged x.instr && x.prog == 0)).toNat
  let n := x.recorded
  match x.queue with
  | 0 => (n % 1024 + started * 2 ^ 10 + x.opnd * 2 ^ 16, 0)
  | 3 => (n + started * 2 ^ 32 + x.opnd * 2 ^ 36, 0)
  | 4 => (n + started * 2 ^ 33 + x.opnd * 2 ^ 36, (val x.aux 0).toNat)
  | 5 => (0, 0)
  | _ => (n % 2048 + started * 2 ^ 16, 0)

/-- Entries stand in queue order, then in issue order. -/
def Cell.entries (c : Cell) : List Cmd := (List.range 6).flatMap (fun q => c.cmds.filter (fun x => x.queue == q))

def engineWords (x : Cmd) : List Nat :=
  let w := commandWords x.instr
  let p := x.progress
  [2 ^ 63 + x.queue + x.state.code * 2 ^ 8 + (if x.queue = 4 && !x.waiting then x.slot * 2 ^ 16 else 0),
   w.getD 0 0 + w.getD 1 0 * 2 ^ 32, w.getD 2 0] ++
    (List.range 8).map (fun k => ((x.instr.operands[k]?).map (fun j => (val x.vals j).toNat)).getD 0) ++ [p.1, p.2, 0, 0, 0]

/-! ## Queues, slots, tiles, lanes -/

/-- The slots of a load-data queue, by slot number. -/
def lqWords (base : Nat) (q : Lq) : List (Nat × Nat) :=
  ((List.range q.slots.length).zip q.slots).map (fun p => (base + (q.head + p.1) % 32, (p.2.value.map (·.toNat)).getD 0))

def sqWords (base : Nat) (q : Sq) : List (Nat × Nat) :=
  ((List.range q.entries.length).zip q.entries).map (fun p => (base + (q.head + p.1) % 32, p.2.1.toNat))

def lqStat (q : Lq) : Nat :=
  q.head + q.slots.length * 2 ^ 8 +
    (((List.range q.slots.length).zip q.slots).map (fun p => p.2.value.isSome.toNat * 2 ^ (32 + (q.head + p.1) % 32))).foldl (· + ·) 0

def sqStat (q : Sq) : Nat := q.head + q.entries.length * 2 ^ 8

/-- The eight words of a slot. -/
def slotNats (v : Option (BitVec 512)) : List Nat :=
  match v with
  | some d => (List.range 8).map (fun k => bits d.toNat (64 * k + 63) (64 * k))
  | none => List.replicate 8 0

def pairUp : List Nat → List Nat
  | a :: b :: rest => (a + b * 2 ^ 32) :: pairUp rest
  | [a] => [a]
  | [] => []

def sumsOf (l : List (BitVec 32)) : List Nat := (List.range 64).map (fun k => (l.getD k 0).toNat)

def tileWords (t : Nat) (x : Tile) : List (Nat × Nat) :=
  (0x1FE0 + t, x.sat.toNat + x.partialK.toNat * 2 + x.cv.toNat * 4 + x.nf.toNat * 8 + (x.cm - 1) * 2 ^ 8 + (x.cn - 1) * 2 ^ 16) ::
    wordsAt (0x1000 + 64 * t) (pairUp (sumsOf x.muR) ++ pairUp (sumsOf x.muC))

def setBits (l : List Nat) : Nat := (l.map (2 ^ ·)).foldl (· + ·) 0

def laneWords (l : Lane) : List Nat :=
  [l.opened.toNat, l.op, l.fmt, l.count, l.rows, l.staging.toNat, l.dest.toNat, setBits l.arrived, setBits l.poisoned]

/-- Object, base, and length with kind and role. -/
def bindWords (b : Binding) : List Nat :=
  match b.perCell with
  | some q => [b.object, b.base, b.len + 2 ^ 62 + q * 2 ^ 58]
  | none => [b.object, b.base, b.len]

/-! ## The frame (18 Table 18-5) -/

/-- TSTAT. -/
def Cell.tstat (c : Cell) : Nat :=
  match c.trap with
  | some t => t.record.low24 + t.held.toNat * 2 ^ 24 + c.cmds.countP (fun x => x.state == .suspended) * 2 ^ 32
  | none => 0

def vecNats {n w : Nat} (v : Vector (BitVec w) n) : List Nat := v.toList.map (·.toNat)

/-- The words of a cell's context: its own, those of its slice's marks and tags, and the gang's bindings. -/
def frameOf (p : Parked) (bs : List Binding) : List (Nat × Nat) :=
  let c := p.cell
  let a := c.a
  let x := c.x
  ([(0x000, c.tstat), (0x001, a.pos.pc.toNat), (0x002, x.pos.pc.toNat), (0x003, loopWord a.pos), (0x01C, loopWord x.pos)] ++
    wordsAt 0x004 (levelWords a.pos) ++ wordsAt 0x01D (levelWords x.pos) ++
    [(0x035, bqWord c.bqax + bqWord c.bqxa * 2 ^ 16),
     (0x036, c.mdi + x.cf.toNat * 2 ^ 4 + c.dndf.toNat * 2 ^ 5 + c.walk.toNat * 2 ^ 32),
     (0x037, c.schmiss.toNat), (0x038, x.tcol.toNat + x.wcol.toNat * 2)] ++
    wordsAt 0x040 (vecNats a.regs) ++ wordsAt 0x060 (vecNats a.mb) ++ wordsAt 0x070 (vecNats x.g) ++
    wordsAt 0x080 (wordNats [x.iO, x.iR, x.iM, x.fO, x.fA, x.fR, x.cO, x.cR]) ++
    wordsAt 0x0A0 (a.replay.flatMap accessWords) ++
    (c.spareData.filter (fun (d : Nat × Word) => decide (a.replay.length ≤ d.1))).map (fun (d : Nat × Word) => (0x0A2 + 4 * d.1, d.2.toNat)) ++
    wordsAt 0x0E0 (x.moves.flatMap moveWords ++ x.ops.flatMap opWords) ++
    wordsAt 0x120 ((List.range 32).flatMap (fun k => [(vecNats c.cc).getD k 0, (vecNats c.csw).getD k 0])) ++
    [(0x160, c.emuCtl.toNat)] ++ wordsAt 0x161 (vecNats c.emu) ++ wordsAt 0x170 (pairUp (vecNats c.fpc)) ++
    wordsAt 0x180 (c.epilogue.toList.flatMap slotNats ++ c.shapes.toList.flatMap slotNats) ++
    [(0x1C0, setBits ((List.range 8).filter (fun k => ((c.epilogue.toList ++ c.shapes.toList).getD k none).isSome))), (0x1C1, c.bars)] ++
    wordsAt 0x1C2 ((List.range 4).map (fun k => bits c.banks.toNat (64 * k + 63) (64 * k))) ++
    [(0x1C6, setBits ((List.range 8).filter (fun k => (c.mask k).any)) + setBits ((List.range 8).filter (fun k => (c.mask k).psn)) * 2 ^ 8)] ++
    wordsAt 0x200 ((c.entries.take 176).flatMap engineWords) ++
    ((List.range 4).zip c.lq.toList).flatMap (fun (q : Nat × Lq) => lqWords (0xD00 + 32 * q.1) q.2) ++
    ((List.range 4).zip c.sq.toList).flatMap (fun (q : Nat × Sq) => sqWords (0xD80 + 32 * q.1) q.2) ++
    wordsAt 0xE00 (c.lq.toList.map lqStat ++ c.sq.toList.map sqStat) ++
    bitWords 0xE40 ((p.tags.filter (fun (t : Nat × Nat) => t.2.testBit 1)).map (fun (t : Nat × Nat) => t.1)) ++
    c.tiles.flatMap (fun (t : Nat × Tile) => tileWords t.1 t.2) ++
    bitWords 0x1800 (p.marks.map (fun (t : Nat × Nat) => t.1)) ++
    ((List.range 16).zip c.lanes.toList).flatMap (fun (l : Nat × Lane) => wordsAt (0x1E00 + 16 * l.1) (laneWords l.2)) ++
    wordsAt 0x1F00 ((bs.take 64).flatMap bindWords) ++
    bitWords 0x1FC0 ((p.tags.filter (fun (t : Nat × Nat) => t.2.testBit 0)).map (fun (t : Nat × Nat) => t.1))).filter (fun w => w.2 != 0)

/-- A cell's context as it stands in its unit: the whole slice. -/
def State.contextOf (s : State) (c : Cell) : Parked :=
  let lo := sliceLoc c.unitOf 0
  let hi := lo + c.ctype.sliceSize
  { cell := c, live := s.mem.window lo hi, marks := s.marks.window (lo / 64) (hi / 64), tags := s.tags.window (lo / 4096) (hi / 4096),
    waggles := s.waggles.window lo hi, corrupt := false }

def State.gangBindings (s : State) (g : Nat) : List Binding := ((s.gang? g).map (·.bindings)).getD []

/-- The cell stands in its unit, stopped on a trap. -/
def State.stoppedCell (s : State) (key : Nat) : Option Cell :=
  match s.cell? key with
  | some c => if !c.gone && c.trap.isSome then some c else none
  | none => none

/-- The word is the progress record of a link command, which the spec leaves open. -/
def Cell.linkRecord (c : Cell) (w : Nat) : Bool :=
  decide (0x200 ≤ w) && decide (w < 0xD00) && (w % 16 == 11 || w % 16 == 12) &&
    (match c.entries[(w - 0x200) / 16]? with
     | some x => x.queue == 5
     | none => false)

/-- A read of a frame word; a word of a cell that is not stopped on a trap reads as 0 (18 R353). -/
def State.readFrame (s : State) (key w : Nat) : Word × State :=
  match s.stoppedCell key with
  | none => (0, s)
  | some c => if c.linkRecord w then s.free else (BitVec.ofNat 64 (frameWord (frameOf (s.contextOf c) (s.gangBindings (gangOfCell key))) w), s)

/-! ## Writes of frame words (18 R353) -/

/-- DATA of a replay entry: the access uses as much of it as it needs, and the word reads back whole (00 R6). -/
def Access.setData (x : Access) (v : Word) : Access :=
  let kind := match x.kind with
    | .store _ => .store (lowBytes v x.width)
    | .atomic op d _ e => .atomic op d v e
    | .xfer d _ => .xfer d (v.setWidth 16)
    | k => k
  { x with kind, spare := BitVec.ofNat 64 (accessData kind).1 ^^^ v }

def setLatch (x : XSeq) (k : Nat) (v : Word) : XSeq :=
  match k with
  | 0 => { x with iO := v }
  | 1 => { x with iR := v }
  | 2 => { x with iM := v }
  | 3 => { x with fO := v }
  | 4 => { x with fA := v }
  | 5 => { x with fR := v }
  | 6 => { x with cO := v }
  | _ => { x with cR := v }

/-- The RW words of the frame; writes to the others are ignored. -/
def Cell.putWord (c : Cell) (w : Nat) (v : Word) : Cell :=
  if 0x040 ≤ w ∧ w < 0x060 then { c with a := c.a.setReg (BitVec.ofNat 5 (w - 0x040)) v }
  else if 0x070 ≤ w ∧ w < 0x080 then
    { c with x := { c.x with g := c.x.g.set (w % 16) v (Nat.mod_lt _ (by decide)) } }
  else if 0x080 ≤ w ∧ w < 0x088 then { c with x := setLatch c.x (w - 0x080) v }
  else if 0x0A0 ≤ w ∧ w < 0x0E0 ∧ w % 4 = 2 then
    match c.a.replay[(w - 0x0A0) / 4]? with
    | some e => { c with a := { c.a with out := c.a.out.map (fun y => if y.id = e.id then y.setData v else y) } }
    | none => { c with spareData := c.spareData.insert ((w - 0x0A0) / 4) v }
  else if w = 0x160 then { c with emuCtl := v &&& 0x107 }
  else if 0x161 ≤ w ∧ w < 0x165 then { c with emu := c.emu.set ((w - 0x161) % 4) (v &&& 0xFFFFFFFF) (Nat.mod_lt _ (by decide)) }
  else c

def State.writeFrame (s : State) (key w : Nat) (v : Word) : State :=
  match s.stoppedCell key with
  | none => s
  | some c => s.setCell key (c.putWord w v)

end Sys2Proof.Machine
end

