-- ==== Sys2Proof/Machine/Queues.lean ====
section
/-! DEFINITION. Work queues, dispatch order and ageing, launch start, completion records and cancel (17 R327 to R333; 21 R411). -/

namespace Sys2Proof.Machine

/-! ## The configuration and the lines of a queue (17 R327, R328) -/

def State.wq (s : State) (n : Nat) : Word := s.wqcfg.getD n 0

def wqEn (w : Word) : Bool := w.getLsbD 63
def wqPri (w : Word) : Nat := bits w.toNat 62 60
def wqPart (w : Word) : Nat := bits w.toNat 59 57
def wqPort (w : Word) : Bool := w.getLsbD 56

/-- Records in the ring; LSZ values 13 to 15 act as 12. -/
def wqRing (w : Word) : Nat := 2 ^ (min (bits w.toNat 54 51) 12 + 4)

/-- The ring's address: path 0x0 for queue memory in HBM, path 0x4 for host memory. -/
def wqBase (w : Word) : Nat := (if w.getLsbD 55 then 4 * 2 ^ 60 else 0) + bits w.toNat 47 6 * 64

def Queue.new : Queue := { head := 0, tail := 0, cseq := 0, cvalid := false, cancels := [], readySince := none }

def State.queue (s : State) (n : Nat) : Queue := s.queues.getD n Queue.new

def State.setQueue (s : State) (n : Nat) (q : Queue) : State := { s with queues := s.queues.insert n q }

/-- The device's access on a path of the translated space, over a port for the host path (06 R128). -/
def State.portSpan (s : State) (p : Nat) (port : Bool) (ea : Word) (len : Nat) (pr : Probe) : Option (List (Option Nat × Nat)) :=
  if bits ea.toNat 63 60 = 4 && !s.portUp[port.toNat]'(by cases port <;> decide) then none else s.deviceSpan p ea len pr

/-- An access of the device to a queue's memory. -/
def State.queueSpan (s : State) (n : Nat) (off : Int) (len : Nat) (pr : Probe) : Option (List (Option Nat × Nat)) :=
  let w := s.wq n
  let b := bits (wqBase w) 47 0
  let a := (wqBase w - b) + wrap 48 (b + off)
  s.portSpan (wqPart w) (wqPort w) (BitVec.ofNat 64 a) len pr

/-- The control line, if the device can read it: TAIL, CSEQ and CVALID. -/
def State.controlLine (s : State) (n : Nat) : Option (BitVec 32 × BitVec 32 × Bool) :=
  (s.queueSpan n (-128) 64 .read).bind (fun ls =>
    if s.placesPoisoned ls then none
    else
      let bs := s.readPlaces ls
      some (BitVec.ofNat 32 (leValue (bs.take 4)), BitVec.ofNat 32 (leValue ((bs.drop 16).take 4)),
        (leValue ((bs.drop 20).take 1)).testBit 0))

/-- Record k of a queue as 512 bits; none when its read faults. -/
def State.record (s : State) (n : Nat) (k : BitVec 32) : Option Nat :=
  (s.queueSpan n (64 * (k.toNat % wqRing (s.wq n) : Nat)) 64 .read).bind (fun ls =>
    if s.placesPoisoned ls then none else some (leValue (s.readPlaces ls)))

def recSeq (r : Nat) : BitVec 32 := BitVec.ofNat 32 (bits r 287 256)
def recCrec (r : Nat) : Word := BitVec.ofNat 64 (bits r 383 320)
def recArgs (r : Nat) : Word := BitVec.ofNat 64 (bits r 447 384)

def pathIs04 (a : Word) : Bool := bits a.toNat 63 60 == 0 || bits a.toNat 63 60 == 4

/-- Limits of CREC and ARGS, and the reserved bits (17 Table 17-2). -/
def crecOk (a : Word) : Bool := pathIs04 a && a.toNat % 128 == 0
def recordOk (r : Nat) : Bool :=
  bits r 223 0 == 0 && bits r 239 236 == 0 && pathIs04 (recArgs r) && (recArgs r).toNat % 64 == 0

/-! ## Observing the control line -/

/-- More records are present than the ring holds (17 R328). -/
def State.overflows (s : State) (n : Nat) (tail : BitVec 32) : Bool :=
  decide (wqRing (s.wq n) < (tail - (s.queue n).head).toNat)

/-- The device observes TAIL: more records than the ring holds is a queue error. -/
def State.observeTail (s : State) (n : Nat) (tail : BitVec 32) : State :=
  if !wqEn (s.wq n) then s
  else
    let s := s.setQueue n { s.queue n with tail }
    if s.overflows n tail then s.queueError n else s

/-- Where the host's write of a part of the control line falls: the host needs no right of the device's pages, and a write of
part of a poisoned unit fails (22 R416). -/
def State.controlPlaces (s : State) (n : Nat) (off : Int) (len : Nat) : Option (List (Option Nat × Nat)) :=
  (s.queueSpan n off len .read).bind (fun ls =>
    if ls.any (fun p => match p.1 with
      | some l => s.partialPoison l p.2
      | none => false) then none else some ls)

/-- The host writes TAIL in the control line, and the device observes it (17 R328). -/
def execWqTailWrite (n : Nat) (tail : BitVec 32) (s : State) : Host.Outcome State Fault Refusal :=
  .next (match s.controlPlaces n (-128) 4 with
    | none => s
    | some ls => (s.writePlaces ls (leBytes 4 tail.toNat)).observeTail n tail)

/-- A control line that was written by other means is to be observed. -/
def State.tailDue (s : State) (n : Nat) : Option (BitVec 32) :=
  if wqEn (s.wq n) && (s.part (wqPart (s.wq n))).live then
    (s.controlLine n).bind (fun c =>
      if c.1 ≠ (s.queue n).tail || s.overflows n c.1 then some c.1 else none)
  else none

/-! ## Completion records (17 R332) -/

/-- Bits 1023 to 0 of a completion record. -/
def packCompletion (seq : BitVec 32) (status : Nat) (hcode : BitVec 16) (dndf : Bool) (nkern : BitVec 32) (wear : Word)
    (fpx : List (BitVec 32)) : Nat :=
  1 + 2 * dndf.toNat + status % 256 * 2 ^ 56 + hcode.toNat * 2 ^ 112 + seq.toNat * 2 ^ 128 + nkern.toNat * 2 ^ 160 +
    wear.toNat * 2 ^ 192 + packElems32 fpx * 2 ^ 256
where
  packElems32 : List (BitVec 32) → Nat
    | [] => 0
    | x :: rest => x.toNat + 2 ^ 32 * packElems32 rest

/-- Write a completion record: bytes 64 to 127 first, then the line that holds DONE. A fault clears EN of the queue. -/
def State.writeCompletion (s : State) (p : Nat) (port : Bool) (n : Nat) (crec : Word) (v : Nat) : State :=
  let bs := leBytes 128 v
  match s.portSpan p port (crec + 64) 64 .write with
  | none => s.queueError n
  | some hi =>
    let s := s.writePlaces hi (bs.drop 64)
    match s.portSpan p port crec 64 .write with
    | none => s.queueError n
    | some lo => s.writePlaces lo (bs.take 64)

/-- A record completes without having run. -/
def State.completeUnrun (s : State) (n : Nat) (r : Nat) (status : Nat) : State :=
  let w := s.wq n
  if crecOk (recCrec r) then
    s.writeCompletion (wqPart w) (wqPort w) n (recCrec r) (packCompletion (recSeq r) status 0 false 0 0 [])
  else s.queueError n

/-! ## Ready queues and their order (17 R330) -/

def State.present (s : State) (n : Nat) : Bool := (s.queue n).head != (s.queue n).tail

/-- A record is at the head of an enabled queue. -/
def State.headReady (s : State) (n : Nat) : Bool :=
  wqEn (s.wq n) && s.present n && (s.part (wqPart (s.wq n))).live

/-- The band after `since` (17 R330). -/
def band (pri : Nat) (since now : Word) : Nat := min 7 (pri + (now - since).toNat / 2700000)

def State.queueBand (s : State) (n : Nat) : Nat := band (wqPri (s.wq n)) ((s.queue n).readySince.getD s.now) s.now

/-- A cancel that was observed at TAIL still names records of the ring. -/
def Queue.cancelHolds (q : Queue) (ring : Nat) (tail : BitVec 32) : Bool :=
  decide (0 < (tail - q.head).toNat) && decide ((tail - q.head).toNat ≤ ring)

/-- The head record is one that a cancel named while the ring held it (17 R333). -/
def State.headCancelled (s : State) (n : Nat) : Bool :=
  let q := s.queue n
  !q.cancels.isEmpty && (match s.record n q.head with
     | some r => q.cancels.any (fun c => q.cancelHolds (wqRing (s.wq n)) c.2 && serialGE c.1.toNat (recSeq r).toNat 32)
     | none => false)

/-- The head record's context is exhausted and held (21 R411). -/
def State.headHeld (s : State) (n : Nat) : Bool :=
  let p := wqPart (s.wq n)
  match s.record n (s.queue n).head with
  | some r => ((s.part p).wpol == 1 || (s.part p).wpol == 3) && (s.quotaRead p (bits r 255 240)).1
  | none => false

/-- The best of the ready queues: the highest band, then round-robin after the queue served last in it (17 R330). -/
def bestQueue (band : Nat → Nat) (served : Nat → Nat) : List Nat → Option Nat
  | [] => none
  | n :: rest =>
    match bestQueue band served rest with
    | none => some n
    | some m =>
      let turn (k : Nat) := (k + 4096 - (served (band k) + 1)) % 4096
      if band m < band n || (band m = band n && turn n < turn m) then some n else some m

/-- The queue served last in a band of a partition; before any, round-robin starts at queue 0. -/
def State.servedIn (s : State) (p b : Nat) : Nat := s.served.getD (p * 8 + b) 4095

def State.partQueues (s : State) (p : Nat) : List Nat :=
  (s.wqcfg.map (·.1)).filter (fun n => decide (wqPart (s.wq n) = p) && s.headReady n)

/-- A free control core of the partition. -/
def State.freeCore (s : State) (p : Nat) : Option Nat :=
  (List.range 16).find? (fun k => (s.part p).layout.cores.getLsbD k && !(s.core k).running && (s.core k).part == some p)

/-- Launches are dispatched (01 R15, 18 R351, 23 R429). -/
def State.dispatching (s : State) (p : Nat) : Bool := s.mixUp && (s.part p).live && !s.pkgstat.getLsbD 0

/-- The queue that the next launch of a partition is taken from: one whose head a cancel has taken, or the best ready one
when a control core is free. -/
def State.nextQueue (s : State) (p : Nat) : Option Nat :=
  let qs := s.partQueues p
  match qs.find? s.headCancelled with
  | some n => some n
  | none =>
    if (s.freeCore p).isNone then none
    else bestQueue s.queueBand (s.servedIn p) (qs.filter (fun n => !s.headHeld n))

/-- Consumption of record k: HEAD := k + 1 in the status line (17 R328). A status line that cannot be written is left. -/
def State.consume (s : State) (n : Nat) : State :=
  let q := s.queue n
  let h := q.head + 1
  let q := { q with head := h, readySince := if h = q.tail then none else some s.now }
  let s := s.setQueue n { q with cancels := q.cancels.filter (fun c => q.cancelHolds (wqRing (s.wq n)) c.2) }
  match s.queueSpan n (-64) 4 .write with
  | none => s
  | some ls =>
    if ls.any (fun p => match p.1 with
      | some l => s.partialPoison l p.2
      | none => false) then s else s.writePlaces ls (leBytes 4 h.toNat)

/-- The mailboxes that 128 bytes hold. -/
def mailboxes (bs : List Byte) : Vector Word 16 :=
  Vector.ofFn (fun (i : Fin 16) => BitVec.ofNat 64 (leValue ((bs.drop (8 * i.val)).take 8)))

/-- Start record r of queue n on control core k with mailboxes mb (17 R331). -/
def State.startLaunch (s : State) (n r k : Nat) (mb : Vector Word 16) : State :=
  let w := s.wq n
  let p := wqPart w
  let id := s.nextLaunch
  let ctx := bits r 255 240
  let l : Launch :=
    { part := p, queue := n, port := wqPort w, seq := recSeq r, seed := BitVec.ofNat 32 (bits r 319 288), ctx,
      gnum := bits r 235 224, crec := recCrec r, core := some k, home := k, band := s.queueBand n,
      derated := (s.part p).wpol == 2 && (s.quotaRead p ctx).1, issued := 0, cmds := [], ended := none, nkern := 0,
      fpx := Vector.replicate 24 0, wear := 0, dndf := false }
  ({ s with launches := s.launches.insert id l, nextLaunch := id + 1 }).setCore k
    { s.core k with
      a := ASeq.fresh (BitVec.ofNat 64 (bits r 511 448)) mb, priv := .user, launch := some id, dndf := false, trap := none,
      wait := none, running := true }

/-- A launch that could start is held because the read of its quota faults, and ERR does not say so yet (21 R411). -/
def State.heldByFault (s : State) (p : Nat) : Bool :=
  (s.freeCore p).isSome && !(s.part p).wqtab.getLsbD 1 && (s.partQueues p).any (fun n => s.headHeld n &&
    (match s.record n (s.queue n).head with
     | some r => (s.quotaRead p (bits r 255 240)).2
     | none => false))

/-- The quota of the head record's context is read as its launch starts; a read that faults sets ERR (21 R411). -/
def State.noteQuota (s : State) (n r : Nat) : State :=
  let p := wqPart (s.wq n)
  if (s.quotaRead p (bits r 255 240)).2 then s.quotaErr p else s

/-- Take the head record of queue n. -/
def State.takeRecord (s : State) (n : Nat) : State :=
  let w := s.wq n
  let p := wqPart w
  match s.record n (s.queue n).head with
  | none => s.queueError n
  | some r =>
    let s := { s with served := s.served.insert (p * 8 + s.queueBand n) n }
    if s.headCancelled n then (s.consume n).completeUnrun n r 1
    else if !crecOk (recCrec r) || !recordOk r then (s.consume n).completeUnrun n r 3
    else match s.freeCore p, s.portSpan p (wqPort w) (recArgs r) 128 .read with
      | none, _ => s
      | _, none => (s.consume n).completeUnrun n r 3
      | some k, some ls =>
        if s.placesPoisoned ls then (s.consume n).completeUnrun n r 3
        else ((s.noteQuota n r).startLaunch n r k (mailboxes (s.readPlaces ls))).consume n

def State.launchDue (s : State) (p : Nat) : Bool :=
  decide (p < 8) && s.dispatching p && (s.heldByFault p || (s.nextQueue p).isSome)

/-- LAUNCH_START (17 R330, R331). -/
def execLaunchStart (part : Nat) (s : State) : Host.Outcome State Fault Refusal :=
  event (s.launchDue part) s
    (if s.heldByFault part then s.quotaErr part
     else match s.nextQueue part with
     | some n => s.takeRecord n
     | none => s)

/-! ## Ageing (17 R330) -/

/-- The cycle since which a queue's head has been ready. -/
def Queue.age (q : Queue) (ready : Bool) (now : Word) : Queue :=
  { q with readySince := if ready then some (q.readySince.getD now) else none }

/-- Queues whose head has become ready or ceased to be. -/
def State.ageing (s : State) : List Nat :=
  (s.wqcfg.map (·.1)).filter (fun n => (s.queue n).readySince.isSome != s.headReady n)

/-- LAUNCH_AGEING: the time from which a head's band rises is kept for each queue. Bands follow from it (`band`). -/
def execLaunchAgeing (s : State) : Host.Outcome State Fault Refusal :=
  .next (s.ageing.foldl (fun s n => s.setQueue n ((s.queue n).age (s.headReady n) s.now)) s)

/-! ## Completion (17 R332) -/

/-- The program has ended and every command has completed: the launch has completed, and no cancel reaches it. -/
def Launch.completed (x : Launch) : Bool := x.ended.isSome && x.cmds.all (·.done)

/-- A launch that has completed gets its record once its wear is charged, in a stopped partition too (17 R332, 18 R351; log 15). -/
def State.completionDue (s : State) (l : Nat) : Bool :=
  match s.launches.find? l with
  | some x => x.completed && (s.part x.part).formed && !s.stays.any (fun y => y.launch == some l)
  | none => false

/-- The completion record of a launch is written and its resources are freed. -/
def State.finishLaunch (s : State) (l : Nat) : State :=
  match s.launches.find? l with
  | none => s
  | some x =>
    let e := x.ended.getD (0, 0)
    let v := packCompletion x.seq e.1 (if e.1 = 2 then e.2 else 0) x.dndf x.nkern x.wear x.fpx.toList
    { s.writeCompletion x.part x.port x.queue x.crec v with launches := s.launches.remove l }

/-- LAUNCH_COMPLETION (17 R332). -/
def execLaunchCompletion (launch : Nat) (s : State) : Host.Outcome State Fault Refusal :=
  event (s.completionDue launch) s (s.finishLaunch launch)

/-! ## Cancel (17 R333) -/

/-- Cancel one command of a launch: a gang is discarded, anything else completes with status 0x01. -/
def State.cancelCmd (s : State) (l : Nat) (c : StreamCmd) : State :=
  if c.done then s
  else match c.gang.bind (fun g => if (s.gang? g).isSome then some g else none) with
    | some g => s.discardGang g 1
    | none =>
      (s.modLaunch l (fun x => x.complete c.handle 1)).orphanMirrors ((s.launches.find? l).map (·.part) |>.getD 0)
        (fun o => o == .stream l c.handle)

/-- A running launch is cancelled: its program stops, and its commands complete with status 0x01. One that has completed
stays as it is. -/
def State.cancelLaunch (s : State) (l : Nat) : State :=
  match s.launches.find? l with
  | none => s
  | some x =>
    if x.completed then s
    else
    let s := match x.core with
      | some k => s.endProgram k 1 0
      | none => s
    let s := s.modLaunch l (fun x => { x with ended := some (1, 0) })
    x.cmds.foldl (fun s c => s.cancelCmd l c) s

/-- The device observes a cancel: the running launches it names are cancelled, and so are the records the ring then holds, up
to TAIL of the control line. What an earlier cancel has named stays cancelled. -/
def State.observeCancel (s : State) (n : Nat) (cseq : BitVec 32) (valid : Bool) : State :=
  let q := s.queue n
  let tail := ((s.controlLine n).map (·.1)).getD q.tail
  let more := valid && q.cancelHolds (wqRing (s.wq n)) tail && !q.cancels.contains (cseq, tail)
  let s := s.setQueue n { q with cseq, cvalid := valid, cancels := if more then q.cancels ++ [(cseq, tail)] else q.cancels }
  if valid then
    (s.launches.filter (fun p => p.2.queue == n && serialGE cseq.toNat p.2.seq.toNat 32)).foldl
      (fun s p => s.cancelLaunch p.1) s
  else s

/-- The host writes CVALID = 1 and CSEQ in the control line, and the device observes it. -/
def execWqCancel (n : Nat) (cseq : BitVec 32) (s : State) : Host.Outcome State Fault Refusal :=
  .next (match s.controlPlaces n (-112) 8 with
    | none => s
    | some ls => (s.writePlaces ls (leBytes 8 (cseq.toNat + 2 ^ 32))).observeCancel n cseq true)

/-- A host's write of HBM reaches control lines: the device observes each (17 R328, R333). -/
def State.observeLines (s : State) (pa len : Nat) : State :=
  (s.wqcfg.map (·.1)).foldl (fun s n =>
    if ((s.queueSpan n (-128) 64 .read).getD []).any (fun x => match x.1 with
        | some l => decide (l < pa + len) && decide (pa < l + x.2)
        | none => false) then
      match s.controlLine n with
      | some c => (s.observeTail n c.1).observeCancel n c.2.1 c.2.2
      | none => s
    else s) s

/-- Every record that a queue still holds is consumed and completes with status 0x01; one that cannot be read clears EN
(17 R329). -/
def State.cancelRecords (s : State) (n : Nat) : Nat → State
  | 0 => s
  | fuel + 1 =>
    if !s.present n then s
    else match s.record n (s.queue n).head with
      | none => s.queueError n
      | some r => ((s.consume n).completeUnrun n r 1).cancelRecords n fuel

/-- A cancel written by other means is to be observed. -/
def State.cancelDue (s : State) (n : Nat) : Option (BitVec 32) :=
  if (s.part (wqPart (s.wq n))).live then
    (s.controlLine n).bind (fun c =>
      if c.2.2 && (!(s.queue n).cvalid || (s.queue n).cseq != c.2.1) then some c.2.1 else none)
  else none

end Sys2Proof.Machine
end

