-- ==== Sys2Proof/Machine/Stream.lean ====
section
/-! DEFINITION. The stream controller and the gang dispatcher: eligibility, kernel descriptors and images, placement, stream
transfers (17 R335 to R342; 06 R130; 07 R153; 18 R359, R366). -/

namespace Sys2Proof.Machine

def State.launchCmd? (s : State) (l handle : Nat) : Option StreamCmd :=
  (s.launches.find? l).bind (fun x => x.cmds.find? (fun c => c.handle == handle && !c.done))

def State.modCmd (s : State) (l handle : Nat) (f : StreamCmd → StreamCmd) : State :=
  s.modLaunch l (fun x => { x with cmds := x.cmds.map (fun c => if c.handle = handle && !c.done then f c else c) })

def State.completeCmd (s : State) (l handle status : Nat) : State := s.modLaunch l (fun x => x.complete handle status)

/-! ## Eligibility (17 R336) -/

/-- The status of the k-th command of a launch, once it has completed. -/
def Launch.statusOf (x : Launch) (k : Nat) : Option Nat := (x.cmds.find? (fun c => c.number == k)).bind (·.status)

/-- Every named command has completed. -/
def Launch.eligible (x : Launch) (c : StreamCmd) : Bool := c.waits.all (fun k => (x.statusOf k).isSome)

/-- A named command completed with a non-zero status. -/
def Launch.failedWait (x : Launch) (c : StreamCmd) : Bool := c.waits.any (fun k => (x.statusOf k).getD 0 != 0)

/-- The stream controller is usable (23 R432). -/
def State.controllerReady (s : State) : Bool := s.rdymap0.getLsbD 5

/-- A replayable fault that waits for a ptupd has seen none since (17 R339). -/
def StreamCmd.parked (c : StreamCmd) (changes : Nat) : Bool :=
  match c.blocked with
  | some b => b.2 == changes
  | none => false

/-- A replayable translation fault of the stream controller: one record for a page, then the command waits (17 R339). -/
def State.streamFault (s : State) (l : Nat) (x : Launch) (c : StreamCmd) (code opnd : Nat) (addr : Word) : State :=
  let page := addr.toNat / 4096
  let fresh := match c.blocked with
    | some b => b.1 != page
    | none => true
  let s := s.modCmd l c.handle (fun c => { c with blocked := some (page, (s.part x.part).changes) })
  if fresh then
    s.report x.part
      { kind := 0x09, code, cls := .replayable, sq := false, eng := true, cc := true, cell := x.home, gid := 0,
        queue := x.queue, seq := x.seq, info := BitVec.ofNat 64 (6 + opnd * 2 ^ 16), cyc := s.now, pc := 0, addr }
  else s

/-- What the controller finds at an address, as the launch's core would: the places, or what becomes of the command. -/
inductive Found where
  | places (ls : List (Option Nat × Nat))
  | waits (code : Nat) (addr : Word)
  | fails
  deriving DecidableEq, Repr

def State.streamSpan (s : State) (x : Launch) (ea : Word) (len : Nat) (pr : Probe) : Found :=
  match s.span (.core x.home) true ea len pr with
  | .ok ls => .places ls
  | .error (a, .xlatFault c) => if xlatReplayable c then .waits c a else .fails
  | .error _ => .fails

/-- The bytes of a descriptor or image. -/
inductive Bytes where
  | ok (bs : List Byte)
  | waits (code : Nat) (addr : Word)
  | fails
  /-- An uncorrectable error is consumed. -/
  | poisoned
  deriving DecidableEq, Repr

def State.streamBytes (s : State) (x : Launch) (ea : Word) (len : Nat) : Bytes :=
  match s.streamSpan x ea len .read with
  | .places ls => if s.placesPoisoned ls then .poisoned else .ok (s.readPlaces ls)
  | .waits c a => .waits c a
  | .fails => .fails

/-! ## Kernel descriptor and image (17 Tables 17-4, 17-5) -/

/-- The field of `n` bytes at byte `k`. -/
def field (bs : List Byte) (k n : Nat) : Nat := leValue ((bs.drop k).take n)

def zeros (bs : List Byte) (k n : Nat) : Bool := ((bs.drop k).take n).all (· == 0)

def typeOfCode : Nat → Option CellType
  | 1 => some .matrix
  | 2 => some .vector
  | 3 => some .gather
  | _ => none

/-- NROLE and NBIND as they are read, held to the lengths the table allows. -/
def imageLen (hd : List Byte) : Nat := 64 + 48 * min (field hd 0 2) 16 + 8 * min (field hd 2 2) 64

def parseRole (bs : List Byte) (k : Nat) : Role :=
  let r := (bs.drop (64 + 48 * k)).take 48
  { ctype := (typeOfCode (field r 0 1)).getD .matrix, count := field r 2 2, dlen := field r 4 4,
    aEntry := BitVec.ofNat 64 (field r 8 8), xEntry := BitVec.ofNat 64 (field r 16 8), data := BitVec.ofNat 64 (field r 24 8),
    acc := field r 32 2, bfirst := field r 34 1, bcount := field r 35 1, bytes := [] }

def roleReserved (bs : List Byte) (k : Nat) : Bool :=
  let r := (bs.drop (64 + 48 * k)).take 48
  (typeOfCode (field r 0 1)).isSome && zeros r 1 1 && zeros r 36 12

/-- Bind entries as (region offset, region length, object offset). -/
def parseBind (bs : List Byte) (nrole k : Nat) : Nat × Nat × Nat :=
  let b := (bs.drop (64 + 48 * nrole + 8 * k)).take 8
  (field b 0 3, field b 3 3, field b 6 2 * 64)

/-- The extents after the descriptor's overrides. -/
def extents (d bs : List Byte) : List Nat :=
  (List.range 6).map (fun k =>
    if bit (field d 0 64) (170 + k) then bits (field d 0 64) (64 + 16 * k + 15) (64 + 16 * k) else field bs (16 + 2 * k) 2)

def parseNest (d bs : List Byte) : Nest :=
  let n := field bs 6 1
  let e := (extents d bs).take n
  { ndim := n, extents := e, perm := (List.range n).map (fun q => bits (field bs 28 4) (3 * q + 2) (3 * q)),
    total := e.foldl (· * ·) 1 }

def isPerm (n : Nat) (p : List Nat) : Bool := (List.range n).all (fun k => p.contains k)

/-- The ranges follow one another and cover 0 to n - 1. -/
def bindsCover (n : Nat) : Nat → List Role → Bool
  | at_, [] => at_ == n
  | at_, r :: rest => (r.bcount == 0 || r.bfirst == at_) && bindsCover n (at_ + r.bcount) rest

def roleCells (roles : List Role) : Nat := (roles.map (·.count)).foldl (· + ·) 0

/-- Every region and object of a role's binds lies in its slice. -/
def bindsFit (binds : List (Nat × Nat × Nat)) (r : Role) : Bool :=
  ((binds.drop r.bfirst).take r.bcount).all (fun b =>
    decide (b.1 + b.2.1 ≤ r.ctype.sliceSize) && decide (b.2.2 + 64 ≤ r.ctype.sliceSize))

/-- Table 17-6, status 0x04. -/
def kernelValid (d bs : List Byte) (roles : List Role) (binds : List (Nat × Nat × Nat)) (nest : Nest) : Bool :=
  let h := field d 0 64
  let nrole := field bs 0 2
  bits h 511 192 == 0 && bits h 179 176 == 0 && bits h 169 167 == 0 && bits h 165 160 == 0 &&
  (List.range 6).all (fun k => !(bit h (170 + k) && decide (nest.ndim ≤ k))) &&
  decide (1 ≤ nrole) && decide (nrole ≤ 16) && decide (field bs 2 2 ≤ 64) && zeros bs 4 2 &&
  decide (1 ≤ nest.ndim) && decide (nest.ndim ≤ 6) && zeros bs 7 1 &&
  (List.range 6).all (fun k => decide (k < nest.ndim) || field bs (16 + 2 * k) 2 == 0) &&
  isPerm nest.ndim nest.perm && bits (field bs 28 4) 31 18 == 0 && decide (field bs 32 1 ≤ 1) && zeros bs 33 31 &&
  (List.range nrole).all (roleReserved bs) && decide (roleCells roles ≤ 448) &&
  roles.all (fun r => decide (r.dlen ≤ r.ctype.sliceSize) && decide (r.acc ≤ 256) && (r.acc == 0 || r.ctype == .matrix) &&
    bindsFit binds r) &&
  bindsCover (field bs 2 2) 0 roles && decide (nest.total < 2 ^ 32)

/-- Cells of a type that the roles need. -/
def cellsNeeded (roles : List Role) (t : CellType) : Nat := roleCells (roles.filter (fun r => r.ctype = t))

/-- H of 18 R366. -/
def haltBound (plat : Nat) (roles : List Role) : Nat :=
  plat + (if roles.any (fun r => r.ctype = .matrix) then 16640 else if roles.any (fun r => r.ctype = .vector) then 148 else 0)

/-- The roles of an image whose TYPE names a cell type. -/
def typedRoles (bs : List Byte) (roles : List Role) : List Role :=
  (roles.zipIdx.filter (fun r => (typeOfCode (field bs (64 + 48 * r.2) 1)).isSome)).map (·.1)

/-- The .data images of the roles, in order. -/
def State.readData (s : State) (x : Launch) (img : List Byte) : List (Role × Nat) → Bytes ⊕ List Role
  | [] => .inr []
  | (r, k) :: rest =>
    if r.ctype.sliceSize < r.dlen || (typeOfCode (field img (64 + 48 * k) 1)).isNone then (match s.readData x img rest with
      | .inr rs => .inr (r :: rs)
      | .inl b => .inl b)
    else match s.streamBytes x r.data r.dlen with
      | .ok bs => (match s.readData x img rest with
        | .inr rs => .inr ({ r with bytes := bs } :: rs)
        | .inl b => .inl b)
      | b => .inl b

/-- IMAGE names path 0x0 and a multiple of 64 (17 Table 17-4); otherwise the descriptor is invalid, status 0x04 (log 110). -/
def imagePathOk (a : Word) : Bool := bits a.toNat 63 60 == 0 && a.toNat % 64 == 0

/-- The kernel as read, or what becomes of the klaunch. -/
inductive Read where
  | kernel (k : Kernel)
  | waits (code : Nat) (addr : Word)
  | status (c : Nat)
  deriving DecidableEq, Repr

def Bytes.toRead : Bytes → Read
  | .waits c a => .waits c a
  | _ => .status 0x06

/-- The admissible cells of the share, busy or idle, are too few for some role's type (01 R21, 17 R338). -/
def State.unitsShort (s : State) (x : Launch) (cl : Nat) (timed : Bool) (roles : List Role) : Bool :=
  [CellType.matrix, .vector, .gather].any (fun t =>
    decide ((s.admissibleUnits x.part cl t timed x.derated).length < cellsNeeded roles t))

/-- The checks of Table 17-6, in its order, on what has been read. -/
def State.checkKernel (s : State) (x : Launch) (d bs : List Byte) (roles : List Role) : Read :=
  let h := field d 0 64
  let p := s.part x.part
  let cl := bits h 166 166
  let timed := bit (field bs 32 1) 0
  let binds := (List.range (min (field bs 2 2) 64)).map (parseBind bs (min (field bs 0 2) 16))
  let nest := parseNest d bs
  let live := field bs 8 4
  let plat := field bs 12 4
  let typed := typedRoles bs roles
  if s.unitsShort x cl timed typed then .status 0x02
  else if bits p.plimit.toNat 63 32 < haltBound plat typed || min (bits p.plimit.toNat 19 0) 720896 < live then .status 0x03
  else if !kernelValid d bs roles binds nest then .status 0x04
  else .kernel
    { gnum := (x.gnum + bits h 191 180) % 4096, cl, roles, binds, nest, live, plat, timed,
      mbs := (List.range 16).map (fun k => BitVec.ofNat 64 (field d (64 + 8 * k) 8)) }

/-- Read a klaunch's descriptor and image and check them (17 R337, R338). -/
def State.readKernel (s : State) (x : Launch) (desc : Word) : Read :=
  match s.streamBytes x desc 192 with
  | .ok d =>
    let image := BitVec.ofNat 64 (field d 0 8)
    if !imagePathOk image then .status 0x04
    else match s.streamBytes x image 64 with
      | .ok hd =>
        match s.streamBytes x image (imageLen hd) with
        | .ok bs =>
          match s.readData x bs ((List.range (min (field bs 0 2) 16)).map (parseRole bs)).zipIdx with
          | .inr roles => s.checkKernel x d bs roles
          | .inl b => b.toRead
        | b => b.toRead
      | b => b.toRead
  | b => b.toRead

def State.kernelDue (s : State) (l handle : Nat) : Bool :=
  match s.launches.find? l, s.launchCmd? l handle with
  | some x, some c => s.controllerReady && c.kind == .klaunch && c.gang.isNone && x.eligible c && (s.part x.part).live &&
      !c.parked (s.part x.part).changes && (match c.kernel with
        | some k => s.unitsShort x k.cl k.timed k.roles
        | none => true)
  | _, _ => false

/-- KERNEL_ELIGIBLE: an eligible klaunch is read and checked, or completes without running (17 R336 to R339). One that waits
for cells is rejected when units that it needs fail or retire (01 R21). -/
def execKernelEligible (launch handle : Nat) (s : State) : Host.Outcome State Fault Refusal :=
  event (s.kernelDue launch handle) s
    (match s.launches.find? launch, s.launchCmd? launch handle with
     | some x, some c =>
       let s := s.modCmd launch handle (fun c => { c with eligibleAt := some (c.eligibleAt.getD s.now) })
       if x.failedWait c then s.completeCmd launch handle 0x08
       else if c.kernel.isSome then s.completeCmd launch handle 0x02
       else match s.readKernel x c.desc with
         | .kernel k => s.modCmd launch handle (fun c => { c with kernel := some k, blocked := none })
         | .waits code a => s.streamFault launch x c code 1 a
         | .status st => s.completeCmd launch handle st
     | _, _ => s)

/-! ## Placement (17 R338; 18 R359; 21 R407) -/

/-- The lowest GID that no live gang of the partition holds (18 R359), and no save or swap names. -/
def State.freeGid (s : State) (p : Nat) : Option Nat :=
  (List.range 1024).find? (fun g => (s.gang? (p * 1024 + g)).isNone && !s.inExchange (p * 1024 + g))

/-- Units for the roles in order, each taken from those not yet taken; none when too few are free. -/
def takeUnits (free : CellType → List Nat) : List (CellType × Nat) → List Nat → Option (List Nat)
  | [], _ => some []
  | (t, n) :: rest, used =>
    let us := ((free t).filter (fun u => !used.contains u)).take n
    if us.length < n then none
    else (takeUnits free rest (used ++ us)).map (us ++ ·)

def State.unitsFor (s : State) (x : Launch) (k : Kernel) : Option (List Nat) :=
  takeUnits (fun t => s.freeUnits x.part k.cl t k.timed x.derated) (k.roles.map (fun r => (r.ctype, r.count))) []

/-- The cells of a role from its first logical index on (17 R342). -/
def roleCellsOf (k : Kernel) (q : Nat) (r : Role) (first : Nat) (units : List Nat) : List (Nat × Cell) :=
  (List.range r.count).map (fun j =>
    let u := units.getD (first + j) 0
    let lo := j * k.nest.total / r.count
    let c := Cell.fresh r.ctype (u / 32) (u % 32) r.aEntry r.xEntry
      (Vector.ofFn (fun (i : Fin 16) => k.mbs.getD i.val 0))
    (first + j, { c with
      role := q, r := j, nR := r.count, declared := r.acc, first := lo
      count := (j + 1) * k.nest.total / r.count - lo }))

/-- The cells of every role, in declaration order. -/
def kernelCells (k : Kernel) (units : List Nat) : Nat → Nat → List Role → List (Nat × Cell)
  | _, _, [] => []
  | q, first, r :: rest => roleCellsOf k q r first units ++ kernelCells k units (q + 1) (first + r.count) rest

/-- The entries that .bind directives install (07 R153). -/
def roleBindings (k : Kernel) (q : Nat) (r : Role) : List Binding :=
  ((k.binds.drop r.bfirst).take r.bcount).map (fun b =>
    { object := b.2.2, base := b.1, len := b.2.1, perCell := some q, translated := false })

def kernelBindings (k : Kernel) : Nat → List Role → List Binding
  | _, [] => []
  | q, r :: rest => roleBindings k q r ++ kernelBindings k (q + 1) rest

/-- The slice of a cell at dispatch: its .data image from offset 0, zeros, and its role's objects (06 R130, 07 R153). -/
def State.fillSlice (s : State) (k : Kernel) (c : Cell) : State :=
  let s := s.clearCellSlice c
  let r := k.roles.getD c.role { ctype := c.ctype, count := 0, dlen := 0, aEntry := 0, xEntry := 0, data := 0, acc := 0, bfirst := 0, bcount := 0, bytes := [] }
  let s := { s with mem := writeBytes s.mem (sliceLoc c.unitOf 0) r.bytes }
  ((k.binds.drop r.bfirst).take r.bcount).foldl (fun s b =>
    let l := sliceLoc c.unitOf b.2.2
    (s.putBytes l (objectBytes 0xFFFF)).setMark l true) s

/-- Pending rate steps of dies on which no gang is resident take effect at the next dispatch there (15 R312). -/
def State.applyIdlePends (s : State) (slots : List Nat) : State :=
  { s with lnkst := s.lnkst.map (fun p =>
      let dies := linkDies p.1
      if dies.any slots.contains && !s.cells.any (fun c => !c.2.gone && dies.contains c.2.slot) then (p.1, applyPend p.2)
      else p) }

/-- A timed gang holds the nominal clock of the cells it stands on; healthy cells have it anyway (21 R406). -/
def State.placeGang (s : State) (l : Nat) (x : Launch) (c : StreamCmd) (k : Kernel) (gid : Nat) (units : List Nat) : State :=
  let g := x.part * 1024 + gid
  let b := s.now + 144
  let cells := kernelCells k units 0 0 k.roles
  let gang : Gang :=
    { uid := s.nextGang, launch := some l, handle := c.handle, queue := x.queue, seq := x.seq, seed := x.seed, gnum := k.gnum, cl := k.cl,
      ncells := cells.length, state := .starting, base := b, timed := k.timed, live := k.live, plat := k.plat,
      det := (s.part x.part).layout.det, nest := k.nest, bindings := kernelBindings k 0 k.roles, incs := [],
      fpx := Vector.replicate 24 0, dndf := false, wear := 0, fpSent := [], haltedAt := 0, startsAt := b, saveArea := 0, doomed := none }
  let s := cells.foldl (fun s p => s.clearRo p.2.slot) (s.applyIdlePends (cells.map (·.2.slot)))
  let s := cells.foldl (fun s p => (s.fillSlice k p.2).setCell (cellKey g p.1) p.2) (s.setGang g gang)
  ({ s with nextGang := s.nextGang + 1 }.modCmd l c.handle (fun c => { c with gang := some g })).openStays g b

/-! ### The order among waiting kernels (17 R330, R338) -/

/-- The band of a waiting kernel: that of its launch, aged from the moment it became eligible. -/
def StreamCmd.band (c : StreamCmd) (x : Launch) (now : Word) : Nat := Machine.band x.band (c.eligibleAt.getD now) now

/-- Waiting kernels of a partition that can be placed: launch, handle, band and queue. -/
def State.placeable (s : State) (p : Nat) : List (Nat × Nat × Nat × Nat) :=
  (s.launches.filter (fun q => q.2.part == p)).flatMap (fun q =>
    (q.2.cmds.filter (fun c => !c.done && c.gang.isNone && (match c.kernel with
      | some k => (s.unitsFor q.2 k).isSome
      | none => false))).map (fun c =>
        (q.1, c.handle, c.band q.2 s.now, q.2.queue)))

/-- The queue served last among kernels of a band. -/
def State.kernelServedIn (s : State) (p b : Nat) : Nat := s.served.getD (64 + p * 8 + b) 4095

def bestKernel (served : Nat → Nat) : List (Nat × Nat × Nat × Nat) → Option (Nat × Nat × Nat × Nat)
  | [] => none
  | k :: rest =>
    match bestKernel served rest with
    | none => some k
    | some m =>
      let turn (q : Nat × Nat × Nat × Nat) := (q.2.2.2 + 4096 - (served q.2.2.1 + 1)) % 4096
      if m.2.2.1 < k.2.2.1 || (m.2.2.1 = k.2.2.1 && turn k ≤ turn m) then some k else some m

def State.nextKernel (s : State) (p : Nat) : Option (Nat × Nat × Nat × Nat) := bestKernel (s.kernelServedIn p) (s.placeable p)

def State.dispatchDue (s : State) (l handle : Nat) : Bool :=
  match s.launches.find? l with
  | some x => s.dispatching x.part && (s.freeGid x.part).isSome && (s.launchCmd? l handle).isSome &&
      (match s.nextKernel x.part with
       | some k => k.1 == l && k.2.1 == handle
       | none => false)
  | none => false

/-- GANG_DISPATCH (17 R338; 16 R315): B is 144 cycles after the decision. -/
def execGangDispatch (launch handle : Nat) (s : State) : Host.Outcome State Fault Refusal :=
  event (s.dispatchDue launch handle) s
    (match s.launches.find? launch, s.launchCmd? launch handle with
     | some x, some c =>
       match c.kernel, s.freeGid x.part with
       | some k, some gid =>
         match s.unitsFor x k with
         | some us =>
           { s.placeGang launch x c k gid us with served := s.served.insert (64 + x.part * 8 + c.band x s.now) x.queue }
         | none => s
       | _, _ => s
     | _, _ => s)

/-! ## Stream transfers (17 R339) -/

/-- The buffer side of a transfer lies in one buffer slice. -/
def bufferSpanOk (a : Word) (len : Nat) : Bool :=
  bits a.toNat 63 60 == 1 && decide (16 ≤ bits a.toNat 39 35) && decide (bits a.toNat 39 35 < 24) &&
    decide (bits a.toNat 29 0 + len ≤ bufferSliceSize)

def memorySideOk (a : Word) : Bool := [0, 2, 4, 5].contains (bits a.toNat 63 60)

/-- A stream descriptor: SRC, DST and LEN, or none when it breaks R339. -/
def parseStream (kind : StreamKind) (bs : List Byte) : Option (Word × Word × Nat) :=
  let src := BitVec.ofNat 64 (field bs 0 8)
  let dst := BitVec.ofNat 64 (field bs 8 8)
  let len := field bs 16 5
  let mem := if kind = .sxin then src else dst
  let buf := if kind = .sxin then dst else src
  if zeros bs 21 43 && memorySideOk mem && bufferSpanOk buf len then some (src, dst, len) else none

/-- Bytes of the next part of a transfer: up to the end of a 64-byte line of either side. -/
def chunk (src dst : Word) (moved len : Nat) : Nat :=
  min (len - moved) (min (64 - (src.toNat + moved) % 64) (64 - (dst.toNat + moved) % 64))

def State.streamDue (s : State) (l handle : Nat) : Bool :=
  match s.launches.find? l, s.launchCmd? l handle with
  | some x, some c => s.controllerReady && c.kind != .klaunch && x.eligible c && (s.part x.part).live && !c.parked (s.part x.part).changes &&
      (match c.xfer with
       | some t => decide (c.moved < t.2.2)
       | none => true)
  | _, _ => false

/-- The writes of a transfer on the mirrored path are duplicated (22 R420). -/
def State.streamMirror (s : State) (p l handle : Nat) (dst : Word) (ls : List (Option Nat × Nat)) (bs : List Byte) : State :=
  if !isMirrored dst then s
  else match ls with
    | (some loc, _) :: _ => s.sendMirror p (.stream l handle) dst.toNat loc bs
    | _ => s

/-- Copy the next part of a transfer. -/
def State.moveChunk (s : State) (l : Nat) (x : Launch) (c : StreamCmd) (src dst : Word) (len : Nat) : State :=
  let n := chunk src dst c.moved len
  let a := src + BitVec.ofNat 64 c.moved
  let b := dst + BitVec.ofNat 64 c.moved
  match s.streamSpan x a n .read with
  | .waits code at_ => s.streamFault l x c code 1 at_
  | .fails => s.completeCmd l c.handle 0x06
  | .places from_ =>
    match s.streamSpan x b n .write with
    | .waits code at_ => s.streamFault l x c code 2 at_
    | .fails => s.completeCmd l c.handle 0x06
    | .places to_ =>
      let bad (p : Option Nat × Nat) : Bool := match p.1 with
        | some loc => s.partialPoison loc p.2
        | none => false
      let obj (p : Option Nat × Nat) : Bool := match p.1 with
        | some loc => s.hitsObject loc p.2
        | none => false
      if s.placesPoisoned from_ || to_.any bad then s.completeCmd l c.handle 0x07
      else if to_.any obj then s.completeCmd l c.handle 0x06
      else
        let bs := s.readPlaces from_
        ((s.writePlaces to_ bs).streamMirror x.part l c.handle b to_ bs).modCmd l c.handle
          (fun c => { c with moved := c.moved + n, blocked := none })

/-- STREAM_TRANSFER: the descriptor is read (status 0x06 where a page stops it, 0x07 where it is poisoned, Table 17-6), then the bytes are copied in ascending order (17 R339). -/
def execStreamTransfer (launch handle : Nat) (s : State) : Host.Outcome State Fault Refusal :=
  event (s.streamDue launch handle) s
    (match s.launches.find? launch, s.launchCmd? launch handle with
     | some x, some c =>
       if x.failedWait c then s.completeCmd launch handle 0x08
       else match c.xfer with
         | some t => s.moveChunk launch x c t.1 t.2.1 t.2.2
         | none =>
           match s.streamBytes x c.desc 64 with
           | .waits code a => s.streamFault launch x c code 1 a
           | .fails => s.completeCmd launch handle 0x06
           | .poisoned => s.completeCmd launch handle 0x07
           | .ok bs =>
             match parseStream c.kind bs with
             | some t => s.modCmd launch handle (fun c => { c with xfer := some t, blocked := none })
             | none => s.completeCmd launch handle 0x06
     | _, _ => s)

def State.streamDone (s : State) (l handle : Nat) : Bool :=
  match s.launches.find? l, s.launchCmd? l handle with
  | some x, some c => (match c.xfer with
      | some t => c.moved == t.2.2
      | none => false) && !(s.part x.part).mirrorOut.any (fun w => w.owner == .stream l handle)
  | _, _ => false

/-- STREAM_COMPLETION: every byte is written, and the command completes with status 0x00 (17 R336). -/
def execStreamCompletion (launch handle : Nat) (s : State) : Host.Outcome State Fault Refusal :=
  event (s.streamDone launch handle) s (s.completeCmd launch handle 0)

end Sys2Proof.Machine
end

