-- ==== Sys2Proof/Machine/Swap.lean ====
section
/-! DEFINITION. Pre-emption, the cap banks and the fast swap (18 R365 to R368). -/

namespace Sys2Proof.Machine

/-! ## Halting (18 R366) -/

/-- A link command stands between two of its steps: a lord is held at its sender or gone, an lwag waits at its line (15 R305 to
R309). One that waits for the stores that it releases may stand at its end. -/
def Cell.linkSettled (c : Cell) (x : Cmd) : Bool :=
  x.state != .active || (match x.instr with
    | .lord .. => x.prog == 0
    | .lwag .. => x.prog == 2 || (x.prog == 3 && c.coveredStores x)
    | _ => true)

/-- The matrix engine stops at retirement, every other engine between two units of its work, with the writes of the last
one performed, and no failed command is left (09 R217, 10 R233, 11 R262, 12 R274, 13 R285, R287, 14 R299, 15 R307). -/
def Cell.enginesSettled (c : Cell) : Bool :=
  !c.cmds.any (fun x => (x.queue == 0 && (x.state == .active || x.state == .withheld)) || x.sent ||
    (x.state == .active && x.failed.isSome) || !c.linkSettled x)

def State.haltDue (s : State) (key : Nat) : Bool :=
  match s.cell? key, s.gang? (gangOfCell key) with
  | some c, some g => g.state == .halting && (s.part (partOfCell key)).live && !c.gone && !c.halted && c.enginesSettled &&
      !c.x.issued && s.atPoint key c
  | _, _ => false

/-- CELL_HALT: the cell stands at a pre-emption point, and its engines have stopped. -/
def execCellHalt (cell : Nat) (s : State) : Host.Outcome State Fault Refusal :=
  event (s.haltDue cell) s (s.modCell cell (fun c => { c with halted := true }))

/-- Every access of the cell that has committed is performed, so that what is left stands in its replay queue. -/
def Cell.accessesSettled (c : Cell) : Bool := c.a.issued.isEmpty

/-- The gang is halted, and nothing of it is under way outside its cells. A fatal trap stops it too (18 R347). -/
def State.gangHalted (s : State) (g : Nat) : Bool :=
  match s.gang? g with
  | none => false
  | some gg =>
    (gg.state == .stopped || (gg.state == .halting && gg.incs.isEmpty && (s.gangCells g).all (fun p => p.2.gone || p.2.halted))) &&
      (s.gangCells g).all (fun p => p.2.accessesSettled) && !(s.part (partOfGang g)).mirrorOut.any (fun w => ofGang g w.owner)

/-! ## Resuming (16 R315, R317) -/

/-- Start cycles move with the base cycle. -/
def Cmd.shift (d : Word) (x : Cmd) : Cmd := { x with startAt := x.startAt.map (· + d) }

/-- What a cell that fetches again still waits for: a gbar at which every cell has arrived (17 R345). -/
def Cell.stillWaiting (c : Cell) : Option GangWait := c.waiting.filter (· == .gbar true)

/-- A halted cell goes on; what it waited for is evaluated again. -/
def Cell.resumed (d : Word) (c : Cell) : Cell :=
  { c with halted := false, waiting := c.stillWaiting, until_ := c.until_.map (· + d), cmds := c.cmds.map (Cmd.shift d) }

/-- The gang resumes 144 cycles on: its base cycle moves by the time that it stood. -/
def Gang.resumed (now : Word) (g : Gang) : Gang :=
  let at_ := now + 144
  { g with state := .starting, startsAt := at_, base := g.base + (at_ - g.haltedAt) }

/-- A cell of the gang is stopped on a fatal trap. -/
def State.gangFatal (s : State) (g : Nat) : Bool :=
  (s.gangCells g).any (fun p => (p.2.trap.map (fun t => t.record.cls == .fatal)).getD false)

/-- The gang goes on in the cells that it stands in, unless a fatal trap has stopped it. -/
def State.resumeGang (s : State) (g : Nat) : State :=
  match s.gang? g with
  | none => s
  | some gg =>
    let d := s.now + 144 - gg.haltedAt
    let s := (s.gangCells g).foldl (fun s p => s.modCell p.1 (Cell.resumed d)) s
    s.modGang g (fun x => if s.gangFatal g then { x.resumed s.now with state := .stopped } else x.resumed s.now)

/-! ## Contexts (18 R367, R368; 22 R414) -/

/-- The slice or the elements of a cell hold poison, which no copy may carry (22 R416). -/
def State.cellPoisoned (s : State) (c : Cell) (len : Nat) : Bool :=
  !c.poisonElems.isEmpty || s.poisoned (sliceLoc c.unitOf 0) len

/-- A context holds no TLB and no loop buffer. -/
def Cell.uncached (c : Cell) : Cell := { c.unbuffered with tlb := [] }

/-- A cell's context with `len` bytes of its slice, its object marks below `len` and all its tags. -/
def State.takeContext (s : State) (c : Cell) (len : Nat) : Parked :=
  let p := s.contextOf c
  { p with
    cell := c.uncached, live := p.live.window 0 len, marks := p.marks.filter (fun m => decide (m.1 * 64 < len))
    waggles := p.waggles.filter (fun m => decide (m.1 < len)), corrupt := s.cellPoisoned c len }

def shiftMap {V : Type} (d : Nat) (m : AMap V) : AMap V := m.map (fun p => (p.1 + d, p.2))

/-- Set a whole slice: bytes, marks and tags as in the context, everything else 0. -/
def State.fillContext (s : State) (c : Cell) (p : Parked) : State :=
  let s := s.clearCellSlice c
  let lo := sliceLoc c.unitOf 0
  { s with
    mem := p.live.foldl (fun m b => writeByte m (lo + b.1) b.2) s.mem
    marks := (shiftMap (lo / 64) p.marks).foldl (fun m b => AMap.insert m b.1 b.2) s.marks
    tags := (shiftMap (lo / 4096) p.tags).foldl (fun m b => AMap.insert m b.1 b.2) s.tags
    waggles := (shiftMap lo p.waggles).foldl (fun m b => AMap.insert m b.1 b.2) s.waggles }

/-- The live window of a gang, in bytes (17 R337, 18 Table 18-10). -/
def Gang.window (g : Gang) : Nat := min g.live 720896

/-- A cell's unit is given back. -/
def State.vacate (s : State) (key : Nat) (c : Cell) : State :=
  let s := (s.clearCellSlice c).leaveUnit c.unitOf
  { s with cells := s.cells.remove key }

/-- The gang is parked in its cells' cap banks; its charge so far is posted (21 R410). -/
def State.parkGang (s : State) (g : Nat) : State :=
  match s.gang? g with
  | none => s
  | some gg =>
    let s := (s.postCharge g).modGang g (fun x => { x with state := .parked, haltedAt := s.now })
    ((s.gangCells g).filter (fun p => !p.2.gone)).foldl (fun s p =>
      let ctx := s.takeContext p.2 gg.window
      { s.vacate p.1 p.2 with parked := s.parked.insert p.1 ctx }) s

/-- The contexts of a gang. -/
def State.contextsOf (s : State) (g : Nat) : List (Nat × Parked) := s.parked.filter (fun p => gangOfCell p.1 == g)

/-- Machine check 0x03 on every cell of the gang (22 Table 22-2). -/
def State.corruptGang (s : State) (g : Nat) : State :=
  ((s.gangCells g).filter (fun p => !p.2.gone)).foldl (fun s p => s.machineCheck (.aseq p.1) 0x03 .fatal 2 0) s

/-- The contexts of a gang go into their units, and the gang resumes; its time on them begins anew. -/
def State.takeUp (s : State) (g : Nat) : State :=
  match s.gang? g with
  | none => s
  | some _ =>
    let ps := s.contextsOf g
    let s := { s with parked := s.parked.filter (fun p => gangOfCell p.1 != g) }
    let s := ps.foldl (fun s p => (s.fillContext p.2.cell p.2).setCell p.1 p.2.cell) s
    (s.resumeGang g).openStays g (s.now + 144)

/-- A gang whose contexts held an uncorrectable error takes the machine check. -/
def State.checkTaken (s : State) (g : Nat) (corrupt : Bool) : State := if corrupt then s.corruptGang g else s

/-- A parked gang is taken up, and takes the machine check of a corrupt context. -/
def State.unparkGang (s : State) (g : Nat) : State :=
  (s.takeUp g).checkTaken g ((s.contextsOf g).any (fun p => p.2.corrupt))

/-- A cancel or kill that met the gang in an exchange takes effect (18 R368). -/
def State.settleDoom (s : State) (g : Option Nat) : State :=
  match g with
  | none => s
  | some g => match (s.gang? g).bind (·.doomed) with
    | some st => s.endGang g st
    | none => s

/-! ## pswap -/

/-- An operand of pswap: none, or a GID, or no GID at all. -/
def swapOperand (v : Word) : Option (Option Nat) :=
  if v = 0xFFFF then some none else if v.toNat < 1024 then some (some v.toNat) else none

/-- Parked contexts that the buffers of a unit hold, those of one gang left out. -/
def State.buffersUsed (s : State) (slot unit : Nat) (without : Option Nat) : Nat :=
  s.parked.countP (fun p => p.2.cell.slot == slot && p.2.cell.unit == unit && without != some (gangOfCell p.1) &&
    (match s.gang? (gangOfCell p.1) with
     | some g => g.state == .parked
     | none => false))

/-- The unit can take up the incoming gang: neither drained, retired nor failed, and free or held by the outgoing gang
(18 R368, 21 R406). -/
def State.takesBack (s : State) (out : Option Nat) (c : Cell) : Bool :=
  mixSt (s.mix c.slot) == 1 && (s.avail c.slot).getLsbD c.unit && decide ((s.unitLife c.unitOf).wstate.toNat < 2) &&
    !s.unitReserved c.slot c.unit &&
    s.cells.all (fun p => p.2.gone || p.2.slot != c.slot || p.2.unit != c.unit || some (gangOfCell p.1) == out)

/-- The first check of pswap that fails, in ascending code order; 0 for none. -/
def State.swapCode (s : State) (out inc : Option Nat) : Nat :=
  let live (g : Option Nat) : Bool := match g with
    | some g => (s.gang? g).isSome
    | none => true
  let inState (g : Option Nat) (f : GangState → Bool) : Bool := match g.bind s.gang? with
    | some x => f x.state
    | none => true
  let outCells : List (Nat × Cell) := match out with
    | some g => (s.gangCells g).filter (fun p => !p.2.gone)
    | none => []
  let inCells : List (Nat × Parked) := match inc with
    | some g => s.contextsOf g
    | none => []
  if !live out || !live inc then 1
  else if !inState out (fun x => x == .resident || x == .halting) then 3
  else if outCells.any (fun p => 2 ≤ s.buffersUsed p.2.slot p.2.unit inc) then 7
  else if !inState inc (· == .parked) || inCells.any (fun p => !s.takesBack out p.2.cell) then 8
  else if (out.map s.inExchange).getD false || (inc.map s.inExchange).getD false then 0x0B
  else 0

/-- pswap: once its checks pass the outgoing gang is asked to halt, and the core waits for the exchange (18 R368). -/
def execPswap (d a b : BitVec 5) (s : State) : Host.Outcome State Fault Refusal :=
  onSupervisor s [d, a, b] 0x1D 0x6 (fun k c =>
    let give (n : Nat) : State := s.setCore k { c with a := (c.a.setReg d (BitVec.ofNat 64 n)).retire 4 }
    match swapOperand (c.a.reg a), swapOperand (c.a.reg b) with
    | some o, some i =>
      let p := c.part.getD 0
      let key (x : Option Nat) : Option Nat := x.map (p * 1024 + ·)
      (match s.swapCode (key o) (key i) with
       | 0 =>
         let s := s.setCore k { c with wait := some (.pswap d) }
         let s := s.setPart p { s.part p with swaps := (s.part p).swaps ++ [{ core := k, outGid := o, inGid := i }] }
         (match key o with
          | some g => s.modGang g (fun x => { x with state := .halting })
          | none => s)
       | n => give n)
    | _, _ => give 1)

/-- The exchange of a swap can take place. -/
def State.swapReady (s : State) (p : Nat) (w : Swap) : Bool :=
  match w.outGid with
  | some g => s.gangHalted (p * 1024 + g)
  | none => true

/-- The result of a form for which a core waits. -/
def State.answerCore (s : State) (k : Nat) (v : Word) : State :=
  let c := s.core k
  match c.wait with
  | some (.pswap d) => s.setCore k { c with wait := none, a := (c.a.setReg d v).retire 4 }
  | some (.ctxsv d) => s.setCore k { c with wait := none, a := (c.a.setReg d v).retire 4 }
  | _ => s

/-- A gang whose cells have all exited has ended, whatever it waits for. -/
def State.allGone (s : State) (g : Nat) : Bool := (s.gangCells g).all (fun p => p.2.gone)

/-- Every unit that the incoming gang of a swap stands for can still take it: a cell may have been drained, retired or lost
while the outgoing gang halted (21 R406). -/
def State.unitsStay (s : State) (out inc : Option Nat) : Bool :=
  match inc with
  | some g => (s.contextsOf g).all (fun p => s.takesBack out p.2.cell)
  | none => true

/-- A gang that was halted for an exchange or save that fails goes on where it stands. -/
def State.goOn (s : State) (g : Nat) : State := (s.modGang g (fun x => { x with haltedAt := s.now })).resumeGang g

/-- One exchange: the outgoing gang is parked, or ends if all its cells have exited, and the incoming one resumes. -/
def State.exchange (s : State) (p : Nat) (w : Swap) : State :=
  let key (x : Option Nat) : Option Nat := x.map (p * 1024 + ·)
  let pt := s.part p
  let s := s.setPart p { pt with swaps := pt.swaps.filter (fun x => x.core != w.core) }
  let ok := s.unitsStay (key w.outGid) (key w.inGid)
  let s := match key w.outGid with
    | some g => if s.allGone g then s.endGang g 0 else if ok then s.parkGang g else s.goOn g
    | none => s
  let s := match key w.inGid with
    | some g => if ok then s.unparkGang g else s
    | none => s
  ((s.settleDoom (key w.outGid)).settleDoom (key w.inGid)).answerCore w.core (if ok then 0 else 8)

def State.exchangeDue (s : State) (p : Nat) : Option Swap :=
  if (s.part p).live then (s.part p).swaps.find? (s.swapReady p) else none

/-- PSWAP_EXCHANGE (18 R368). -/
def execPswapExchange (part : Nat) (s : State) : Host.Outcome State Fault Refusal :=
  event (s.exchangeDue part).isSome s
    (match s.exchangeDue part with
     | some w => s.exchange part w
     | none => s)

end Sys2Proof.Machine
end

