-- ==== Sys2Proof/Machine/Wear.lean ====
section
/-! DEFINITION. The wear manager: increments, charges, states of cells, the lifetime record, and wqry and wset (21). -/

namespace Sys2Proof.Machine

/-! ## Updates of the mix (01 R17, R22) -/

/-- A die that is not active any more drops its replicas and its caches; no operation waits for it (19 R378). -/
def State.dropDie (s : State) (slot : Nat) : State :=
  { s.clearRo slot with
    partitions := s.partitions.map (fun p => { p with replicas := p.replicas.remove slot }), dieTlb := s.dieTlb.remove slot }

/-- DIEMIX of a slot. -/
def State.setMix (s : State) (slot : Nat) (w : BitVec 32) : State :=
  let s := if mixSt w = 1 then s else s.dropDie (slot % 32)
  { s with diemix := s.diemix.set (slot % 32) w (Nat.mod_lt _ (by decide)) }

def State.setAvail (s : State) (slot : Nat) (w : BitVec 32) : State :=
  { s with diecell := s.diecell.set (slot % 32) w (Nat.mod_lt _ (by decide)) }

/-- An update of DIEMIX or DIECELL counts once the mix bit is set (01 R17). -/
def State.countMix (s : State) : State := if s.mixUp then { s with mixgen := s.mixgen + 1 } else s

/-- DIEMIX with another ST; LIDX of a die that is not active reads 0x1F (01 R16). -/
def withSt (w : BitVec 32) (st : Nat) : BitVec 32 := (w &&& 0x00F0003F) ||| BitVec.ofNat 32 (st * 64 + 0x1F00)

/-- A unit's AVAIL bit is cleared; with the last of an active die, its ST becomes 3 in the same update (01 R17, R22). A unit
that has no AVAIL bit, or whose die failed, changes no register. -/
def State.loseUnit (s : State) (u : Nat) : State :=
  let slot := u / 32
  if !(s.avail slot).getLsbD (u % 32) then s
  else
    let av := s.avail slot &&& ~~~(1#32 <<< (u % 32))
    let s := s.setAvail slot av
    (if av = 0 && mixSt (s.mix slot) = 1 then s.setMix slot (withSt (s.mix slot) 3) else s).countMix

/-! ## Events for partitions (18 Table 18-1, 22 R418, 23 R425) -/

/-- The ports that own a queue of a partition: its queues have the PORT of its layout (17 R327, 23 Table 23-4). -/
def State.portsOf (s : State) (p : Nat) : List Bool :=
  let pt := s.part p
  if pt.formed && pt.layout.queueCount != 0 then [pt.layout.port] else []

/-- A machine-check event in a partition: its record, and an interrupt to every port that owns a queue of it. -/
def State.checkEvent (s : State) (p code : Nat) (addr info : Word) : State :=
  let s := s.report p
    { kind := 0x13, code, cls := .event, sq := false, eng := false, cc := false, cell := 0, gid := 0, queue := 0, seq := 0, info,
      cyc := s.now, pc := 0, addr }
  (s.portsOf p).foldl (fun s b => s.interrupt b (4 * p + 3) 0) s

/-- A partition's share, DREMAP or HBM ranges include a unit, a buffer die or an address. -/
def State.partHas (s : State) (p : Nat) (f : Layout → Bool) : Bool := (s.part p).formed && f (s.part p).layout

def State.checkEvents (s : State) (f : Layout → Bool) (code : Nat) (addr info : Word) : State :=
  (List.range 8).foldl (fun s p => if s.partHas p f then s.checkEvent p code addr info else s) s

def Layout.hasUnit (l : Layout) (u : Nat) : Bool := (l.share[(u / 32) % 32]'(Nat.mod_lt _ (by decide))).getLsbD (u % 32)

def physidOf (u : Nat) : Word := BitVec.ofNat 64 (u / 32 * 2 ^ 11 + u % 32 * 2 ^ 5)

/-! ## States of cells (21 R405, R406) -/

/-- The gang that stands on a unit, with the cell. -/
def State.standing (s : State) (u : Nat) : Option (Nat × Cell) := List.find? (fun p => !p.2.gone && p.2.unitOf == u) s.cells

/-- The gang that is resident on a unit: from its base cycle on (17 R334). -/
def State.residentGang (s : State) (u : Nat) : Option Gang :=
  ((s.standing u).bind (fun p => s.gang? (gangOfCell p.1))).filter (fun g => g.state != .starting)

def State.residentOn (s : State) (u : Nat) : Bool := (s.residentGang u).isSome

/-- A gang of a kernel marked timed is resident on a unit. -/
def State.timedOn (s : State) (u : Nat) : Bool := ((s.residentGang u).map (·.timed)).getD false

def UnitLife.toRecord (l : UnitLife) : UnitRecord := { wused := l.wused, wstate := l.wstate, cause := l.cause, alarms := l.alarms }

/-- The lifetime record is usable (23 R432). -/
def State.lifeReady (s : State) : Bool := s.rdymap0.getLsbD 1

/-- The lifetime record is committed to storage (21 R404). -/
def State.commitLife (s : State) : State := { s with committed := s.life.map (fun p => (p.1, p.2.toRecord)) }

/-- Every array of a unit goes to nominal voltage (22 R422). -/
def State.nominalArrays (s : State) (u : Nat) : State :=
  { s with arrays := s.arrays.map (fun p => if p.1 / 64 = u then (p.1, { p.2 with below := false }) else p) }

/-- A cell moves to a later state: it is recorded with its cause and committed, and a retired cell loses its AVAIL bit. A
timed gang that is resident on a cell that becomes derated holds its nominal clock until it leaves, unless an alarm stops the
clock (21 R406, 22 R419; log 100). -/
def State.changeCell (s : State) (u st cause : Nat) : State :=
  let l := s.unitLife u
  if st ≤ l.wstate.toNat then s
  else
    let s := s.setLife u { l with wstate := BitVec.ofNat 2 st, cause := BitVec.ofNat 4 cause,
                                  nomhold := if st = 1 then s.timedOn u else l.nomhold }
    let s := (s.nominalArrays u).commitLife
    if st = 3 then s.loseUnit u else s

/-- The state that a budget has reached (21 Table 21-1). -/
def budgetState (wused : Word) : Nat :=
  let w := wused.toNat / 2 ^ 32
  if 220000000 ≤ w then 3 else if 213400000 ≤ w then 2 else if 198000000 ≤ w then 1 else 0

/-! ## Increments and charges (21 R402, R407, R408) -/

def intervalLen : Nat := 2 ^ 20

/-- The key after an increment (21 R407). -/
def raiseKey (l : UnitLife) : UnitLife :=
  if (65536 * (l.key.toNat + 1) + 16384) * 2 ^ 32 < l.wused.toNat then { l with key := BitVec.ofNat 32 (l.wused.toNat / 2 ^ 48) } else l

/-- Cycles of the interval that ends now during which a stay lasted. -/
def Stay.cycles (x : Stay) (now : Word) : Nat :=
  let lo := max x.start.toNat (now.toNat - intervalLen)
  let hi := match x.stop with
    | some t => min t.toNat now.toNat
    | none => now.toNat
  hi - lo

/-- The gang of a stay stands in its cells: it has not ended, and it is not parked. -/
def State.stayRuns (s : State) (x : Stay) : Bool :=
  match s.gang? x.gang with
  | some g => g.uid == x.uid && g.state != .parked
  | none => false

/-- A gang's charge for a cell, over `r` cycles of the interval, goes to its launch, and to the gang while that stands in its
cells, else to its context at once (21 R408, R410; log 15). -/
def State.chargeStay (s : State) (inc : Word) (r : Nat) (x : Stay) : State :=
  let w := inc.toNat * r / intervalLen
  let s := match x.launch with
    | some l => s.modLaunch l (fun y => { y with wear := satAdd64 y.wear.toNat w })
    | none => s
  if s.stayRuns x then s.modGang x.gang (fun y => { y with wear := satAdd64 y.wear.toNat w })
  else s.addCharge x.part x.ctx (BitVec.ofNat 64 (min w (2 ^ 64 - 1)))

/-- The stays of a list, one for each gang and unit, with the cycles of all that it stands for. -/
def sumStays (now : Word) : List Stay → List (Stay × Nat)
  | [] => []
  | x :: rest =>
    let acc := sumStays now rest
    if acc.any (fun p => p.1.uid == x.uid && p.1.unit == x.unit) then
      acc.map (fun p => if p.1.uid == x.uid && p.1.unit == x.unit then (p.1, p.2 + x.cycles now) else p)
    else (x, x.cycles now) :: acc

/-- The charges for an increment of the interval that ends on `stop`. -/
def State.chargeStays (s : State) (stop inc : Word) (xs : List Stay) : State :=
  (sumStays stop xs).foldl (fun s p => s.chargeStay inc p.2 p.1) s

/-- One cell's increment: the greater of the two estimates. -/
def State.wearCell (s : State) (u : Nat) (inc : Word) : State :=
  let l := s.unitLife u
  let l := raiseKey { l with wused := satAdd64 l.wused.toNat inc.toNat }
  let s := s.setLife u l
  let s := s.chargeStays s.now inc (s.stays.filter (fun x => x.unit = u))
  s.changeCell u (budgetState l.wused) 0

/-- The greater of the two estimates. -/
def increment (r : BitVec 64 × BitVec 64) : Word := if r.1 ≤ r.2 then r.2 else r.1

/-- What the gangs of a partition owe for the interval that runs is settled now: they leave for good, and the increments are
those that the sensors give at the interval's end (log 15). -/
def State.settleStays (s : State) (p : Nat) : State :=
  let stop := BitVec.ofNat 64 ((s.now.toNat / intervalLen + 1) * intervalLen)
  let xs := (s.stays.filter (fun x => x.part = p)).map (·.close s.now)
  let units := (xs.map (·.unit)).eraseDups
  let s := units.foldl (fun s u => s.chargeStays stop (increment (Config.wearReading stop.toNat u)) (xs.filter (fun x => x.unit = u))) s
  { s with stays := s.stays.filter (fun x => x.part ≠ p) }

/-- The interval ends on a multiple of its length. -/
def State.intervalEnds (s : State) : Bool := decide (s.now.toNat % intervalLen = 0)

/-- SAMPLING_INTERVAL_END: readings give, for each cell by unit, the two estimates in units of 2^-32, rounded up (log 8). -/
def execSamplingIntervalEnd (readings : List (Nat × BitVec 64 × BitVec 64)) (s : State) : Host.Outcome State Fault Refusal :=
  event (s.intervalEnds && s.lifeReady) s
    (let t := (readings.filter (fun r => fittedCell (r.1 / 32) (r.1 % 32))).foldl (fun s r =>
      s.wearCell r.1 (increment r.2)) s
     { t with stays := t.stays.filter (fun x => x.stop.isNone) })

/-- LIFETIME_COMMIT: every 2^32 package cycles (21 R404). -/
def execLifetimeCommit (s : State) : Host.Outcome State Fault Refusal :=
  event (decide (s.now.toNat % 2 ^ 32 = 0) && s.lifeReady) s s.commitLife

/-- MONITOR_ALARM: the cell is retired at once; a gang that stands on it takes machine check 0x05 (21 R403, 22 R419). -/
def execMonitorAlarm (unit : Nat) (s : State) : Host.Outcome State Fault Refusal :=
  event (fittedCell (unit / 32) (unit % 32)) s
    (let l := s.unitLife unit
     let s := s.setLife unit { l with alarms := if l.alarms = 0xFFFF then l.alarms else l.alarms + 1, nomhold := false }
     let t := s.changeCell unit 3 2
     match s.standing unit with
     | some p => t.machineCheck (.aseq p.1) 0x05 .fatal 0 (physidOf unit)
     | none => t)

/-! ## wqry and wset (21 R412, R413) -/

/-- The unit that an operand in the layout of PHYSID names. -/
def physidUnit (v : Word) : Option Nat :=
  let n := v.toNat
  if bits n 63 16 = 0 ∧ bits n 4 0 = 0 ∧ bits n 10 5 < 32 ∧ fittedCell (bits n 15 11) (bits n 10 5) then
    some (unitKey (bits n 15 11) (bits n 10 5))
  else none

/-- The unit that wqry and wset find: none is found before the lifetime record is usable (23 R432; log 98). -/
def State.recordedUnit (s : State) (v : Word) : Option Nat := if s.lifeReady then physidUnit v else none

/-- The cell state word (21 Table 21-4). -/
def State.cellWord (s : State) (u : Nat) : Word :=
  let l := s.unitLife u
  BitVec.ofNat 64 (1 + (s.residentOn u).toNat * 2 + l.nomhold.toNat * 4 + l.wstate.toNat * 2 ^ 4 +
    l.cause.toNat * 2 ^ 8 + l.alarms.toNat * 2 ^ 16 + l.key.toNat * 2 ^ 32)

/-- wqry (21 R413). -/
def execWqry (d a sel : BitVec 5) (s : State) : Host.Outcome State Fault Refusal :=
  onSupervisor s [d, a] 0x1D 0xC (fun k c =>
    let give (v : Word) : State := s.setCore k { c with a := (c.a.setReg d v).retire 4 }
    match s.recordedUnit (c.a.reg a) with
    | none => give 0
    | some u =>
      if c.priv ≠ .root && !(s.part (c.part.getD 0)).layout.hasUnit u then s.privilegeTrap (.core k) 0x1D 0xC
      else give (if sel = 0 then (s.unitLife u).wused else s.cellWord u))

/-- wset: root moves a cell to a later state (21 R413). -/
def execWset (d a b : BitVec 5) (s : State) : Host.Outcome State Fault Refusal :=
  onSupervisor s [d, a, b] 0x1D 0xD (fun k c =>
    let give (s : State) (v : Nat) : State :=
      s.setCore k { s.core k with a := ((s.core k).a.setReg d (BitVec.ofNat 64 v)).retire 4 }
    if c.priv ≠ .root then s.privilegeTrap (.core k) 0x1D 0xD
    else match s.recordedUnit (c.a.reg a) with
      | none => give s 2
      | some u =>
        let v := (c.a.reg b).toNat
        if 3 < v || v ≤ (s.unitLife u).wstate.toNat then give s 1 else give (s.changeCell u v 3) 0)

end Sys2Proof.Machine
end

