-- ==== Sys2Proof/Machine/Errors.lean ====
section
/-! DEFINITION. Soft errors, scrubbing, the voltage loop, loss of a buffer die, and mirrored writes (22; 06 R129). -/

namespace Sys2Proof.Machine

/-! ## Error counts (22 R415, R422) -/

def ArrayState.new : ArrayState := { errors := 0, below := false, locked := false, holds := 0 }

def State.array (s : State) (u a : Nat) : ArrayState := s.arrays.getD (u * 64 + a) ArrayState.new

def State.setArray (s : State) (u a : Nat) (x : ArrayState) : State := { s with arrays := s.arrays.insert (u * 64 + a) x }

/-- An error of an array of a cell; units without cells keep no count. -/
def State.countError (s : State) (u a : Nat) : State :=
  if fittedCell (u / 32) (u % 32) then s.setArray u a { s.array u a with errors := addSat32 (s.array u a).errors 1 } else s

/-- The unit whose slice holds a place. -/
def unitAt (loc : Nat) : Option Nat := if loc < 2 ^ 49 then none else some ((loc - 2 ^ 49) / 2 ^ 30)

/-- The cell and array to which an error of a stored word is counted. -/
def State.arrayOfStore (s : State) (w : Store) : Option (Nat × Nat) :=
  match w with
  | .unit loc => (unitAt loc).map (fun u => (u, 0))
  | .acc cell _ => (s.cell? cell).map (fun c => (c.unitOf, 1))
  | .cap cell => (s.parked.find? cell).map (fun p => (p.cell.unitOf, 2))
  | .dropped unit array _ => some (unit, array)
  | .sequencer ag => (ag.cell?.bind s.cell?).map (fun c => (c.unitOf, 8))
  | _ => none

def State.countStore (s : State) (w : Store) : State :=
  match s.arrayOfStore w with
  | some p => s.countError p.1 p.2
  | none => s

/-! ## SOFT_ERROR (22 R414) -/

/-- The address range that holds an HBM address is a partition's. -/
def Layout.hasHbm (l : Layout) (pa : Nat) : Bool := l.hbm.any (fun r => decide (r.1 ≤ pa) && decide (pa < r.1 + r.2))

/-- A flit is corrected by FEC, and FECC counts it (15 Table 15-5). -/
def State.flitError (s : State) (link : Nat) : State :=
  let w := s.lnkst.getD link 0
  let n := bits w.toNat 47 32
  if n = 0xFFFF then s
  else { s with lnkst := s.lnkst.insert link ((w &&& ~~~0x0000FFFF00000000#64) ||| BitVec.ofNat 64 ((n + 1) * 2 ^ 32)) }

/-- The cells that stand on a unit change. -/
def State.modUnit (s : State) (u : Nat) (f : Cell → Cell) : State :=
  { s with cells := s.cells.map (fun p => if !p.2.gone && p.2.unitOf == u then (p.1, f p.2) else p) }

/-- A control core changes. -/
def State.modCore (s : State) (k : Nat) (f : Core → Core) : State := s.setCore k (f (s.core k))

/-- An entry of a loop buffer, of the read-only cache of the unit's die, or of a TLB is dropped, to be fetched again; entries of
the A-seq's loop buffer come before those of the X-seq's, entries of a cell's TLB before those of its die's. On the control die
the units are the control cores, which have a loop buffer each, and the TLB is the die's (01 R445, 19 R379). -/
def State.dropEntry (s : State) (u array n : Nat) : State :=
  match array with
  | 3 =>
    if u / 32 = 0 then s.modCore u (fun c => { c with a := { c.a with pos := { c.a.pos with buf := c.a.pos.buf.eraseIdx n } } })
    else s.modUnit u (fun c =>
      { c with a := { c.a with pos := { c.a.pos with buf := c.a.pos.buf.eraseIdx n } }
               x := { c.x with pos := { c.x.pos with buf := if n < c.a.pos.buf.length then c.x.pos.buf else c.x.pos.buf.eraseIdx (n - c.a.pos.buf.length) } } })
  | 4 => match (s.roCache.filter (fun l => l.1 / 2 ^ 48 == u / 32))[n]? with
    | some l => { s with roCache := s.roCache.remove l.1 }
    | none => s
  | _ =>
    let own := match List.find? (fun (p : Nat × Cell) => !p.2.gone && p.2.unitOf == u) s.cells with
      | some p => p.2.tlb.length
      | none => 0
    if n < own then s.modUnit u (fun c => { c with tlb := c.tlb.eraseIdx n })
    else { s with dieTlb := s.dieTlb.modify (u / 32) (fun d => d.eraseIdx (n - own)) }

/-- An uncorrectable error; a flit is sent again, and nothing else shows it. -/
def State.uncorrectable (s : State) (w : Store) : State :=
  match w with
  | .unit loc => { s with poison := s.poison.insert (loc / 8) 1 }
  | .acc cell e => s.modCell cell (fun c =>
      { c with poisonElems := if c.poisonElems.contains e then c.poisonElems else c.poisonElems ++ [e]
               tiles := c.tiles.insert (e / 4096) { c.tiles.getD (e / 4096) Tile.clear with partialK := true } })
  | .cap cell => { s with parked := s.parked.modify cell (fun p => { p with corrupt := true }) }
  | .cacheLine loc dirty =>
    if dirty then
      ({ s with poison := s.poison.insert (loc / 8) 1 } : State).checkEvents (fun l => l.hasHbm loc) 0x09 (BitVec.ofNat 64 (loc / 8 * 8)) 5
    else s
  | .dropped u a n => s.dropEntry u a n
  | .sequencer ag => s.machineCheck ag 0x04 .fatal 8 0
  | .flit _ => s

/-- A corrected error. -/
def State.corrected (s : State) (w : Store) : State :=
  match w with
  | .flit link => s.flitError link
  | w => s.countStore w

/-- Parity finds an error of one bit, but corrects none (22 Table 22-1). -/
def storeCorrectable : Store → Bool
  | .sequencer _ => false
  | _ => true

/-- Words that patrol scrubbing reads (22 R415). -/
def storeScrubbed : Store → Bool
  | .unit loc => decide (2 ^ 49 ≤ loc)
  | .acc .. => true
  | _ => false

/-- A list with `x` in it. -/
def listed (x : Nat) (l : List Nat) : List Nat := if l.contains x then l else l ++ [x]

/-- An upset of one bit waits for the scrub that finds it. -/
def State.noteUpset (s : State) : Store → State
  | .unit loc => { s with upsets := listed (loc / 8) s.upsets }
  | .acc cell e => s.modCell cell (fun c => { c with upsetElems := listed e c.upsetElems })
  | _ => s

/-- A word with an upset that no scrub has found. -/
def State.hasUpset (s : State) : Store → Bool
  | .unit loc => s.upsets.contains (loc / 8)
  | .acc cell e => ((s.cell? cell).map (·.upsetElems.contains e)).getD false
  | _ => false

/-- The corrected word is written back. -/
def State.dropUpset (s : State) : Store → State
  | .unit loc => { s with upsets := s.upsets.erase (loc / 8) }
  | .acc cell e => s.modCell cell (fun c => { c with upsetElems := c.upsetElems.erase e })
  | _ => s

/-- The word exists. -/
def State.storeFits (s : State) (w : Store) : Bool :=
  match w with
  | .unit loc => decide (loc < 2 ^ 49 + 27 * 2 ^ 35)
  | .acc cell e => (match s.cell? cell with
      | some c => !c.gone && c.ctype == .matrix && decide (e < 131072)
      | none => false)
  | .cap cell => (s.parked.find? cell).isSome
  | .cacheLine loc _ => decide (loc < 2 ^ 40)
  | .dropped unit array _ => (fittedCell (unit / 32) (unit % 32) || decide (unit < 16)) && [3, 4, 7].contains array
  | .sequencer (.core k) => decide (k < 16) && (s.core k).running
  | .sequencer ag => (match ag.cell?.bind s.cell? with
      | some c => !c.gone
      | none => false)
  | .flit link => decide (link < 256)

/-- SOFT_ERROR: an upset of one bit is latent until it is scrubbed, where words are scrubbed, and is otherwise corrected
as it is found; one of two bits is marked, and counted, at once (log 19). -/
def execSoftError (place : Store) (double : Bool) (s : State) : Host.Outcome State Fault Refusal :=
  event (s.storeFits place) s
    (if double || !storeCorrectable place then ((s.dropUpset place).countStore place).uncorrectable place
     else if storeScrubbed place then s.noteUpset place
     else s.corrected place)

/-- PATROL_SCRUB: a latent upset is corrected and counted (22 R415). -/
def execPatrolScrub (place : Store) (s : State) : Host.Outcome State Fault Refusal :=
  event (s.hasUpset place) s ((s.dropUpset place).countStore place)

/-- The scrubs of every latent upset: all words are read at least once every 2^30 cycles (22 R415). -/
def State.scrubs (s : State) : List Instr :=
  s.upsets.map (fun u => .patrolScrub (.unit (u * 8))) ++
    s.cells.flatMap (fun p => p.2.upsetElems.map (fun e => .patrolScrub (.acc p.1 e)))

/-! ## The voltage loop (22 R421, R422) -/

def State.uvOn (s : State) : Bool := s.cethr.getLsbD 31
def State.errThr (s : State) : Nat := bits s.cethr.toNat 15 0

/-- The voltage loop may lower an array: undervolting is allowed, the array has not been returned to nominal since reset,
and the cell is healthy. -/
def State.mayLower (s : State) (u a : Nat) : Bool :=
  s.uvOn && fittedCell (u / 32) (u % 32) && decide (a < 10) && !(s.array u a).locked && (s.unitLife u).wstate == 0

/-- ARRAY_UNDERVOLT (22 R421). -/
def execArrayUndervolt (unit array : Nat) (s : State) : Host.Outcome State Fault Refusal :=
  event (s.mayLower unit array) s (s.setArray unit array { s.array unit array with below := true })

/-- An array at the end of a window: the voltage loop, then the run of windows at nominal above the threshold. -/
def ArrayState.endWindow (x : ArrayState) (thr : Nat) (uv : Bool) : ArrayState :=
  let above := decide (thr < x.errors.toNat)
  { errors := 0, below := x.below && !above && uv, locked := x.locked || (x.below && above),
    holds := if !x.below && above && thr != 0 then x.holds + 1 else 0 }

/-- A cell of which an array has held 101 windows is derated (22 R422). -/
def State.predict (s : State) (key : Nat) (x : ArrayState) : State :=
  let u := key / 64
  if s.errThr = 0 || x.holds < 101 || 1 ≤ (s.unitLife u).wstate.toNat then s
  else (s.changeCell u 1 1).checkEvents (fun l => l.hasUnit u) 0x08 (physidOf u) (BitVec.ofNat 64 (key % 64))

/-- ERROR_WINDOW_END: every 2^28 package cycles (22 R422). -/
def execErrorWindowEnd (s : State) : Host.Outcome State Fault Refusal :=
  event (decide (s.now.toNat % 2 ^ 28 = 0)) s
    (let as := s.arrays.map (fun (p : Nat × ArrayState) => (p.1, p.2.endWindow s.errThr s.uvOn))
     as.foldl (fun s p => s.predict p.1 p.2) { s with arrays := as })

/-! ## Loss of a buffer die (22 R419) -/

def Partition.usesBuffer (p : Partition) (slot : Nat) : Bool := (List.range p.nbuf).any (fun k => p.bufferSlot k == slot)

/-- BUFFER_DIE_FAILURE: ST becomes 2 and AVAIL clears in one update; accesses to the die consume poison from then on. -/
def execBufferDieFailure (slot : Nat) (s : State) : Host.Outcome State Fault Refusal :=
  event (decide (slotType slot = 4) && mixSt (s.mix slot) == 1) s
    (let t : State := { s with lostDies := s.lostDies.insert slot (s.avail slot) }
     let t := ((t.setAvail slot 0).setMix slot (withSt (t.mix slot) 2)).countMix
     (List.range 8).foldl (fun t p =>
       let pt := t.part p
       if pt.formed && (pt.usesBuffer slot || pt.layout.buffers.contains slot || (List.range 16).any (fun u => pt.layout.hasUnit (unitKey slot u)) ||
           pt.layout.hbm.any (fun r => r.2 != 0 && decide (hbmSlot r.1 ≤ slot) && decide (slot ≤ hbmSlot (r.1 + r.2 - 1)))) then
         t.checkEvent p 0x06 (BitVec.ofNat 64 slot) 0
       else t) t)

/-! ## Mirrored writes (22 R420) -/

/-- The slot of the die whose cell or core made a mirrored write, if that stands. -/
def State.writerSlot (s : State) (o : MirrorOwner) : Option Nat :=
  match o with
  | .access ag _ => some (s.agentSlot ag)
  | .command cell _ => (s.cell? cell).map (·.slot)
  | .stream _ _ => some 0
  | .nobody => none

/-- The neighbour acknowledges the oldest mirrored write of a partition; the write has completed, and its lines leave the
read-only cache of its die (06 R127). -/
def State.acknowledge (s : State) (p : Nat) : State :=
  let pt := s.part p
  match pt.mirrorOut with
  | [] => s
  | w :: rest =>
    let s := s.setPart p { pt with mirrorOut := rest }
    let s := match s.writerSlot w.owner with
      | some slot => s.dropRo slot w.loc w.data.length
      | none => s
    match w.owner with
    | .access ag id => s.dropAccess ag id
    | _ => s

/-- MIRROR_ACK (22 R420). -/
def execMirrorAck (part : Nat) (s : State) : Host.Outcome State Fault Refusal :=
  event (s.packageUp && !(s.part part).mirrorOut.isEmpty) s (s.acknowledge part)

def Partition.mirrorLate (p : Partition) (now : Word) : Bool :=
  let tmo := bits p.mirst.toNat 31 8
  tmo != 0 && !p.mirst.getLsbD 0 && (match p.mirrorOut with
    | w :: _ => decide (tmo * 1024 < (now - w.since).toNat)
    | [] => false)

/-- MIRROR_TIMEOUT: event 0x07, once until EVT is cleared. -/
def execMirrorTimeout (part : Nat) (s : State) : Host.Outcome State Fault Refusal :=
  event ((s.part part).formed && (s.part part).mirrorLate s.now) s
    (let pt := s.part part
     (s.setPart part { pt with mirst := pt.mirst ||| 1 }).checkEvent (part % 8) 0x07 0 (BitVec.ofNat 64 pt.mirrorOut.length))

/-- PACKAGE_LINK_UP: the unacknowledged writes are sent again, oldest first; no package link is down any more (log 95). -/
def execPackageLinkUp (s : State) : Host.Outcome State Fault Refusal :=
  let again := s.partitions.toList.flatMap (fun p => p.mirrorOut.map (fun w => (w.loc, w.data)))
  .next { s with packageUp := true, mirrorSent := again.reverse ++ s.mirrorSent
                 lnkst := s.lnkst.map (fun p => if isPackageLink p.1 then (p.1, p.2 &&& ~~~0x40#64) else p) }

/-- A duplicated write of the neighbour is performed in local HBM, and acknowledged after (06 R129, 22 R420); a write that
consumes poison writes nothing, and no acknowledgement follows (22 R416). -/
def execMirrorWriteReceive (pa : Nat) (data : List (BitVec 8)) (s : State) : Host.Outcome State Fault Refusal :=
  event (decide (pa + data.length ≤ 2 ^ 40) && !s.partialPoison pa data.length) s
    { s.putBytes pa data with mirrorAcks := s.mirrorAcks + 1 }

end Sys2Proof.Machine
end

