-- ==== Sys2Proof/Machine/Scanner.lean ====
section
/-! DEFINITION. The code-page scanner (03 R55 to R58, R64 to R67). -/

namespace Sys2Proof.Machine

/-- A word of a page: the offset of its first parcel, whether it is 32 bits long, and its parcels. -/
structure PageWord where
  off : Nat
  long : Bool
  hi : Parcel
  lo : Parcel
  /-- The second parcel lies past the end of the page. -/
  cut : Bool
  deriving DecidableEq, Repr

/-- The words of a page from offset `off` on (03 R43). -/
def pageWords : List Parcel → Nat → List PageWord
  | [], _ => []
  | [p], off => [{ off, long := p.getLsbD 15, hi := p, lo := 0, cut := p.getLsbD 15 }]
  | p :: q :: rest, off =>
    if p.getLsbD 15 then { off, long := true, hi := p, lo := q, cut := false } :: pageWords rest (off + 4)
    else { off, long := false, hi := p, lo := 0, cut := false } :: pageWords (q :: rest) (off + 2)

def PageWord.isArg (w : PageWord) : Bool := w.long && w.hi.extractLsb' 10 5 == 0x1F#5
def PageWord.isEngine (w : PageWord) : Bool := w.long && !w.isArg && isEngineMajor (w.hi.extractLsb' 10 5)
/-- NARG of an engine command: bits 25:24. -/
def PageWord.narg (w : PageWord) : Nat := if w.isEngine then (w.hi.extractLsb' 8 2).toNat else 0
def PageWord.isHeader (w : PageWord) : Bool := w.long && w.hi.extractLsb' 10 5 == 0#5
/-- LEN of a block header, 0 for other words. -/
def PageWord.blockLen (w : PageWord) : Nat := if w.isHeader then (w.lo.extractLsb' 0 12).toNat else 0

/-- A block met so far: the index of its header and of the last word of its body. -/
structure OpenBlock where
  header : Nat
  last : Nat
  deriving DecidableEq, Repr

/-- Payloads that fill the argument words still to come: some of them suit every command that any payload suits (an argument
of one form or another must not be 0: sR of 13 Table 13-2, the source format of vcvt, sD of gscan). -/
def fillings : List (BitVec 26 × BitVec 26) := [(0, 0), (0, 1), (0x400, 0), (0x100000, 0)]

/-- What an engine command and its argument words so far can still become, or why they are rejected. -/
def judgeCommand (w : PageWord) (args : List (BitVec 26)) : Except DecodeError Instr :=
  let try_ (p : BitVec 26 × BitVec 26) := accept w.narg (decodeEngine (w.hi ++ w.lo) (args.getD 0 p.1) (args.getD 1 p.2))
  match (fillings.map try_).find? (·.isOk) with
  | some r => r
  | none => try_ (0, 0)

/-- The code of a word's own encoding (03 R47, R50 to R52, R55), 0 for none, and its instruction. -/
def encodingCode (w : PageWord) : Nat × Option Instr :=
  let r := if w.isEngine then judgeCommand w [] else (decode (if w.long then [w.hi, w.lo] else [w.hi])).map (·.1)
  match r with
  | .ok i => (0, some i)
  | .error e => (e.scanCode, none)

/-- The code of an argument word, `args` with it, that its command announced: a rule that its payload breaks, alone or with
the words before it (log 30). -/
def argumentCode (w : PageWord) (args : List (BitVec 26)) : Nat :=
  match judgeCommand w args with
  | .ok _ => 0
  | .error e => e.scanCode

/-- The payload of an argument word. -/
def PageWord.payload (w : PageWord) : BitVec 26 := w.hi.extractLsb' 0 10 ++ w.lo

/-- The code, below 0x05, of a word of which the page holds the first parcel alone: the lowest that applies whatever the second
parcel is; 0 for none. -/
def cutCode (x : Bool) (w : PageWord) : Nat :=
  let code (l : Nat) : Nat :=
    let r := encodingCode { w with lo := BitVec.ofNat 16 l, cut := false }
    match r.2 with
    | some i => if acceptedOn x i then 0 else 0x04
    | none => r.1
  let cs := (List.range (2 ^ 16)).map code
  if cs.contains 0 then 0 else cs.foldl max 0

/-- The offset in bytes of a static target from its branching word (03 R58). -/
def staticOffset : Instr → Option Int
  | .br o => some (2 * o.toInt)
  | .bz _ o => some (2 * o.toInt)
  | .bnz _ o => some (2 * o.toInt)
  | .dcbnz _ o => some (2 * o.toInt)
  | .call o => some (2 * o.toInt)
  | .bqt o => some (2 * o.toInt)
  | .bqf o => some (2 * o.toInt)
  | .brShort o => some (2 * o.toInt)
  | .bqtShort o => some (2 * o.toInt)
  | .dcbnzShort _ o1 => some (-(2 * ((o1.toNat : Int) + 1)))
  | .bmz o => some (2 * o.toInt)
  | _ => none

/-- All blocks of a page, whatever the scan makes of them. -/
def pageBlocks (ws : List PageWord) : Nat → List OpenBlock
  | i => match ws with
    | [] => []
    | w :: rest => if w.blockLen = 0 then pageBlocks rest (i + 1)
      else { header := i, last := i + w.blockLen } :: pageBlocks rest (i + 1)

def OpenBlock.holds (b : OpenBlock) (i : Nat) : Bool := decide (b.header < i) && decide (i ≤ b.last)

/-- A static target breaks 03 R58: no word start, or inside a body that does not hold the branch. -/
def badTarget (ws : List PageWord) (blocks : List OpenBlock) (size i off : Nat) (ins : Instr) : Bool :=
  match staticOffset ins with
  | none => false
  | some d =>
    let t := (off : Int) + d
    if t < 0 || (size : Int) ≤ t then false
    else match ws.findIdx? (fun w => decide ((w.off : Int) = t) && !w.isArg) with
      | none => true
      | some j => blocks.any (fun b => b.holds j && !b.holds i)

/-- The block rules a header breaks (03 R56), 0 for none; `count` words of the page end in it. -/
def headerCode (count depth i last : Nat) (x : Bool) (enclosing : List OpenBlock) : Nat :=
  if 7 ≤ depth then 0x08
  else if enclosing.any (fun b => decide (b.last < last)) then 0x09
  else if count ≤ last then 0x0A
  else if x && decide (256 < last - i) then 0x0B
  else 0

/-- The outcome of a scan: code, offset and depth (03 Table 3-6). -/
structure ScanOutcome where
  code : Nat
  off : Nat
  depth : Nat
  deriving DecidableEq, Repr

/-- The engine command before a word, with the payloads of the argument words between them. -/
abbrev Announced := Option (PageWord × List (BitVec 26))

/-- The command announces one more argument word (03 R51). -/
def Announced.expects : Announced → Bool
  | some c => decide (c.2.length < c.1.narg)
  | none => false

/-- The code of an argument word. -/
def argCode (x : Bool) (w : PageWord) (cmd : Announced) : Nat :=
  if x then 0x04
  else match cmd with
    | some c => if !cmd.expects then 0x05 else if w.cut then 0x0A else argumentCode c.1 (c.2 ++ [w.payload])
    | none => 0x05

/-- The instruction of an engine command with the argument words that follow it: bmz has its target there (11 R257). -/
def PageWord.completed (w : PageWord) (rest : List PageWord) (ins : Instr) : Instr :=
  if w.isEngine then (judgeCommand w ((rest.take w.narg).map (·.payload))).toOption.getD ins else ins

/-- The lowest code that applies to the word at index i, 0 for none. -/
def wordCode (all : List PageWord) (blocks : List OpenBlock) (size : Nat) (x : Bool) (i : Nat) (w : PageWord) (rest : List PageWord)
    (cmd : Announced) : Nat :=
  let enclosing := blocks.filter (fun b => b.holds i)
  if w.isArg then argCode x w cmd
  else if w.cut then
    let c := cutCode x w
    if c ≠ 0 then c else if 0 < w.narg then 0x06 else 0x0A
  else
    let e := encodingCode w
    match e.2 with
    | none => e.1
    | some ins =>
      if !acceptedOn x ins then 0x04
      else if ((rest.takeWhile (fun a => a.isArg && !a.cut)).take w.narg).length < w.narg then 0x06
      else if enclosing.any (fun b => decide (b.last < i + w.narg)) then 0x07
      else
        let h := if w.blockLen = 0 then 0
          else headerCode (all.filter (!·.cut)).length (enclosing.length + 1) i (i + w.blockLen) x enclosing
        if h ≠ 0 then h
        else if badTarget all blocks size i w.off (w.completed rest ins) then 0x0C else 0

/-- The command that stands announced after a word. -/
def PageWord.announces (w : PageWord) (cmd : Announced) : Announced :=
  if w.isArg then cmd.map (fun c => (c.1, c.2 ++ [w.payload])) else if w.isEngine then some (w, []) else none

/-- Words in order; the first rejection is the outcome (03 R65). -/
def scanWords (all : List PageWord) (blocks : List OpenBlock) (size : Nat) (x : Bool) :
    List PageWord → Nat → Announced → ScanOutcome
  | [], _, _ => { code := 0, off := 0, depth := 0 }
  | w :: rest, i, cmd =>
    let code := wordCode all blocks size x i w rest cmd
    if code ≠ 0 then
      { code, off := w.off, depth := (blocks.filter (fun b => b.holds i)).length + w.isHeader.toNat }
    else scanWords all blocks size x rest (i + 1) (w.announces cmd)

/-- Scan the bytes of a page of tag `x`. -/
def scanPage (x : Bool) (bs : List Byte) : ScanOutcome :=
  let ws := pageWords (bytesToParcels bs) 0
  scanWords ws (pageBlocks ws 0) bs.length x ws 0 none

/-- CPSCAN (03 Table 3-6). -/
def ScanOutcome.pack (o : ScanOutcome) (x : Bool) : Word :=
  BitVec.ofNat 64 (o.off * 2 ^ 32 + x.toNat * 2 ^ 16 + o.depth % 256 * 2 ^ 8 + o.code)

end Sys2Proof.Machine
end

