-- ==== Sys2Proof/Machine/Paging.lean ====
section
/-! DEFINITION. Page-table updates, replicas, scans, code patches, tlbinv and xlat (03 R64 to R68; 18 R363, R364; 19). -/

namespace Sys2Proof.Machine

/-! ## Leaf entries (19 R373 to R375, R377) -/

def leafV (l : Word) : Bool := l.getLsbD 63
def leafX (l : Word) : Bool := l.getLsbD 56
def leafTag (l : Word) : Bool := l.getLsbD 55
def leafType (l : Word) : Nat := bits l.toNat 60 59

/-- A present entry is malformed, its virtual base apart (19 R374). -/
def leafMalformed (l : Word) : Bool :=
  leafV l && (bits l.toNat 50 48 != 0 || bits l.toNat 11 0 != 0 || leafType l == 3 ||
    (bits l.toNat 47 12 * 4096) % leafSize l != 0 || (leafTag l && !leafX l))

/-- The frame lies in the HBM ranges of the partition (19 R374). -/
def Partition.frameOk (p : Partition) (l : Word) : Bool :=
  leafType l == 2 || inRanges p.layout.hbm (bits l.toNat 47 12 * 4096) (leafSize l)

/-- The entries without those that a range overlaps (19 R375). -/
def removeOverlaps (es : List PageEntry) (base size : Nat) : List PageEntry :=
  es.filter (fun e => !overlap e.base e.size base size)

/-- Install an entry, or remove mappings (19 R375). X is granted only by the scanner. -/
def installEntry (es : List PageEntry) (base : Nat) (l : Word) : List PageEntry :=
  let es := removeOverlaps es base (leafSize l)
  if leafV l then { base, leaf := l, granted := false } :: es else es

/-- ECODE of one entry of a list (19 R386). -/
def Partition.ecode (p : Partition) (es : List PageEntry) (base leaf reserved : Nat) : Nat :=
  let l := BitVec.ofNat 64 leaf
  if bits base 63 48 ≠ 0 || base % leafSize l ≠ 0 then 1
  else if leafMalformed l || reserved ≠ 0 then 2
  else if leafV l && !p.frameOk l then 3
  else if leafV l && decide (p.layout.cap < (installEntry es base l).length) then 4
  else 0

/-- An entry of a list with its ECODE. -/
structure ListEntry where
  index : Nat
  base : Nat
  leaf : Word
  ecode : Nat
  deriving DecidableEq, Repr

/-- Judge and apply entries in list order (19 R386). -/
def Partition.applyList (p : Partition) : List PageEntry → List (Nat × Nat × Nat × Nat) → List ListEntry × List PageEntry
  | es, [] => ([], es)
  | es, (k, base, leaf, reserved) :: rest =>
    let c := p.ecode es base leaf reserved
    let l := BitVec.ofNat 64 leaf
    let r := p.applyList (if c = 0 then installEntry es base l else es) rest
    ({ index := k, base, leaf := l, ecode := c } :: r.1, r.2)

/-- ERES (19 Table 19-5) of an entry whose scan, if there is one, gave `scan` (as CPSCAN). -/
def packEres (ecode : Nat) (scan : Word) : Nat := scan.toNat + 2 ^ 31 + ecode * 2 ^ 24

/-! ## Waiting cores -/

/-- A core's form completes: its result enters S[D] and it goes on. -/
def State.resumeCore (s : State) (k : Nat) (d : BitVec 5) (v : Word) : State :=
  let c := s.core k
  s.setCore k { c with wait := none, a := (c.a.setReg d v).retire 4 }

/-- Every replica has reached the engine's generation (19 R376). -/
def Partition.replicasDone (p : Partition) : Bool := p.replicas.all (fun r => r.2.gen == p.sentGen)

/-- The ptupd of a partition that the engine performs: its core, its destination, and whether an entry was refused. -/
def State.ptupdRuns (s : State) (p : Nat) : Option (Nat × BitVec 5 × Bool) :=
  (List.range 16).findSome? (fun k => match (s.core k).wait with
    | some (.ptupd d bad) => if s.agentPart (.core k) = p then some (k, d, bad) else none
    | _ => none)

/-- A ptupd whose replicas have stepped and whose scans have finished completes (19 R386). -/
def State.finishPtupd (s : State) (p : Nat) : State :=
  let pt := s.part p
  if !pt.replicasDone then s
  else
    let s := s.setPart p { pt with tgen := pt.sentGen }
    match s.ptupdRuns p with
    | none => s
    | some (k, d, bad) =>
      if pt.scans.any (fun c => c.core == k && c.patch.isNone) then s
      else (s.setPart p { s.part p with changes := pt.changes + 1 }).resumeCore k d (if bad then 0x100 else 0)

/-! ## Scans (03 R64, R65; 18 R363; 19 R386) -/

/-- The places of a physical span as one piece. -/
def wholePlace (l : Nat) (n : Nat) : List (Option Nat × Nat) := [(some l, n)]

/-- X is granted to the entry that is still the one scanned, in the table and in every replica. -/
def grantX (es : List PageEntry) (base : Nat) (leaf : Word) : List PageEntry :=
  es.map (fun e => if e.base = base && e.leaf = leaf then { e with granted := true } else e)

/-- The fixed outcome of an entry that is not read (03 R64): 0x0D with write permission, 0x0E on a 1 GiB page. -/
def fixedScan (l : Word) : Option Nat :=
  if l.getLsbD 57 then some 0x0D else if bits l.toNat 62 61 = 3 then some 0x0E else none

/-- The bytes a scan reads. -/
def State.scanBytes (s : State) (c : Scan) : List Byte :=
  match c.patch with
  | some p => p.1
  | none => c.locs.flatMap (fun l => readBytes s.mem l.1 l.2)

/-- The scan reads poison: it fails before it writes anything derived from the page (22 R416; log 45). -/
def State.scanPoisoned (s : State) (c : Scan) : Bool := c.fixed.isNone && c.patch.isNone && c.locs.any (fun l => s.poisoned l.1 l.2)

def State.scanOutcome (s : State) (c : Scan) : ScanOutcome :=
  match c.fixed with
  | some code => { code, off := 0, depth := 0 }
  | none => scanPage c.tag (s.scanBytes c)

/-- A result word goes into the list; on a die that failed nothing is written (22 R419). -/
def State.writeEres (s : State) (loc ecode : Nat) (scan : Word) : State :=
  if s.onLostDie loc then s else s.putBytes loc (leBytes 8 (packEres ecode scan))

/-- The scan of a poisoned page ends: X is not granted and CPSCAN stays; the scan outcome in the entry's ERES is not stated, a
free value (log 45). -/
def State.failScan (s : State) (p : Nat) (c : Scan) (rest : List Scan) : State :=
  let v := s.free
  let s := v.2.setPart p { v.2.part p with scans := rest }
  let s := match c.eres with
    | some e => s.writeEres e.1 e.2 (v.1 &&& 0xFFFFFFFF0001FFFF)
    | none => s
  s.finishPtupd p

/-- The scan of a partition that finishes next, in the order in which they were started. An image for a page on a die that
failed is not written, as one that faults (22 R419). -/
def State.finishScan (s : State) (p : Nat) (c : Scan) (rest : List Scan) : State :=
  let o := s.scanOutcome c
  let word := o.pack c.tag
  let pt := s.part p
  let s := s.setPart p { pt with scans := rest, cpscan := word }
  match c.patch with
  | some pc =>
    let lost := pc.2.any (fun l => s.onLostDie l.1)
    let s := if o.code = 0 && !lost then (pc.2.zip (pieces pc.1 pc.2)).foldl (fun s q => s.putBytes q.1.1 q.2) s else s
    match (s.core c.core).wait with
    | some (.cpatch d) => s.resumeCore c.core d (if o.code ≠ 0 then 0x0C else if lost then 0x06 else 0)
    | _ => s
  | none =>
    let leaf := c.leaf
    let s := if o.code = 0 then
        s.setPart p { s.part p with
          entries := grantX (s.part p).entries c.base leaf
          replicas := (s.part p).replicas.map (fun r => (r.1, { r.2 with entries := grantX r.2.entries c.base leaf })) }
      else s
    let s := match c.eres with
      | some e => s.writeEres e.1 e.2 word
      | none => s
    s.finishPtupd p
where
  /-- The image cut into the pieces it goes to. -/
  pieces : List Byte → List (Nat × Nat) → List (List Byte)
    | _, [] => []
    | bs, l :: rest => bs.take l.2 :: pieces (bs.drop l.2) rest

/-- The scanner is usable, and a scan waits (23 R432). -/
def State.scanDue (s : State) (p : Nat) : Bool := s.rdymap0.getLsbD 4 && !(s.part p).scans.isEmpty

/-- SCAN_COMPLETE (03 R65): the scan ends, judged by the page's bytes, or failed by poison (22 R416). -/
def execScanComplete (part : Nat) (s : State) : Host.Outcome State Fault Refusal :=
  event (decide (part < 8) && s.scanDue part) s
    (match (s.part part).scans with
     | c :: rest => if s.scanPoisoned c then s.failScan part c rest else s.finishScan part c rest
     | [] => s)

/-! ## Replicas (19 R376) -/

def State.replicaDue (s : State) (p slot : Nat) : Bool :=
  decide (p < 8) && (match (s.part p).replicas.find? slot with
    | some r => r.gen != (s.part p).sentGen
    | none => false)

/-- REPLICA_STEP: a replica moves to the engine's generation in one update. -/
def execReplicaStep (part slot : Nat) (s : State) : Host.Outcome State Fault Refusal :=
  event (s.replicaDue part slot) s
    (let pt := s.part part
     (s.setPart part { pt with replicas := pt.replicas.insert slot { gen := pt.sentGen, entries := pt.entries } }).finishPtupd part)

/-! ## ptupd (19 R386) -/

/-- The scan of an applied entry (03 R64). -/
def scanOf (k : Nat) (eres : Nat → Option Nat) (e : ListEntry) : Option Scan :=
  if e.ecode = 0 && leafV e.leaf && leafX e.leaf then
    some { base := e.base, size := leafSize e.leaf, tag := leafTag e.leaf, leaf := e.leaf,
           locs := [((if leafType e.leaf = 2 then hostLoc 0 else 0) + bits e.leaf.toNat 47 12 * 4096, leafSize e.leaf)],
           fixed := fixedScan e.leaf, core := k, eres := (eres e.index).map (fun l => (l, e.ecode)), patch := none }
  else none

/-- The entries of a list of n (19 R386): index, base, leaf and reserved bytes. -/
def listEntries (bs : List Byte) (n : Nat) : List (Nat × Nat × Nat × Nat) :=
  (List.range n).map (fun k =>
    let e := (bs.drop (32 * k)).take 32
    (k, leValue (e.take 8), leValue ((e.drop 8).take 8), leValue ((e.drop 24).take 8)))

/-- The place of byte `off` of a span. -/
def placeAt : List (Option Nat × Nat) → Nat → Option Nat
  | [], _ => none
  | (l, n) :: rest, off => if off < n then l.map (· + off) else placeAt rest (off - n)

/-- Apply a list that has been read. -/
def State.runPtupd (s : State) (k : Nat) (d : BitVec 5) (n : Nat) (ls : List (Option Nat × Nat)) : State :=
  let p := s.agentPart (.core k)
  let pt := s.part p
  let r := pt.applyList pt.entries (listEntries (s.readPlaces ls) n)
  let bad := r.1.any (fun e => e.ecode != 0)
  let eres (i : Nat) := placeAt ls (32 * i + 16)
  let scans := r.1.filterMap (scanOf k eres)
  let s := (r.1.filter (fun e => (scanOf k eres e).isNone)).foldl (fun s e =>
    match eres e.index with
    | some l => s.writeEres l e.ecode 0
    | none => s) s
  if r.1.any (fun e => e.ecode == 0) then
    let s := s.setPart p { s.part p with entries := r.2, sentGen := pt.sentGen + 1, scans := (s.part p).scans ++ scans }
    (s.setCore k { s.core k with wait := some (.ptupd d bad) }).finishPtupd p
  else s.resumeCore k d (if bad then 0x100 else 0)

/-- Read the list of a ptupd whose turn has come, and apply it; a list that faults gives 0x01. -/
def State.startPtupd (s : State) (k : Nat) (d : BitVec 5) (list : Word) (n : Nat) : State :=
  match s.span (.core k) false list (32 * n) .read, s.span (.core k) false list (32 * n) .write with
  | .ok ls, .ok _ => if s.placesPoisoned ls then s.resumeCore k d 0x01 else s.runPtupd k d n ls
  | _, _ => s.resumeCore k d 0x01

/-- The ptupd of a core reaches the table-update engine once the stores of its core are performed, and takes a number. -/
def State.reachPtupd (s : State) (k : Nat) : State :=
  match (s.core k).wait with
  | some (.ptupdTurn d l n none) =>
    if (s.core k).a.out.isEmpty then
      State.setCore { s with nextPtupd := s.nextPtupd + 1 } k { s.core k with wait := some (.ptupdTurn d l n (some s.nextPtupd)) }
    else s
  | _ => s

/-- The number with which the ptupd of a core waits for its turn. -/
def State.ptupdTurn (s : State) (k : Nat) : Option Nat :=
  match (s.core k).wait with
  | some (.ptupdTurn _ _ _ t) => t
  | _ => none

/-- The core whose ptupd reached the engine first. -/
def State.firstPtupd (s : State) : Option Nat :=
  ((List.range 16).foldl (fun acc k => match s.ptupdTurn k, acc with
    | some t, some (u, j) => if t < u then some (t, k) else some (u, j)
    | some t, none => some (t, k)
    | none, acc => acc) (none : Option (Nat × Nat))).map (·.2)

/-- The table-update engine, once it is usable (23 R432), ends the ptupd that it performs, or takes up the next: it performs
those of all partitions one at a time, in the order in which they reach it (19 R376). -/
def State.advancePtupd (s : State) : State :=
  let s := (List.range 8).foldl State.finishPtupd s
  if (List.range 8).any (fun p => (s.ptupdRuns p).isSome) || !s.rdymap0.getLsbD 3 then s
  else match s.firstPtupd.bind (fun k => (s.core k).wait.map (fun w => (k, w))) with
    | some (k, .ptupdTurn d l n _) => s.startPtupd k d l n
    | _ => s

/-- ptupd: its core stalls until it completes (19 R386, R387). -/
def execPtupd (d a b : BitVec 5) (s : State) : Host.Outcome State Fault Refusal :=
  onSupervisor s [d, a, b] 0x1D 0x9 (fun k c =>
    let n := (c.a.reg b).toNat
    let addr := c.a.reg a
    let give (v : Word) : State := s.setCore k { c with a := (c.a.setReg d v).retire 4 }
    if n = 0 || 256 < n then give 0x02
    else if addr.toNat % 64 ≠ 0 || bits addr.toNat 63 60 ≠ 0 then give 0x01
    else ((s.setCore k { c with wait := some (.ptupdTurn d addr n none) }).reachPtupd k).advancePtupd)

/-! ## tlbinv, ibinv, xlat (18 R364; 19 R384, R387, R388) -/

/-- Accesses of a partition that have been translated and are not performed, in a virtual range (19 R384). -/
def State.translatedIn (s : State) (p base len : Nat) : List (Agent × Nat) :=
  let hit (x : Access) : Bool := x.committed && !x.kind.isSync && isTranslated x.ea.toNat && overlap (bits x.ea.toNat 47 0) x.width base len
  let of (ag : Agent) (a : ASeq) : List (Agent × Nat) := (a.out.filter hit).map (fun x => (ag, x.id))
  (s.cells.filter (fun c => partOfCell c.1 = p)).flatMap (fun c => of (.aseq c.1) c.2.a) ++
    ((List.range 16).filter (fun k => s.agentPart (.core k) = p)).flatMap (fun k => of (.core k) (s.core k).a)

/-- Mirrored writes in transit in a virtual range. -/
def Partition.mirrorsIn (p : Partition) (base len : Nat) : List Nat :=
  (p.mirrorOut.filter (fun w => overlap (bits w.ea.toNat 47 0) w.data.length base len)).map (·.id)

/-- Every TLB of a partition drops the entries that overlap a range. -/
def State.dropTlb (s : State) (p base len : Nat) : State :=
  let out (e : PageEntry) : Bool := !overlap e.base e.size base len
  { s with
    cells := s.cells.map (fun c => if partOfCell c.1 = p then (c.1, { c.2 with tlb := c.2.tlb.filter out }) else c)
    dieTlb := s.dieTlb.map (fun d => (d.1, d.2.filter (fun e => e.1 != p || out e.2))) }

/-- What a tlbinv waits for is performed. -/
def State.tlbinvDone (s : State) (p : Nat) (accs : List (Agent × Nat)) (writes : List Nat) : Bool :=
  accs.all (fun a => (s.access? a.1 a.2).isNone) && !(s.part p).mirrorOut.any (fun w => writes.contains w.id)

/-- tlbinv: the cached entries of the range are dropped at once, each replica has reached the generation that TGEN gives, and
the core stalls until what had been translated is performed (19 R384, R387). -/
def execTlbinv (a b : BitVec 5) (s : State) : Host.Outcome State Fault Refusal :=
  onSupervisor s [a, b] 0x1D 0xA (fun k c =>
    let p := s.agentPart (.core k)
    let len := (c.a.reg b).toNat
    let base := if len = 0 then 0 else bits (c.a.reg a).toNat 47 0
    let size := if len = 0 then 2 ^ 48 else min len (2 ^ 48 - base)
    let accs := s.translatedIn p base size
    let writes := (s.part p).mirrorsIn base size
    (s.dropTlb p base size).setCore k
      (if accs.isEmpty && writes.isEmpty then { c with a := c.a.retire 4 } else { c with wait := some (.tlbinv accs writes) }))

/-- A waiting ptupd or tlbinv of a core goes on. The core is not stopped before it completes (19 R387). -/
def State.advanceCore (s : State) (k : Nat) : State :=
  match (s.core k).wait with
  | some (.ptupdTurn ..) => s.reachPtupd k
  | some (.tlbinv accs writes) =>
    if s.tlbinvDone (s.agentPart (.core k)) accs writes then
      s.setCore k { s.core k with wait := none, a := (s.core k).a.retire 4 }
    else s
  | _ => s

/-- The cycle ends: the forms for which cores wait go on. -/
def State.advanceCores (s : State) : State :=
  ((List.range 16).foldl State.advanceCore s).advancePtupd

/-- A loop buffer without the words of a span. -/
def Pos.dropBuf (p : Pos) (base len : Nat) : Pos :=
  { p with buf := p.buf.filter (fun w => !(decide (base ≤ w.1.toNat % 2 ^ 48) && decide (w.1.toNat % 2 ^ 48 < base + len))) }

/-- Loop buffers of a partition drop the words of a page (18 R364). -/
def State.dropWords (s : State) (p base len : Nat) : State :=
  (List.range 16).foldl (fun s k =>
    if s.agentPart (.core k) = p then
      s.setCore k { s.core k with a := { (s.core k).a with pos := (s.core k).a.pos.dropBuf base len } }
    else s)
    { s with cells := s.cells.map (fun c => if partOfCell c.1 = p then
        (c.1, { c.2 with a := { c.2.a with pos := c.2.a.pos.dropBuf base len }, x := { c.2.x with pos := c.2.x.pos.dropBuf base len } })
      else c) }

/-- The page of the partition that holds an address: base and size; with no entry there, the whole space. -/
def Partition.pageOf (p : Partition) (va : Nat) : Nat × Nat :=
  match findEntry p.entries va with
  | some e => (e.base, e.size)
  | none => (0, 2 ^ 48)

/-- ibinv: the loop buffers drop the page; no other instruction is cached (18 R364, log 10). -/
def execIbinv (a : BitVec 5) (s : State) : Host.Outcome State Fault Refusal :=
  onSupervisor s [a] 0x1D 0x4 (fun k c =>
    let p := s.agentPart (.core k)
    let page := (s.part p).pageOf (bits (c.a.reg a).toNat 47 0)
    let t := s.dropWords p page.1 page.2
    t.setCore k { t.core k with a := (t.core k).a.retire 4 })

def probeOf (m : BitVec 5) : Probe :=
  match (m.extractLsb' 0 2).toNat with
  | 0 => .read
  | 1 => .write
  | 2 => .fetch
  | _ => .atomic

/-- The result of xlat (19 R388). -/
def State.xlatResult (s : State) (ag : Agent) (ea : Word) (pr : Probe) : Word :=
  let a := ea.toNat
  let user := decide (s.agentPriv ag = .user)
  if !isTranslated a || bits a 59 48 ≠ 0 then 0x10
  else match findEntry (s.replica (s.agentPart ag) (s.agentSlot ag)) (bits a 47 0) with
    | none => 0x01
    | some e =>
      let code := xlatCode (some e) user pr
      let code := if code = 0 && !pathAccepts (bits a 63 60) e.mtype pr.writes then 0x08 else code
      let keep := if user then 0xFFFF000000000000#64 else 0xFFFFFFFFFFFFF000#64
      (e.leaf &&& keep) ||| BitVec.ofNat 64 code

/-- xlat is user-level on cells and control cores (19 R385, R388). -/
def execXlat (d a m : BitVec 5) (s : State) : Host.Outcome State Fault Refusal :=
  onA s [d, a] (fun ag q => s.finish ag (q.setReg d (s.xlatResult ag (q.reg a) (probeOf m))) 4)

/-! ## cpatch (18 R363) -/

/-- cpatch: the image waits its turn at the scanner, and the core stalls until the outcome. A page of host memory is not
executable (03 R69). -/
def execCpatch (d a b : BitVec 5) (s : State) : Host.Outcome State Fault Refusal :=
  onSupervisor s [d, a, b] 0x1D 0x5 (fun k c =>
    let p := c.part.getD 0
    let va := (c.a.reg a).toNat
    let img := c.a.reg b
    let fail : State := s.setCore k { c with a := (c.a.setReg d 0x06).retire 4 }
    match findEntry (s.part p).entries (bits va 47 0) with
    | none => fail
    | some e =>
      if bits va 63 48 ≠ 0 || !e.granted || leafType e.leaf == 2 || img.toNat % 64 ≠ 0 || bits img.toNat 63 60 ≠ 0 then fail
      else if !c.a.out.isEmpty then s
      else match s.span (.core k) false img e.size .read with
        | .error _ => fail
        | .ok ls =>
          if s.placesPoisoned ls then fail
          else
            let sc : Scan :=
              { base := e.base, size := e.size, tag := leafTag e.leaf, leaf := e.leaf, locs := [], fixed := none, core := k,
                eres := none, patch := some (s.readPlaces ls, [(e.pa e.base, e.size)]) }
            (s.setPart p { s.part p with scans := (s.part p).scans ++ [sc] }).setCore k { c with wait := some (.cpatch d) })

end Sys2Proof.Machine
end

