-- ==== Sys2Proof/Machine/Ports.lean ====
section
/-! DEFINITION. Host ports, the host semaphore, layout commands, measurement and attestation, package reset
(01 R15 to R17; 06 R128; 16 R313; 21 R404; 23). -/

namespace Sys2Proof.Machine

/-! ## Ports (06 R128, 23 R423, R426) -/

def portIx (b : Bool) : Fin 2 := if b then 1 else 0

/-- HOST_LINK_UP: host-path accesses of the port pass from now on. -/
def execHostLinkUp (port : Bool) (s : State) : Host.Outcome State Fault Refusal :=
  .next { s with portUp := s.portUp.set (portIx port) true }

/-- HOST_LINK_DOWN: an owner whose link goes down gives up the semaphore (23 R426). -/
def execHostLinkDown (port : Bool) (s : State) : Host.Outcome State Fault Refusal :=
  .next { s with
    portUp := s.portUp.set (portIx port) false
    hsem := if s.hsem.held && s.hsem.owner == port then { s.hsem with held := false } else s.hsem }

/-- The HBM that a host port serves: that of the partitions whose work queues it owns (23 Table 23-1). -/
def State.portRanges (s : State) (port : Bool) : List (Nat × Nat) :=
  ((List.range 8).filter (fun p => (s.portsOf p).contains port)).flatMap (fun p => (s.part p).layout.hbm)

def State.portServes (s : State) (port : Bool) (pa len : Nat) : Bool := inRanges (s.portRanges port) pa len

/-- The dies that hold a span of HBM are active (23 R432). -/
def State.hbmReady (s : State) (pa len : Nat) : Bool :=
  s.rdymap1.getLsbD (hbmSlot pa) && s.rdymap1.getLsbD (hbmSlot (pa + len - 1))

/-- A host reads HBM that its port serves: the bytes, or poison from a poisoned unit or before the die is active (22 R416,
23 R432). -/
def State.hostRead (s : State) (port : Bool) (pa len : Nat) : State :=
  let bad := !s.hbmReady pa len || s.poisoned pa len
  { s with hostReplies := { port, data := if bad then [] else readBytes s.mem pa len, poison := bad } :: s.hostReplies }

/-- A host writes HBM that its port serves; a write of part of a poisoned unit fails before it writes (22 R416). The device
observes control lines of queues among the bytes (17 R328). -/
def State.hostWrite (s : State) (pa : Nat) (data : List Byte) : State :=
  if s.hbmReady pa data.length && !s.partialPoison pa data.length then (s.putBytes pa data).observeLines pa data.length else s

/-! ## The host semaphore (23 R426) -/

/-- The registers of the semaphore are usable (23 R432). -/
def State.hsemReady (s : State) : Bool := s.rdymap0.getLsbD 6

/-- HSEM_ACQUIRE: a port writes HELD = 1. -/
def execHsemAcquire (port : Bool) (s : State) : Host.Outcome State Fault Refusal :=
  event (s.hsemReady && !s.hsem.held) s { s with hsem := { seq := s.hsem.seq + 1, owner := port, held := true } }

/-- HSEM_RELEASE: the owner writes HELD = 0. -/
def execHsemRelease (port : Bool) (s : State) : Host.Outcome State Fault Refusal :=
  event (s.hsemReady && s.hsem.held && s.hsem.owner == port) s { s with hsem := { s.hsem with held := false } }

/-- HSEM as software reads it (23 Table 23-3). -/
def Hsem.read (h : Hsem) : Word := BitVec.ofNat 64 (h.held.toNat + h.owner.toNat * 2 + h.seq.toNat * 2 ^ 16)

/-! ## Layout commands (23 R427, R428) -/

/-- The bytes at a host-path address; none when the read faults. -/
def State.hostBytes (s : State) (port : Bool) (a : Word) (len : Nat) : Option (List Byte) :=
  let n := a.toNat
  let loc := hostLoc (bits n 47 0)
  if bits n 63 60 ≠ 4 || bits n 59 48 ≠ 0 || decide (2 ^ 48 < bits n 47 0 + len) || !s.portUp[portIx port] || s.poisoned loc len then none
  else some (readBytes s.mem loc len)

/-- LCMD and LSTAT after a command; it has run when the write has been accepted, so that BUSY reads 0. -/
def State.commandDone (s : State) (op : Nat) (addr : Word) (code : Nat) : State :=
  { s with lcmd := (addr &&& ~~~63#64) ||| BitVec.ofNat 64 op, lstatBusy := false, lstatCode := BitVec.ofNat 8 code }

/-- A layout command: the checks of 23 R428 in its order, then `run`, which gives a code and the state it leaves. -/
def layoutCommand (port : Bool) (op len : Nat) (addr : Word) (s : State) (run : List Byte → Nat × State) : Host.Outcome State Fault Refusal :=
  event (s.hsemReady && !s.lstatBusy && !s.pkgstat.getLsbD 0) s
    (if !s.hsem.held || s.hsem.owner != port then s.commandDone op addr 1
     else match s.hostBytes port (addr &&& ~~~63#64) len with
       | none => s.commandDone op addr 5
       | some bs => let r := run bs; r.2.commandDone op addr r.1)

/-- LAYOUT_RESERVED_OP: op 0 or 6 to 15 (23 Table 23-4's Op). -/
def execLayoutReservedOp (port : Bool) (op : BitVec 4) (addr : BitVec 64) (s : State) : Host.Outcome State Fault Refusal :=
  event (s.hsemReady && !s.lstatBusy && !s.pkgstat.getLsbD 0 && (op == 0 || decide (6 ≤ op.toNat))) s
    (s.commandDone op.toNat addr (if !s.hsem.held || s.hsem.owner != port then 1 else 3))

/-! ### The partition descriptor (23 Table 23-4) -/

/-- Eight ranges of HBM; those of length 0 are unused. -/
def descHbm (bs : List Byte) : List (Nat × Nat) :=
  ((List.range 8).map (fun k => (field bs (144 + 16 * k) 8, field bs (152 + 16 * k) 8))).filter (fun r => r.2 != 0)

def descBuffers (bs : List Byte) : List Nat := (List.range (min (field bs 132 1) 8)).map (fun k => field bs (133 + k) 1)

/-- Insert in ascending order. -/
def insertSlot (x : Nat) : List Nat → List Nat
  | [] => [x]
  | y :: rest => if x ≤ y then x :: y :: rest else y :: insertSlot x rest

def descLayout (bs : List Byte) : Layout :=
  { det := bit (field bs 1 1) 0, test := bit (field bs 1 1) 1
    share := Vector.ofFn (fun (i : Fin 32) => BitVec.ofNat 32 (field bs (4 + 4 * i.val) 4))
    buffers := (descBuffers bs).foldl (fun l x => insertSlot x l) [], hbm := descHbm bs, cap := field bs 272 4
    scoreboard := field bs 276 2, cores := BitVec.ofNat 16 (field bs 278 2), firstQueue := bits (field bs 280 4) 11 0
    queueCount := bits (field bs 280 4) 27 16, port := bit (field bs 280 4) 31 }

def distinct : List Nat → Bool
  | [] => true
  | x :: rest => !rest.contains x && distinct rest

/-- The descriptor is valid: its fields lie in their ranges, and its reserved bits and bytes are 0. -/
def layoutValid (bs : List Byte) : Bool :=
  let l := descLayout bs
  let n := field bs 132 1
  decide (field bs 0 1 < 8) && decide (field bs 1 1 < 4) && zeros bs 2 2 &&
    (List.range 32).all (fun s => decide (field bs (4 + 4 * s) 4 < 2 ^ slotUnits s)) &&
    decide (n ≤ 8) && l.buffers.all (fun s => slotType s == 4) && distinct l.buffers && zeros bs (133 + n) (11 - n) &&
    l.hbm.all (fun r => decide (r.1 + r.2 ≤ 2 ^ 40)) && decide (1 ≤ l.scoreboard) && decide (l.scoreboard ≤ 256) &&
    bits (field bs 280 4) 15 12 == 0 && bits (field bs 280 4) 30 28 == 0 && decide (l.firstQueue + l.queueCount ≤ 4096)

def rangesMeet (a b : Nat × Nat) : Bool := decide (a.1 < b.1 + b.2) && decide (b.1 < a.1 + a.2)

/-- Two layouts name a resource in common. -/
def Layout.meets (a b : Layout) : Bool :=
  (List.range 32).any (fun (i : Nat) => (a.share[i % 32]'(Nat.mod_lt _ (by decide))) &&& (b.share[i % 32]'(Nat.mod_lt _ (by decide))) != 0) ||
    a.buffers.any b.buffers.contains || a.hbm.any (fun r => b.hbm.any (rangesMeet r)) || a.cores &&& b.cores != 0 ||
    (a.queueCount != 0 && b.queueCount != 0 && rangesMeet (a.firstQueue, a.queueCount) (b.firstQueue, b.queueCount))

/-- Resources that another partition holds, or that all partitions together would exceed (17 R335, 19 R377). -/
def State.resourcesHeld (s : State) (p : Nat) (l : Layout) : Bool :=
  let others := (List.range 8).filter (fun q => q != p && (s.part q).formed)
  let sum (f : Layout → Nat) : Nat := others.foldl (fun n q => n + f (s.part q).layout) (f l)
  others.any (fun q => l.meets (s.part q).layout) || decide (256 < sum (·.scoreboard)) || decide (2 ^ 20 < sum (·.cap))

/-! ### Forming and dissolving -/

/-- Slices of the buffer dies of a layout: every byte 0, with no mark, tag or poison (06 R132, 07 R149, 08 R184). -/
def State.clearBuffers (s : State) (l : Layout) : State :=
  l.buffers.foldl (fun s slot => s.clearSlice (unitKey slot 0) (32 * 2 ^ 30)) s

/-- A control core leaves its partition. -/
def State.releaseCores (s : State) (p : Nat) : State :=
  (List.range 16).foldl (fun s k => if (s.core k).part = some p then s.setCore k Core.idle else s) s

/-- Trap records and cached translations of a partition are gone with it. -/
def State.forget (s : State) (p : Nat) : State :=
  { s with records := s.records.filter (fun r => r.1 != p), dieTlb := s.dieTlb.map (fun d => (d.1, d.2.filter (fun e => e.1 != p))) }

/-- The empty replicas of a partition's table, one for each active die (19 R378). -/
def State.newReplicas (s : State) : AMap Replica :=
  ((List.range 29).filter (fun slot => mixSt (s.mix slot) == 1)).map (fun slot => (slot, { gen := 0, entries := [] }))

/-- Every gang is discarded, every launch, running or still in its queue, completes with status 0x01, and the partition's registers go back to those of a
partition that is not formed; PFATAL stays until it is formed (18 Table 18-4). -/
def State.dissolve (s : State) (p : Nat) : State :=
  let pt := s.part p
  let s := s.settleStays p
  let s := (s.gangs.filter (fun g => partOfGang g.1 = p)).foldl (fun s g => s.endGang g.1 1) s
  let s := ((s.wqcfg.map (·.1)).filter (fun n => wqPart (s.wq n) = p)).foldl (fun s n => s.cancelRecords n (wqRing (s.wq n))) s
  let ls := s.launches.filter (fun l => l.2.part = p)
  let s := ls.foldl (fun s l => s.cancelLaunch l.1) s
  let s := ls.foldl (fun s l => s.finishLaunch l.1) s
  (((s.clearBuffers pt.layout).releaseCores p).forget p).setPart p { Partition.unformed with pfatal := pt.pfatal }

/-- DREMAP (06 Table 6-4). -/
def dremapOf (l : List Nat) : Word :=
  BitVec.ofNat 64 (((List.range 8).map (fun k => l.getD k 0x1F * 2 ^ (5 * k))).foldl (· + ·) 0 + l.length * 2 ^ 40)

/-- Root gives a queue its PART and PORT; the other fields stay (17 R327). -/
def State.writeQueueOwner (s : State) (n p : Nat) (port : Bool) : State :=
  let w := (s.wq n &&& ~~~0x0F00000000000000#64) ||| BitVec.ofNat 64 (p * 2 ^ 57 + port.toNat * 2 ^ 56)
  { s with wqcfg := if w = 0 then s.wqcfg.remove n else s.wqcfg.insert n w }

/-- PART and PORT of the queues of a layout (17 R327). -/
def State.giveQueues (s : State) (p : Nat) (l : Layout) : State :=
  (List.range l.queueCount).foldl (fun s k => s.writeQueueOwner (l.firstQueue + k) p l.port) s

/-- The partition is formed: the registers of 23 Table 23-4 are set, PFATAL is cleared. -/
def State.form (s : State) (p : Nat) (l : Layout) : State :=
  let s := (s.clearBuffers l).setPart p { Partition.unformed with
    formed := true, layout := l, dremap := dremapOf l.buffers, replicas := s.newReplicas }
  let s := (List.range 16).foldl (fun s k => if l.cores.getLsbD k then s.setCore k { Core.idle with part := some p } else s) s
  s.giveQueues p l

/-- FORM_PARTITION (23 R428). -/
def execFormPartition (port : Bool) (addr : BitVec 64) (s : State) : Host.Outcome State Fault Refusal :=
  layoutCommand port 1 284 addr s (fun bs =>
    let p := field bs 0 1
    let l := descLayout bs
    if !layoutValid bs then (3, s)
    else if s.resourcesHeld p l || ((s.part p).formed && !(s.part p).stopped) then (4, s)
    else (0, ((if (s.part p).formed then s.dissolve p else s).form p l)))

/-- DISSOLVE_PARTITION (23 R428). -/
def execDissolvePartition (port : Bool) (addr : BitVec 64) (s : State) : Host.Outcome State Fault Refusal :=
  layoutCommand port 2 1 addr s (fun bs =>
    let p := field bs 0 1
    if 8 ≤ p then (3, s) else (0, if (s.part p).formed then s.dissolve p else s))

/-- WRITE_WPOL (21 R409, 23 R428). -/
def execWriteWpol (port : Bool) (addr : BitVec 64) (s : State) : Host.Outcome State Fault Refusal :=
  layoutCommand port 3 16 addr s (fun bs =>
    let p := field bs 0 1
    if 8 ≤ p then (3, s) else (0, s.setPart p { s.part p with wpol := BitVec.ofNat 2 (field bs 8 8) }))

/-- WRITE_CETHR (22 R421, 23 R428). -/
def execWriteCethr (port : Bool) (addr : BitVec 64) (s : State) : Host.Outcome State Fault Refusal :=
  layoutCommand port 4 16 addr s (fun bs => (0, { s with cethr := BitVec.ofNat 64 (field bs 8 8) &&& 0x8000FFFF }))

/-- STAGE_FIRMWARE: the image is taken at the next package reset (23 R428). -/
def execStageFirmware (port : Bool) (addr : BitVec 64) (s : State) : Host.Outcome State Fault Refusal :=
  layoutCommand port 5 16 addr s (fun bs =>
    match s.hostBytes port (BitVec.ofNat 64 (field bs 0 8)) (field bs 8 8) with
    | none => (3, s)
    | some img => (0, { s with staged := s.staged ++ [img] }))

/-! ## Measurement and attestation (23 R430, R431) -/

/-- An image extends a measurement register. -/
def extendMr (m : Vector (BitVec 512) 8) (i : Nat) (img : List Byte) : Vector (BitVec 512) 8 :=
  let old := m[i % 8]'(Nat.mod_lt _ (by decide))
  m.set (i % 8) (Config.shake256 (leBytes 64 old.toNat ++ leBytes 64 (Config.shake256 img).toNat)) (Nat.mod_lt _ (by decide))

/-- The responder of a port answers, once it is ready. -/
def State.respond (s : State) (port : Bool) (req resp : List Byte) : State :=
  { s with spdm := s.spdm.set (portIx port) (req, resp) }

def State.spdmReady (s : State) : Bool := s.rdymap0.getLsbD 7

/-- A request whose response the spec names without giving its contents (log 9). -/
def State.answer (s : State) (port : Bool) (code : Nat) (req : List Byte) : State :=
  s.respond port req (Config.spdmResponse code req s.mr.toList)

/-- GET_VERSION (23 R431). -/
def execGetVersion (port : Bool) (req : List (BitVec 8)) (s : State) : Host.Outcome State Fault Refusal :=
  event s.spdmReady s (s.answer port 0 req)

/-- GET_CAPABILITIES (23 R431). -/
def execGetCapabilities (port : Bool) (req : List (BitVec 8)) (s : State) : Host.Outcome State Fault Refusal :=
  event s.spdmReady s (s.answer port 1 req)

/-- NEGOTIATE_ALGORITHMS (23 R431). -/
def execNegotiateAlgorithms (port : Bool) (req : List (BitVec 8)) (s : State) : Host.Outcome State Fault Refusal :=
  event s.spdmReady s (s.answer port 2 req)

/-- GET_DIGESTS (23 R431). -/
def execGetDigests (port : Bool) (req : List (BitVec 8)) (s : State) : Host.Outcome State Fault Refusal :=
  event s.spdmReady s (s.answer port 3 req)

/-- GET_CERTIFICATE (23 R431). -/
def execGetCertificate (port : Bool) (req : List (BitVec 8)) (s : State) : Host.Outcome State Fault Refusal :=
  event s.spdmReady s (s.answer port 4 req)

/-- CHALLENGE (23 R431). -/
def execChallenge (port : Bool) (req : List (BitVec 8)) (s : State) : Host.Outcome State Fault Refusal :=
  event s.spdmReady s (s.answer port 5 req)

/-- The blocks of a measurement report: block i + 1 reports MRi. -/
def State.blocks (s : State) : List (Nat × BitVec 512) := (List.range 8).map (fun i => (i + 1, s.mr.toList.getD i 0))

/-- GET_MEASUREMENTS: a report of MR0 to MR7, signed with the device identity key (23 R431). -/
def execGetMeasurements (port : Bool) (req : List (BitVec 8)) (s : State) : Host.Outcome State Fault Refusal :=
  event s.spdmReady s
    (let r := Config.spdmReport req s.blocks
     s.respond port req (r ++ Config.signature r))

/-- PSK_EXCHANGE establishes a secured session for IDE_KM (23 R431). -/
def execPskExchange (port : Bool) (req : List (BitVec 8)) (s : State) : Host.Outcome State Fault Refusal :=
  event s.spdmReady s { s.answer port 6 req with session := s.session.set (portIx port) true }

/-- IDE_KM_KEY_PROG programs the keys of the port's IDE stream, in a secured session (23 R423, R431). -/
def execIdeKmKeyProg (port : Bool) (req : List (BitVec 8)) (s : State) : Host.Outcome State Fault Refusal :=
  event (s.spdmReady && s.session[portIx port]) s { s with ide := s.ide.set (portIx port) (Config.ideKeys req) }

/-! ## Package reset (01 R15 to R17, 16 R313, 21 R404, 23 R430, R432) -/

/-- The die in a slot passes self-test. -/
def dieUp (t : SelfTest) (slot : Nat) : Bool := slotType slot != 0 && t.dies.getLsbD slot

def unitsOf (slot : Nat) : BitVec 32 := BitVec.ofNat 32 (2 ^ slotUnits slot - 1)

/-- DIEMIX after self-test, but for LIDX (01 Table 1-3). -/
def bootMix (t : SelfTest) (slot : Nat) : BitVec 32 :=
  if slotType slot = 0 then 0x00001F30
  else
    BitVec.ofNat 32 (slotType slot + slotCluster slot * 2 ^ 4 + (if dieUp t slot then 1 else 2) * 2 ^ 6 + 0x1F00 +
      (t.fuses.getLsbD slot).toNat * 2 ^ 20)

def bootAvail (t : SelfTest) (slot : Nat) : BitVec 32 :=
  if dieUp t slot then unitsOf slot &&& ~~~(t.failedUnits.getD slot 0) else 0

/-- Every cell of the package, by unit. -/
def allCells : List Nat := (List.range 29).flatMap (fun slot => ((List.range 32).filter (fittedCell slot)).map (unitKey slot))

/-- 1.6 WU in units of 2^-32, rounded up (21 R402, R404). -/
def commitCover : Nat := 6871947674

/-- The last commit of a cell, with one commit period of wear added; its key follows from it (21 R404, R407). -/
def bootLife (committed : AMap UnitRecord) (u : Nat) : UnitLife :=
  let r := committed.getD u { wused := 0, wstate := 0, cause := 0, alarms := 0 }
  let w := satAdd64 r.wused.toNat commitCover
  { wused := w, wstate := r.wstate, cause := r.cause, alarms := r.alarms, key := BitVec.ofNat 32 (w.toNat / 2 ^ 48), nomhold := false }

/-- The die in a slot is active. -/
def State.dieActive (s : State) (slot : Nat) : Bool := mixSt (s.mix slot) == 1

/-- LIDX: the place of a die among the active dies of its type and cluster, in ascending slot order (01 R16). -/
def State.lidxOf (s : State) (slot : Nat) : Nat :=
  ((List.range slot).filter (fun k => s.dieActive k && slotType k == slotType slot && slotCluster k == slotCluster slot)).length

def State.numbered (s : State) (slot : Nat) : BitVec 32 :=
  if s.dieActive slot then (s.mix slot &&& 0xFFFFE0FF) ||| BitVec.ofNat 32 (s.lidxOf slot * 2 ^ 8) else s.mix slot

/-- The function of RDYMAP0 bit `n` sets its bit: it is usable from now on (23 R432). -/
def State.ready (s : State) (n : Nat) : State := { s with rdymap0 := s.rdymap0 ||| (1#64 <<< n) }

/-- Bit 1: the lifetime record is loaded, and states that budgets have reached are entered (21 R404, R405). -/
def State.bootLifetime (s : State) : State :=
  let s := { s with life := allCells.map (fun u => (u, bootLife s.committed u)) }
  (allCells.foldl (fun s u => s.changeCell u (budgetState (s.unitLife u).wused) 0) s).ready 1

/-- Retired cells are not available. -/
def State.hideRetired (s : State) : State :=
  allCells.foldl (fun s u => if (s.unitLife u).wstate = 3 && (s.avail (u / 32)).getLsbD (u % 32) then s.loseUnit u else s) s

/-- A buffer die that failed self-test has no slices and no stacks (01 R23). -/
def lostAtBoot (t : SelfTest) : AMap (BitVec 32) :=
  (((List.range 29).filter (fun slot => slotType slot == 4 && !dieUp t slot)).map (fun slot => (slot, 0#32)))

/-- LNKST after bring-up: ports of active dies that are fitted have trained (15 Table 15-5, log 13). -/
def State.bootLinks (s : State) : AMap Word :=
  (List.range 256).map (fun n => (n, if s.dieActive (n / 8) && Config.portTrained n then 0x80#64 else 0#64))

/-- Bit 0: the mix is written and measured, and MIXGEN is 1; the bit itself is withheld when the control die fails (01 R15,
R23; 23 R430). -/
def State.bootDies (s : State) (t : SelfTest) : State :=
  let s := { s with
    diemix := Vector.ofFn (fun (i : Fin 32) => bootMix t i.val), diecell := Vector.ofFn (fun (i : Fin 32) => bootAvail t i.val)
    lostDies := lostAtBoot t }
  let s := s.hideRetired
  let s := { s with diemix := Vector.ofFn (fun (i : Fin 32) => s.numbered i.val), mixgen := 1 }
  let s := { s with
    mr := extendMr s.mr 5 (Config.mixImage s.diemix.toList s.diecell.toList), lnkst := s.bootLinks
    rdymap1 := BitVec.ofNat 64 (((List.range 29).filter s.dieActive).map (2 ^ ·) |>.foldl (· + ·) 0) }
  if dieUp t 0 then s.ready 0 else s

/-- Bit 2: the tables are loaded; images staged before may carry other versions (12 R269, log 84). -/
def State.bootTables (s : State) (staged : List (List Byte)) : State :=
  let s := if staged.isEmpty then s else { s with tblver := Config.tableVersions staged s.tblver &&& 0x0000FFFFFFFFFFFF }
  s.ready 2

/-- Barsal brings the package up, function by function; each sets its bit when it is usable (23 R432; log 98). -/
def State.bringUp (s : State) (t : SelfTest) (staged : List (List Byte)) : State :=
  let images : List (Nat × List Byte) := t.images.filter (fun i => decide (i.1 < 5) || i.1 == 7) ++ staged.map (fun i => (6, i))
  let s := { s with mr := images.foldl (fun m (i : Nat × List Byte) => extendMr m i.1 i.2) s.mr }
  ((((((s.bootLifetime.bootDies t).bootTables staged).ready 3).ready 4).ready 5).ready 6).ready 7

/-- PACKAGE_RESET: every register at its reset value, the counter at 0; what is not the package's stays: host memory, the
lifetime record in storage, the links to hosts and neighbour, the tables of the firmware in use. Staged images are measured
into MR6. -/
def execPackageReset (test : SelfTest) (s : State) : Host.Outcome State Fault Refusal :=
  .next (({ State.reset with
    mem := s.mem.filter (fun b => decide (2 ^ 48 ≤ b.1) && decide (b.1 < 2 ^ 49))
    poison := s.poison.filter (fun b => decide (2 ^ 45 ≤ b.1) && decide (b.1 < 2 ^ 46)), tblver := s.tblver
    committed := s.committed, portUp := s.portUp, packageUp := s.packageUp, fresh := s.fresh, agenda := s.agenda } : State).bringUp test
      s.staged)

/-! ## Accesses of hosts (23 R423, R424) -/

/-- LSTAT (23 R427). -/
def State.lstat (s : State) : Word := BitVec.ofNat 64 (s.lstatCode.toNat + s.lstatBusy.toNat * 2 ^ 63)

/-- The register at an offset of BAR0 (23 Table 23-2); those of the semaphore and of layout commands read 0 before RDYMAP0
bit 6, and an unlisted offset reads 0. -/
def State.hostRegister (s : State) (off : Nat) : Word :=
  let gated (v : Word) : Word := if s.hsemReady then v else 0
  if off = 0 then gated s.hsem.read
  else if off = 0x10 then s.rdymap0
  else if off = 0x18 then s.rdymap1
  else if off = 0x20 then s.pkgstat
  else if 0x100 ≤ off && off < 0x140 && off % 8 = 0 then (s.part ((off - 0x100) / 8)).pfatal
  else if off = 0x200 then gated s.lcmd
  else if off = 0x208 then gated s.lstat
  else 0

/-- A write of LCMD: the command in bits 3:0 runs with the descriptor that bits 63:6 name (23 R427). -/
def execLcmdWrite (port : Bool) (v : BitVec 64) (s : State) : Host.Outcome State Fault Refusal :=
  match bits v.toNat 3 0 with
  | 1 => execFormPartition port v s
  | 2 => execDissolvePartition port v s
  | 3 => execWriteWpol port v s
  | 4 => execWriteCethr port v s
  | 5 => execStageFirmware port v s
  | _ => execLayoutReservedOp port (v.setWidth 4) v s

/-- HOST_MEMORY_ACCESS: a host reads or writes HBM that its port serves, or a register of BAR0; a write of a register that
takes none is ignored. -/
def execHostMemoryAccess (port : Bool) (op : HostAccess) (s : State) : Host.Outcome State Fault Refusal :=
  if !s.portUp[portIx port] then .next s
  else match op with
  | .read pa len => event (s.portServes port pa len && len != 0) s (s.hostRead port pa len)
  | .write pa data => event (s.portServes port pa data.length && !data.isEmpty) s (s.hostWrite pa data)
  | .readRegister off =>
    .next { s with hostReplies := { port, data := leBytes 8 (s.hostRegister off).toNat, poison := false } :: s.hostReplies }
  | .writeRegister off v =>
    if off = 0 then (if v.getLsbD 0 then execHsemAcquire port s else execHsemRelease port s)
    else if off = 0x200 then execLcmdWrite port v s
    else .next s

end Sys2Proof.Machine
end

