-- ==== Sys2Proof/Machine/Save.lean ====
section
/-! DEFINITION. Save areas: full context save and restore (18 R369 to R372). A block is handled as the map of its bytes
that are not 0. -/

namespace Sys2Proof.Machine

/-! ## The layout (18 R369, Table 18-11) -/

def blockSize : Nat := 6881280
def accSection : Nat := 65536
def sliceSection : Nat := 589824
def areaLen (n : Nat) : Nat := 4096 + blockSize * n

/-- TYPE of a cell. -/
def CellType.saved : CellType → Nat
  | .matrix => 1
  | .vector => 2
  | .gather => 3

/-- The bytes of a field at an offset. -/
def putField (m : AMap Byte) (f : Nat × Nat × Nat) : AMap Byte := writeLE m f.1 f.2.1 f.2.2

def areaHeader (tblver gtime : Word) (g : Gang) (types : List Nat) : AMap Byte :=
  ([(0, 4, 0x58434D4A), (4, 2, 1), (6, 2, g.ncells), (8, 8, tblver.toNat), (16, 8, gtime.toNat), (24, 4, g.seq.toNat),
    (28, 2, g.queue), (30, 2, g.handle), (32, 2, g.gnum), (34, 1, g.cl), (35, 1, g.det.toNat), (36, 4, g.live),
    (40, 4, g.plat)] ++ (((List.range types.length).zip types).map (fun (p : Nat × Nat) => (64 + p.1, 1, p.2)))).foldl putField []

/-- The accumulator section (18 Table 18-10). -/
def accImage (m : AMap Byte) (c : Cell) : AMap Byte :=
  match c.ctype with
  | .matrix => c.elems.foldl (fun m e => writeLE m (accSection + 4 * e.1) 4 e.2.toNat) m
  | .vector => (List.range 8).foldl (fun m k => writeLE m (accSection + 8192 * k) 8192 (c.mask k).bits.toNat) m
  | .gather => m

/-- The block of a cell that has exited: both EXITED bits and nothing else (log 22). -/
def exitedImage : AMap Byte := [(8 * 0x003, 8), (8 * 0x01C, 8)]

/-- The block of a cell. -/
def blockImage (p : Parked) (bs : List Binding) : AMap Byte :=
  if p.cell.gone then exitedImage
  else
    let m := (frameOf p bs).foldl (fun m w => writeLE m (8 * w.1) 8 w.2) []
    p.live.foldl (fun m b => writeByte m (sliceSection + b.1) b.2) (accImage m p.cell)

/-! ## Access to the area -/

/-- Places with the offset of each in the area. -/
def withOffsets (n : Nat) : List (Option Nat × Nat) → List (Nat × Nat × Nat)
  | [] => []
  | (l, k) :: rest => (match l with
    | some l => [(n, l, k)]
    | none => []) ++ withOffsets (n + k) rest

/-- Write an image over places: every byte, and no poison stays. -/
def State.writeImage (s : State) (ls : List (Option Nat × Nat)) (img : AMap Byte) : State :=
  (withOffsets 0 ls).foldl (fun s p =>
    { s with
      mem := (img.window p.1 (p.1 + p.2.2)).foldl (fun m b => writeByte m (p.2.1 + b.1) b.2) (s.mem.dropRange p.2.1 (p.2.1 + p.2.2))
      poison := s.poison.dropRange (p.2.1 / 8) ((p.2.1 + p.2.2) / 8) }) s

/-- A value that a save area does not hold and nothing else gives: a free value, the j-th of a restore (log 20). -/
def State.lacking (s : State) (j : Nat) : Nat := (Config.freeValue (s.fresh + j)).toNat

/-- The bytes at places that are not 0. -/
def State.readImage (s : State) (ls : List (Option Nat × Nat)) : AMap Byte :=
  (withOffsets 0 ls).flatMap (fun p => shiftMap p.1 (s.mem.window p.2.1 (p.2.1 + p.2.2)))

/-- The address of a save area is valid (18 R369). -/
def areaOk (a : Word) : Bool := bits a.toNat 63 48 == 0 && bits a.toNat 11 0 == 0

/-- The places of a part of an area, as core k reaches them; none on a fault. -/
def State.areaSpan (s : State) (k : Nat) (a : Word) (off len : Nat) (pr : Probe) : Option (List (Option Nat × Nat)) :=
  match s.span (.core k) false (a + BitVec.ofNat 64 off) len pr with
  | .ok ls => some ls
  | .error _ => none

/-! ## ctxsv (18 R370) -/

/-- The first check of ctxsv that fails; 0 for none. -/
def State.saveCode (s : State) (g : Nat) (a : Word) : Nat :=
  match s.gang? g with
  | none => 1
  | some x =>
    if !(x.state == .resident || x.state == .halting || x.state == .parked) then 3
    else if !areaOk a then 6
    else if s.inExchange g then 0x0B
    else 0

/-- ctxsv: a resident gang is asked to halt, and the core waits for the area (18 R370). -/
def execCtxsv (d a b : BitVec 5) (s : State) : Host.Outcome State Fault Refusal :=
  onSupervisor s [d, a, b] 0x1D 0x7 (fun k c =>
    let give (n : Nat) : State := s.setCore k { c with a := (c.a.setReg d (BitVec.ofNat 64 n)).retire 4 }
    let gid := (c.a.reg a).toNat
    let p := c.part.getD 0
    let g := p * 1024 + gid
    if 1024 ≤ gid then give 1
    else match s.saveCode g (c.a.reg b) with
      | 0 =>
        let parked := ((s.gang? g).map (fun x => x.state == .parked)).getD false
        let s := s.setCore k { c with wait := some (.ctxsv d) }
        let s := s.setPart p { s.part p with saves := (s.part p).saves ++ [{ core := k, gid, area := c.a.reg b, wasParked := parked }] }
        if parked then s else s.modGang g (fun x => { x with state := .halting })
      | n => give n)

/-- The save can end: the gang is parked or halted, or a cancel or kill has discarded it. -/
def State.saveReady (s : State) (p : Nat) (v : Save) : Bool :=
  match s.gang? (p * 1024 + v.gid) with
  | none => true
  | some x => x.doomed.isNone && (v.wasParked || s.gangHalted (p * 1024 + v.gid))

/-- The cell of each logical index with its context: from its buffer, or from its unit with its whole slice. -/
def State.savedContexts (s : State) (g n : Nat) : List Parked :=
  (List.range n).filterMap (fun i =>
    match s.parked.find? (cellKey g i) with
    | some p => some p
    | none => (s.cell? (cellKey g i)).map (fun c =>
        if c.gone then { cell := c, live := [], marks := [], tags := [], corrupt := false }
        else s.takeContext c c.ctype.sliceSize))

/-- The gang leaves the device; its klaunch stays incomplete, and nothing runs it (18 R370). What its commands hold of buffer
slices stays as it is: those are no part of the context. -/
def State.dropGang (s : State) (g : Nat) : State :=
  match s.gang? g with
  | none => s
  | some gg =>
    let s := (s.postCharge g).freeGang g
    match gg.launch with
    | some l => s.modLaunch l (fun x => { x with cmds := x.cmds.map (fun c =>
        if c.handle = gg.handle && !c.done then { c with gang := some 8192 } else c) })
    | none => s

/-- Units of a block that cannot be read back: its context was corrupt, and poison stands for its first word. -/
def corruptBlocks (ps : List Parked) : List Nat :=
  (((List.range ps.length).zip ps).filter (fun p => p.2.corrupt)).map (fun p => areaLen p.1)

def State.poisonAt (s : State) (ls : List (Option Nat × Nat)) (off : Nat) : State :=
  match (withOffsets 0 ls).find? (fun p => decide (p.1 ≤ off) && decide (off < p.1 + p.2.2)) with
  | some p => { s with poison := s.poison.insert ((p.2.1 + (off - p.1)) / 8) 1 }
  | none => s

/-- The whole image of an area. -/
def areaImage (hdr : AMap Byte) (ps : List Parked) (bs : List Binding) : AMap Byte :=
  hdr ++ ((List.range ps.length).zip ps).flatMap (fun p => shiftMap (areaLen p.1) (blockImage p.2 bs))

/-- A save ends: the area is written and the gang leaves the device, or a fault leaves the gang as it was. Of a gang that a
cancel or kill has discarded meanwhile there is nothing to save (log 71). -/
def State.completeSave (s : State) (p : Nat) (v : Save) : State :=
  let g := p * 1024 + v.gid
  let pt := s.part p
  let s := s.setPart p { pt with saves := pt.saves.filter (fun x => x.core != v.core) }
  match s.gang? g with
  | none => s.answerCore v.core 1
  | some gg =>
    let halt := if v.wasParked then gg.haltedAt else s.now
    let gg := { gg with haltedAt := halt }
    match s.areaSpan v.core v.area 0 (areaLen gg.ncells) .write with
    | none =>
      (if v.wasParked then s else s.goOn g).answerCore v.core 6
    | some ls =>
      if s.placesLost ls then (if v.wasParked then s else s.goOn g).answerCore v.core 6
      else
      let ps := s.savedContexts g gg.ncells
      let img := areaImage (areaHeader s.tblver (halt - gg.base) gg (ps.map (fun x => x.cell.ctype.saved))) ps gg.bindings
      let s := (corruptBlocks ps).foldl (fun s off => s.poisonAt ls off) (s.writeImage ls img)
      let ctx : SavedContext :=
        { part := p, queue := gg.queue, seq := gg.seq, handle := gg.handle, gtime := halt - gg.base, gang := gg, cells := (List.range ps.length).zip (ps.map (·.cell)),
          waggles := (List.range ps.length).zip (ps.map (·.waggles)) }
      (State.dropGang { s with contexts := ctx :: s.contexts } g).answerCore v.core 0

def State.saveDue (s : State) (p : Nat) : Option Save :=
  if (s.part p).live then (s.part p).saves.find? (s.saveReady p) else none

/-- CONTEXT_SAVE_COMPLETE (18 R370). -/
def execContextSaveComplete (part : Nat) (s : State) : Host.Outcome State Fault Refusal :=
  event (s.saveDue part).isSome s
    (match s.saveDue part with
     | some v => s.completeSave part v
     | none => s)

/-! ## Reading a block back (18 R353, R354, R371) -/

def vecOf {α : Type} (n : Nat) (f : Nat → α) : Vector α n := Vector.ofFn (fun i => f i.val)

def word64 (v : Nat) : Word := BitVec.ofNat 64 v

def readPos (old : Pos) (w : Nat → Nat) (pc loop lev : Nat) : Pos :=
  { old with
    pc := word64 (w pc), exited := bit (w loop) 3
    levels := ((List.range (w loop % 8)).map (fun k =>
      { start := word64 (w (lev + 4 * k)), stop := word64 (w (lev + 4 * k + 1)), ln := word64 (w (lev + 4 * k + 2)),
        lx := word64 (w (lev + 4 * k + 3)) })).reverse }

def readBq (v : Nat) : List BqEntry :=
  (List.range (v % 16)).map (fun k => { bit := bit v (8 + k), pushed := 0, visible := true })

/-- The parcels of a 32-bit word, or of the 16-bit word in its low half. -/
def wordToParcels (v : Nat) : List Parcel :=
  if bit v 31 then [BitVec.ofNat 16 (v / 2 ^ 16), BitVec.ofNat 16 v] else [BitVec.ofNat 16 v]

def decodeFirst (ps : List Parcel) : Option Instr :=
  match decode ps with
  | .ok (i, _) => some i
  | .error _ => none

/-- What an access does, from its instruction: the kind, the width and a post-increment still to be made. -/
def accessOfInstr (i : Instr) (slot : Nat) (d e : Word) : Option (AccessKind × Nat × Option (BitVec 5 × Word)) :=
  match i with
  | .ld r _ imm => some (.load false r, accessWidth imm, none)
  | .lds r _ imm => some (.load true r, accessWidth imm, none)
  | .st _ _ imm => some (.store d, accessWidth imm, none)
  | .qld q _ imm => some (.queueLoad (q.toNat % 4) slot, accessWidth imm, none)
  | .qldi q a imm => some (.queueLoad (q.toNat % 4) slot, accessWidth imm, some (a, accessOffset imm))
  | .qst _ _ imm => some (.store d, accessWidth imm, none)
  | .qsti _ a imm => some (.store d, accessWidth imm, some (a, accessOffset imm))
  | .amo r _ _ m => some (.atomic (.amo (m.extractLsb' 0 3)) (some r) d e, atomicWidth m, none)
  | .red _ _ m => some (.atomic (.amo (m.extractLsb' 0 3)) none d e, atomicWidth m, none)
  | .swap r _ _ m => some (.atomic .swap (some r) d e, atomicWidth m, none)
  | .cas r _ _ m => some (.atomic .cas (some r) d e, atomicWidth m, none)
  | .rel r _ _ => some (.release r, 8, none)
  | .xfer r _ _ _ => some (.xfer r (d.setWidth 16), 8, none)
  | _ => none

/-- Entry k of AREP; what the entry does not hold is as it was saved. -/
def readAccess (s : State) (key : Nat) (old : Option Access) (k : Nat) (w : Nat → Nat) : Option Access :=
  let v := w (0x0A0 + 4 * k)
  let ea := word64 (w (0x0A1 + 4 * k))
  if !bit v 63 then none
  else match (decodeFirst (wordToParcels (v % 2 ^ 32))).bind (fun i =>
      accessOfInstr i (bits v 36 32) (word64 (w (0x0A2 + 4 * k))) (word64 (w (0x0A3 + 4 * k)))) with
    | none => none
    | some (kind, width, inc) =>
      match old with
      | some o =>
        if o.first = BitVec.ofNat 32 v then some (({ o with kind, ea } : Access).setData (word64 (w (0x0A2 + 4 * k)))) else none
      | none =>
        let sync := kind.isSync
        some (({ id := k, kind, ea, width, first := BitVec.ofNat 32 v, committed := sync, loc := none,
                 bound := if sync then [ea.toNat] else if kind.isWrite then s.boundObjects (.aseq key) ea.toNat width else [],
                 inc, mirrored := false } : Access).setData (word64 (w (0x0A2 + 4 * k))))

def readMove (k : Nat) (w : Nat → Nat) : Option Move :=
  let v := w (0x0E0 + 4 * k)
  let d := bits v 59 56
  let f := BitVec.ofNat 32 v
  if !bit v 63 || bits v 62 60 ≠ 3 then none
  else match decodeFirst (wordToParcels (v % 2 ^ 32)) with
    | some (.mvShort _ dst src) => some { delay := d, dst, rm := 0, src, value := none, first := f }
    | some (.mv rm _ dst src) => some { delay := d, dst, rm, src, value := none, first := f }
    | some (.mvi _ dst _) => some { delay := d, dst, rm := 0, src := 24, value := some (word64 (w (0x0E1 + 4 * k))), first := f }
    | _ => none

def readOp (k : Nat) (w : Nat → Nat) : Option XOp :=
  let v := w (0x0E0 + 4 * k)
  let op (dst : BitVec 7) (rm : BitVec 3) : XOp :=
    { left := bits v 59 56, dst, rm, t := word64 (w (0x0E1 + 4 * k)), o := word64 (w (0x0E2 + 4 * k)),
      addend := word64 (w (0x0E3 + 4 * k)), first := BitVec.ofNat 32 v }
  if !bit v 63 || bits v 62 60 ≠ 4 then none
  else match decodeFirst (wordToParcels (v % 2 ^ 32)) with
    | some (.mvShort _ dst _) => some (op dst 0)
    | some (.mv rm _ dst _) => some (op dst rm)
    | some (.mvi _ dst _) => some (op dst 0)
    | _ => none

/-- What a form gives of itself at issue: ranges and tiles of every engine form. -/
def issueOf (i : Instr) (key : Nat) (vs : List Word) : Issue :=
  let tile (k : Nat) : Nat := shapeT (val vs k)
  let mx (rs : List Rng) (k : Nat) : Issue := { ranges := rs, tiles := [tile k], dtile := some (tile k), slotted := false }
  match i with
  | .mxmm e fmt .. => mx (mmRanges key fmt.toNat e.tag (mmVals vs)) 3
  | .mxmma e .. => { mx (mmaRanges key e.tag (mmaVals vs)) 2 with tiles := [tile 2, shapeS (val vs 2)] }
  | .mxld e .. =>
    let v := ldVals vs
    mx [mkRange key v.a (rowsLen (shapeM v.d) (strideA v.s) (4 * shapeN v.d)) false e.tag] 2
  | .mxclr .. => mx [] 0
  | .mxmv .. => { ranges := [], tiles := [tile 0, shapeS (val vs 0)], dtile := some (tile 0), slotted := false }
  | .mxepl .. => Issue.plain [mkRange key (val vs 0) 64 false false]
  | .mxshp .. => Issue.plain [mkRange key (val vs 0) 64 false false]
  | .mxdrn .. => tileIssue (val vs 3) true
  | .mxdrs .. => tileIssue (val vs 1) true
  | .mxcks .. => tileIssue (val vs 0) false
  | .mxcv .. => tileIssue (val vs 3) true
  | .mpush .. => Issue.plain [(regionOf (val vs 0) 2).range key false false]
  | .lred .. => Issue.plain (lredRanges i key vs)
  | .lopen .. => Issue.plain [(linkRegion i (val vs 0)).range key true false, (linkRegion i (val vs 1)).range key true false]
  | .lord e .. => Issue.plain [(linkRegion i (val vs 0)).range key false e.tag]
  | .lwag .. => Issue.plain [mkRange key (val vs 0) (val vs 1).toNat false false, mkRange key (val vs 2) 64 true false]
  | i => match i.engineQueue with
    | 1 => Issue.plain ((vregs i vs).ranges key i.flags.tag (toMx i))
    | 2 => Issue.plain (tblRanges key i vs)
    | 3 => if i.opcode.1 = 0x18 then Issue.plain (gthRanges key i (gthVals i vs)) else Issue.plain (srtRanges key i.flags.tag (srtRegs i vs))
    | 4 => Issue.plain ((copyJob i vs).ranges key i.flags.tag)
    | _ => Issue.plain []

def cmdStateOf (n : Nat) : CmdState :=
  match n with
  | 0 => .queued
  | 1 => .active
  | 2 => .suspended
  | _ => .withheld

/-- Units done, as the progress record of a command gives them. -/
def progressOf (i : Instr) (w : Nat) : Nat :=
  match i.engineQueue with
  | 0 => w % 1024
  | 3 => w % 2 ^ 32 + (if gthTagged i then (bit w 32).toNat else 0)
  | 4 => w % 2 ^ 33
  | _ => w % 2048

def readSlot (w : Nat → Nat) (k : Nat) : Option (BitVec 512) :=
  if bit (w 0x1C0) k then
    some (BitVec.ofNat 512 (((List.range 8).map (fun j => w (0x180 + 8 * k + j) * 2 ^ (64 * j))).foldl (· + ·) 0))
  else none

/-- Ranges of a command that has read its slot. -/
def slotRanges (i : Instr) (key : Nat) (vs : List Word) (d : Option (BitVec 512)) : List Rng :=
  match i with
  | .mxdrn e .. => drainRanges key e.tag (drnVals vs) d
  | .mxdrs e .. => drainRanges key e.tag (drsVals vs) d
  | .mxcv e .. => cvRanges key e.tag (cvVals vs) d
  | _ => []

/-- The claimed tiles of a restored command's tagged ranges: those of its own slice as CLAIMS and TAGS give them, those of
buffer slices as they stand there. A claim with V = 0 is a writer's, one with V = 1 a reader's (08 Table 8-5). -/
def State.claimsOf (s : State) (key : Nat) (rs : List Rng) (w : Nat → Nat) : List Nat :=
  (rs.filter (fun r => r.tagged && r.len != 0)).flatMap (fun r => (tilesOf r.name r.len).filter (fun t =>
    if ownTile key t then
      bit (w (0xE40 + t % 2 ^ 18 / 64)) (t % 64) && bit (w (0x1FC0 + t % 2 ^ 18 / 64)) (t % 64) != r.write
    else match s.combLoc (partOfCell key) (some (gangOfCell key)) (t * 4096) with
      | .at_ l => s.tagC l && s.tagV l != r.write
      | _ => false))

/-- OPND of a progress record. -/
def opndOf (q : Nat) (w : Nat) : Nat := if q = 0 then bits w 19 16 else if q = 3 || q = 4 then bits w 39 36 else 0

/-- What an active command that was saved elsewhere keeps of its start: a drain or mxcv its slot, a copy its CRC, a vector
command its partial row state, a link command what the spec gives no words for. `free` gives free values (log 20); the tolerance
of a check is that of CKTOL now (log 64). -/
def startedAux (s : State) (key : Nat) (i : Instr) (vals : List Word) (prog : Nat) (w : Nat → Nat) (free : Nat → Word) : List Word :=
  let slot (k : Nat) : List Word := (List.range 8).map (fun j => word64 (w (0x180 + 8 * k + j)))
  match i with
  | .mxdrn _ k .. => s.cktolWord key :: slot k.toNat
  | .mxdrs _ k .. => s.cktolWord key :: slot k.toNat
  | .mxcks .. => [s.cktolWord key]
  | .mxcv _ k .. => slot (4 + k.toNat)
  | i => match i.engineQueue with
    | 1 =>
      let n := 64 * prog % rowLen (vaux i vals) (VRegs.reg (vregs i vals).a).count
      (List.range (match i with
        | .vrsc .. => n
        | _ => 3 + 2 * (n % 32))).map free
    | 5 => [free 0]
    | _ => []

/-- Entry k of ENG; what the entry does not hold is as it was saved, or else as the entry's own words give it. -/
def readCmd (s : State) (key : Nat) (base : Word) (old : List Cmd) (bs : List Binding) (k : Nat) (w : Nat → Nat) : Option Cmd :=
  let at_ := 0x200 + 16 * k
  let v := w at_
  let ws := [w (at_ + 1) % 2 ^ 32, w (at_ + 1) / 2 ^ 32, w (at_ + 2) % 2 ^ 32]
  let ps := if bit (w (at_ + 1)) 31 then ws.flatMap (fun x => [BitVec.ofNat 16 (x / 2 ^ 16), BitVec.ofNat 16 x])
    else [BitVec.ofNat 16 (w (at_ + 1))]
  if !bit v 63 then none
  else match decodeFirst ps with
    | none => none
    | some i =>
      let q := i.engineQueue
      let vals := (List.range i.captured.length).map (fun j => word64 (((i.operands.findIdx? (· == j)).map (fun p => w (at_ + 3 + p))).getD 0))
      let st := cmdStateOf (bits v 9 8)
      let copied := if q = 4 && st != .queued then some (bits v 21 16) else none
      match old[k]? with
      | some o =>
        if o.instr = i && o.vals == vals then
          if o.progress = (w (at_ + 11), w (at_ + 12)) then some { o with state := st, slot := copied.getD o.slot }
          else some { o with state := st, slot := copied.getD o.slot, prog := progressOf i (w (at_ + 11)),
                             aux := if q = 4 then [word64 (w (at_ + 12))] else o.aux }
        else none
      | none =>
        let e := i.flags
        let f := issueOf i key vals
        let free (j : Nat) : Word := word64 (s.lacking (2 ^ 20 * (1 + indexOfCell key) + 2 ^ 11 * k + j))
        let start := base + stampValue i vals
        let missed := decide ((s.now - start).toNat ≠ 0) && reached start s.now
        -- A halt leaves lords undelivered and lwags at their lines (`Cell.linkSettled`).
        let prog := if st == .queued then 0 else match i with
          | .lopen .. => 0
          | .lord .. => 0
          | .lwag .. => if e.rel then 2 + (free 1).toNat % 2 else 2
          | .lred .. => (free 1).toNat % ((linkRegion i (val vals 1)).count + 1)
          | _ => progressOf i (w (at_ + 11))
        let ranges := match slotUse i with
          | some n => if st == .queued then f.ranges else slotRanges i key vals (readSlot w n)
          | none => f.ranges
        some
          { id := k, instr := i, vals, queue := q, state := st, prog, ranges, tiles := f.tiles, dtile := f.dtile
            slot := match i with
              | .lopen .. => lopenLane (val vals 2)
              | _ => copied.getD 0
            startAt := if i.stampMode = 0 || st != .queued then none else some start, elastic := i.stampMode = 2 || missed
            aux := if st == .queued then [] else if q = 4 then [word64 (w (at_ + 12))] else startedAux s key i vals prog w free
            acqObjs := if e.acq then s.rangeObjects key bs ranges false else []
            relObjs := if e.rel then s.rangeObjects key bs (relRanges i ranges) true else [], table := if f.slotted then bs else []
            maskLevel := 0, claims := if st == .queued then [] else s.claimsOf key ranges w
            passed := [], failedW := if st == .queued && bit (free 2).toNat 0 then ranges.map (fun r => { r with write := true }) else []
            afterAcc := 16, corr := false, failed := none
            fault := if st == .suspended then some (opndOf q (w (at_ + 11)), 0) else none }

/-- The mask level of each command at its issue follows from the commands issued after it (11 R254). -/
def Cell.fillLevels (c : Cell) : Cell :=
  let step (x : Cmd) : Int := match x.instr with
    | .mpush .. => 1
    | .mpop _ => -1
    | .mpopShort => -1
    | _ => 0
  let level (x : Cmd) : Nat :=
    (((c.cmds.filter (fun y => y.queue == 1 && decide (x.id ≤ y.id))).map step).foldl (fun acc d => acc - d) (c.mdi : Int)).toNat
  { c with cmds := c.cmds.map (fun x => { x with maskLevel := level x }) }

def readLq (w : Nat → Nat) (k : Nat) : Lq :=
  let v := w (0xE00 + k)
  { head := v % 32
    slots := (List.range (bits v 13 8)).map (fun j =>
      let slot := (v % 32 + j) % 32
      { value := if bit v (32 + slot) then some (word64 (w (0xD00 + 32 * k + slot))) else none, since := 0 }) }

def readSq (w : Nat → Nat) (k : Nat) : Sq :=
  let v := w (0xE04 + k)
  { head := v % 32, entries := (List.range (bits v 13 8)).map (fun j => (word64 (w (0xD80 + 32 * k + (v % 32 + j) % 32)), 0)) }

def readSums (w : Nat → Nat) (base : Nat) : List (BitVec 32) :=
  (List.range 64).map (fun k => BitVec.ofNat 32 (w (base + k / 2) / 2 ^ (32 * (k % 2))))

def readTile (w : Nat → Nat) (t : Nat) : Tile :=
  let v := w (0x1FE0 + t)
  let sums (base : Nat) : List (BitVec 32) := if (readSums w base).all (· == 0) then [] else readSums w base
  { sat := bit v 0, partialK := bit v 1, cv := bit v 2, nf := bit v 3, cm := bits v 13 8 + 1, cn := bits v 21 16 + 1,
    muR := sums (0x1000 + 64 * t), muC := sums (0x1020 + 64 * t) }

/-- Set bits of a value below 64, and of the words from `base` on. -/
def setOf (v : Nat) : List Nat := (List.range 64).filter (bit v)

def readBits (w : Nat → Nat) (base n : Nat) : List Nat := (List.range n).flatMap (fun i => (setOf (w (base + i))).map (64 * i + ·))

def readLane (w : Nat → Nat) (k : Nat) : Lane :=
  let b := 0x1E00 + 16 * k
  { opened := bit (w b) 0, op := w (b + 1), fmt := w (b + 2), count := w (b + 3), rows := w (b + 4), staging := word64 (w (b + 5)),
    dest := word64 (w (b + 6)), arrived := setOf (w (b + 7)), poisoned := setOf (w (b + 8)) }

/-- The binding table of a block. -/
def readBinding (w : Nat → Nat) (k : Nat) : Option Binding :=
  let l := w (0x1F02 + 3 * k)
  let base := w (0x1F01 + 3 * k)
  if l = 0 then none
  else if bits l 63 62 = 1 then
    some { object := w (0x1F00 + 3 * k), base, len := bits l 57 0, perCell := some (bits l 61 58), translated := false }
  else some { object := w (0x1F00 + 3 * k), base, len := bits l 57 0, perCell := none, translated := decide (base < 2 ^ 48) }

/-- The trap on which a restored cell is stopped (TSTAT); INFO and ADDR of one that was saved elsewhere are free (log 20). -/
def readTrap (info addr : Word) (old : Option Trap) (gid queue idx : Nat) (seq : BitVec 32) (w : Nat → Nat) : Option Trap :=
  let v := w 0
  if !bit v 0 then none
  else
    let cls : TrapClass := match bits v 7 6 with
      | 1 => .fatal
      | 2 => .event
      | _ => .replayable
    let r : TrapRecord := match old with
      | some t => { t.record with gid, queue, seq, cell := idx }
      | none =>
        { kind := bits v 15 8, code := bits v 23 16, cls, sq := bit v 5, eng := bit v 4, cc := false, cell := idx, gid, queue,
          seq, info, cyc := 0, pc := word64 (w (if bit v 5 then 2 else 1)), addr }
    some { record := r, held := bit v 24 }

/-- The elements of the accumulator section. -/
def readAccs (img : AMap Byte) : AMap (BitVec 32) :=
  (img.window accSection sliceSection).foldl (fun m b => AMap.insert m (b.1 / 4) (BitVec.ofNat 32 (readLE img (accSection + b.1 / 4 * 4) 4))) []

/-- A cell from its block, over what was saved of it, if anything was. Of an area saved elsewhere the X-seq owes no cycles of an
earlier word (`XSeq.idle`, log 20). -/
def readCell (s : State) (key : Nat) (base : Word) (t : CellType) (old : Option Cell) (fresh : Cell) (bs : List Binding)
    (g : Gang) (img : AMap Byte) : Cell :=
  let w (k : Nat) : Nat := readLE img (8 * k) 8
  let o := old.getD fresh
  let free (j : Nat) : Word := word64 (s.lacking (2 ^ 20 * (1 + indexOfCell key) + 2 ^ 19 + j))
  -- A time fault at issue is resumed as elastic (16 R320).
  let slips := bit (w 0) 0 && bits (w 0) 15 8 == 0x0F && (bits (w 0) 23 16 == 2 || bits (w 0) 23 16 == 3)
  let c :=
    { o with
      ctype := t, gone := false, halted := true, asElastic := o.asElastic || slips
      a := { o.a with
        pos := readPos o.a.pos w 0x001 0x003 0x004, regs := vecOf 32 (fun k => if k = 0 then 0 else word64 (w (0x040 + k)))
        mb := vecOf 16 (fun k => word64 (w (0x060 + k)))
        out := (List.range 16).filterMap (fun k => readAccess s key (old.bind (fun x => x.a.replay[k]?)) k w)
        nextId := max o.a.nextId 16 }
      spareData := (List.range 16).filterMap (fun k =>
        if bit (w (0x0A0 + 4 * k)) 63 || w (0x0A2 + 4 * k) = 0 then none else some (k, word64 (w (0x0A2 + 4 * k))))
      x := { o.x with
        pos := readPos o.x.pos w 0x002 0x01C 0x01D, g := vecOf 16 (fun k => word64 (w (0x070 + k)))
        iO := word64 (w 0x080), iR := word64 (w 0x081), iM := word64 (w 0x082), fO := word64 (w 0x083), fA := word64 (w 0x084)
        fR := word64 (w 0x085), cO := word64 (w 0x086), cR := word64 (w 0x087), cf := bit (w 0x036) 4
        tcol := bit (w 0x038) 0, wcol := bit (w 0x038) 1
        moves := (List.range 16).filterMap (fun k => readMove k w), ops := (List.range 16).filterMap (fun k => readOp k w) }
      bqax := readBq (w 0x035), bqxa := readBq (w 0x035 / 2 ^ 16)
      lq := vecOf 4 (readLq w), sq := vecOf 4 (readSq w)
      cc := vecOf 32 (fun k => BitVec.ofNat 32 (w (0x120 + 2 * k))), csw := vecOf 32 (fun k => word64 (w (0x121 + 2 * k)))
      cmds := (List.range 176).filterMap (fun k => readCmd s key base ((old.map Cell.entries).getD []) bs k w)
      nextCmd := max o.nextCmd 176
      banks := BitVec.ofNat 256 (((List.range 4).map (fun k => w (0x1C2 + k) * 2 ^ (64 * k))).foldl (· + ·) 0)
      elems := if t = .matrix then readAccs img else [], poisonElems := [], upsetElems := []
      tiles := (List.range 32).foldl (fun m k => if readTile w k = { Tile.clear with cm := 1, cn := 1 } then m else AMap.insert m k (readTile w k)) []
      epilogue := vecOf 4 (readSlot w), shapes := vecOf 4 (fun k => readSlot w (4 + k))
      masks := if t = .vector then (List.range 8).map (fun k =>
        { bits := BitVec.ofNat 65536 (readLE img (accSection + 8192 * k) 8192), any := bit (w 0x1C6) k, psn := bit (w 0x1C6) (8 + k) }) else []
      mdi := w 0x036 % 16, fpc := vecOf 24 (fun k => BitVec.ofNat 32 (w (0x170 + k / 2) / 2 ^ (32 * (k % 2))))
      lanes := vecOf 16 (readLane w), walk := BitVec.ofNat 32 (w 0x036 / 2 ^ 32), schmiss := word64 (w 0x037), dndf := bit (w 0x036) 5
      bars := w 0x1C1, trap := readTrap (free 8) (free 9) o.trap (gidOfGang (gangOfCell key)) g.queue (indexOfCell key) g.seq w
      emuCtl := word64 (w 0x160), emu := vecOf 4 (fun k => word64 (w (0x161 + k))) }
  if old.isSome then c else c.fillLevels

/-- The context of a block. -/
def readContext (t : CellType) (c : Cell) (waggles : AMap Nat) (img : AMap Byte) (corrupt : Bool) : Parked :=
  let w (k : Nat) : Nat := readLE img (8 * k) 8
  let claims := readBits w 0xE40 24
  { cell := c, live := img.window sliceSection (sliceSection + t.sliceSize)
    marks := (readBits w 0x1800 1536).map (fun m => (m, 1))
    tags := (readBits w 0xE40 24 |>.filter (fun k => !(readBits w 0x1FC0 24).contains k)).foldl (fun m k => AMap.insert m k 2)
      ((readBits w 0x1FC0 24).map (fun k => (k, if claims.contains k then 3 else 1)))
    waggles, corrupt }

/-! ## ctxld (18 R371) -/

/-- Types of the cells of a header; none when one is not listed. -/
def headerTypes (bs : List Byte) (n : Nat) : Option (List CellType) := (List.range n).mapM (fun c => typeOfCode (field bs (64 + c) 1))

/-- MAGIC, VERSION, NCELL, types and reserved bytes (18 Table 18-11). -/
def headerValid (bs : List Byte) : Bool :=
  let n := field bs 6 2
  field bs 0 4 == 0x58434D4A && field bs 4 2 == 1 && decide (1 ≤ n) && decide (n ≤ 448) && zeros bs 44 20 &&
    (headerTypes bs n).isSome && zeros bs (64 + n) (4032 - n)

/-- The launch that a header's link names, if it runs in this partition and its klaunch is incomplete (18 R371). -/
def State.linkedLaunch (s : State) (p queue handle : Nat) (seq : BitVec 32) : Option (Nat × Launch × StreamCmd) :=
  s.launches.findSome? (fun q =>
    if q.2.part = p && q.2.queue = queue && q.2.seq = seq then
      (q.2.cmds.find? (fun c => c.handle == handle && c.kind == .klaunch && !c.done)).map (fun c => (q.1, q.2, c))
    else none)

/-- Cells of a type that the partition's share of a cluster lacks, of those that a header lists. -/
def State.lacksUnits (s : State) (p cl : Nat) (timed derated : Bool) (ts : List CellType) : Bool :=
  [CellType.matrix, .vector, .gather].any (fun t =>
    decide ((s.admissibleUnits p cl t timed derated).length < ts.countP (· == t)))

/-- What this package holds of the context of an area with this header, if the partition has saved it (00 R11). -/
def State.savedContext (s : State) (p : Nat) (bs : List Byte) : Option SavedContext :=
  s.contexts.find? (fun x => x.part == p && x.queue == field bs 28 2 && x.seq == BitVec.ofNat 32 (field bs 24 4) &&
    x.handle == field bs 30 2 && x.gtime == word64 (field bs 16 8))

/-- A nest that nothing gives. -/
def State.lackingNest (s : State) : Nest :=
  let n := 1 + s.lacking 1 % 6
  let e := (List.range n).map (fun k => s.lacking (40 + k) % 2 ^ 16)
  { ndim := n, extents := e, perm := (List.range n).foldl (fun l k => l.insertIdx (s.lacking (46 + k) % (k + 1)) k) []
    total := e.foldl (· * ·) 1 }

/-- A gang as its header gives it, over what was saved of it or what its launch's kernel gives; what neither gives is free
(log 20). `gone` says that the area holds the block of an exited cell. -/
def restoredGang (s : State) (bs : List Byte) (area : Word) (ctx : Option SavedContext) (link : Option (Nat × Launch × StreamCmd))
    (gone : Bool) : Gang :=
  let gtime := word64 (field bs 16 8)
  let k := link.bind (fun l => l.2.2.kernel)
  let nest : Nest := match ctx with
    | some x => x.gang.nest
    | none => (k.map (·.nest)).getD s.lackingNest
  { uid := s.nextGang, launch := link.map (·.1), handle := field bs 30 2, queue := field bs 28 2, seq := BitVec.ofNat 32 (field bs 24 4)
    seed := match ctx with
      | some x => x.gang.seed
      | none => (link.map (fun l => l.2.1.seed)).getD (BitVec.ofNat 32 (s.lacking 0))
    gnum := field bs 32 2, cl := field bs 34 1, ncells := field bs 6 2, state := .restored, base := s.now - gtime
    timed := match ctx with
      | some x => x.gang.timed
      | none => (k.map (·.timed)).getD (bit (s.lacking 11) 0)
    live := field bs 36 4, plat := field bs 40 4, det := field bs 35 1 != 0, nest, bindings := [], incs := []
    fpx := (ctx.map (·.gang.fpx)).getD (if gone then vecOf 24 (fun j => BitVec.ofNat 32 (s.lacking (12 + j))) else Vector.replicate 24 0)
    dndf := (ctx.map (·.gang.dndf)).getD (gone && bit (s.lacking 36) 0), wear := 0
    fpSent := (ctx.map (·.gang.fpSent)).getD ((List.range 24).filter (bit (s.lacking 37))), haltedAt := s.now, startsAt := 0, saveArea := area, doomed := none }

/-- The c-th cell, of which an area does not hold role, role-relative index, cell count of the role, banks declared and tile
share: free values (log 20). -/
def State.lackingCell (s : State) (c : Nat) (t : CellType) : Cell :=
  let free (j : Nat) : Nat := s.lacking (2 ^ 20 * (1 + c) + 2 ^ 19 + j)
  { Cell.fresh t 0 0 0 0 (Vector.replicate 16 0) with
    role := free 0 % 16, r := free 1 % 448, nR := free 2 % 449, declared := free 3 % 257, first := free 4, count := free 5 }

/-- The cells that restored ones are laid over when nothing was saved of them: those of the launch's kernel, if they match. -/
def State.freshCells (s : State) (n : Nat) (ts : List CellType) (k : Option Kernel) : List Cell :=
  let own := ((k.map (fun k => kernelCells k [] 0 0 k.roles)).getD []).map (·.2)
  if own.length = n then own else ((List.range n).zip ts).map (fun p => s.lackingCell p.1 p.2)

/-- NEXP of the lines of a slice whose step is not complete, from the lwags of the gang that wait on them: every arrival of a
step names the same NEXP (15 R309). -/
def wagglesOf (cells : List (Nat × Cell)) (key : Nat) (live : AMap Byte) : AMap Nat :=
  (cells.flatMap (fun c => c.2.cmds.filterMap (fun x => match x.instr with
    | .lwag .. =>
      let n := combName c.1 (val x.vals 2).toNat
      if bits n 39 30 == bits (combName key (ownAddr 0)) 39 30 && bits (readLE live (bits n 29 0) 64) 104 96 != 0 then
        some (bits n 29 0, wagNexp (val x.vals 3)) else none
    | _ => none))).foldl (fun m p => AMap.insert m p.1 p.2) []

/-- Free values that a restore may use. -/
def State.pastLacking (s : State) : State := { s with fresh := s.fresh + 2 ^ 30 }

/-- Read every block into the store of contexts. -/
def State.loadGang (s : State) (k : Nat) (area : Word) (bs : List Byte) (ts : List CellType) (g : Nat)
    (link : Option (Nat × Launch × StreamCmd)) : State :=
  let ctx := s.savedContext (partOfGang g) bs
  let blocks := (List.range ts.length).map (fun c =>
    let ls := (s.areaSpan k area (areaLen c) blockSize .read).getD []
    (s.readImage ls, s.placesPoisoned ls))
  let gg := restoredGang s bs area ctx link (blocks.any (fun b => b.1 == exitedImage))
  let word (b : AMap Byte × Bool) (w : Nat) : Nat := readLE b.1 (8 * w) 8
  let table := ((blocks.find? (fun b => b.1 != exitedImage)).map (fun b => (List.range 64).filterMap (readBinding (word b)))).getD []
  let gg := { gg with bindings := table }
  let fresh := s.freshCells ts.length ts (link.bind (fun l => l.2.2.kernel))
  let shift := match ctx with
    | some x => gg.base - x.gang.base
    | none => 0
  let old (c : Nat) : Option Cell := (ctx.bind (fun x => (x.cells.find? (fun p => p.1 = c)).map (·.2))).map (fun x =>
    { x with cmds := x.cmds.map (Cmd.shift shift), until_ := x.until_.map (· + shift) })
  let f (c : Nat) : Cell := fresh.getD c (Cell.fresh .vector 0 0 0 0 (Vector.replicate 16 0))
  -- The roles of the cells are needed to tell which objects per-cell bindings give.
  let view := { s.setGang g gg with cells := (List.range ts.length).foldl (fun m c => AMap.insert m (cellKey g c) ((old c).getD (f c))) s.cells }
  let cells := (((List.range ts.length).zip ts).zip blocks).map (fun p =>
    let key := cellKey g p.1.1
    let o := old p.1.1
    (key, if p.2.1 == exitedImage then { (o.getD (f p.1.1)) with gone := true, ctype := p.1.2 }.exited
      else readCell view key gg.base p.1.2 o (f p.1.1) table gg p.2.1))
  -- A cell that has completed fewer gbars than another has passed the one that it stands at (17 R345).
  let most := cells.foldl (fun n p => if p.2.gone then n else max n p.2.bars) 0
  let cells := if ctx.isSome then cells else cells.map (fun p =>
    (p.1, if !p.2.gone && decide (p.2.bars < most) then { p.2 with waiting := some (.gbar true) } else p.2))
  let ctxs := (cells.zip blocks).map (fun p =>
    let c := p.1.2
    if c.gone then (p.1.1, ({ cell := c, live := [], marks := [], tags := [], corrupt := p.2.2 } : Parked))
    else
      let wags := match ctx with
        | some x => ((x.waggles.find? (fun q => q.1 = indexOfCell p.1.1)).map (·.2)).getD []
        | none => wagglesOf cells p.1.1 (p.2.1.window sliceSection (sliceSection + c.ctype.sliceSize))
      (p.1.1, readContext c.ctype c wags p.2.1 p.2.2))
  let s := { (s.setGang g gg).pastLacking with
    nextGang := s.nextGang + 1, parked := ctxs.foldl (fun m p => AMap.insert m p.1 p.2) s.parked }
  match link with
  | some l => s.modCmd l.1 l.2.2.handle (fun c => { c with gang := some g })
  | none => s

/-- ctxld (18 R371). -/
def execCtxld (d a : BitVec 5) (s : State) : Host.Outcome State Fault Refusal :=
  onSupervisor s [d, a] 0x1D 0x8 (fun k c =>
    let give (s : State) (v : Nat) : State :=
      s.setCore k { s.core k with a := ((s.core k).a.setReg d (BitVec.ofNat 64 v)).retire 4 }
    let area := c.a.reg a
    let p := c.part.getD 0
    if !areaOk area then give s 6
    else match s.areaSpan k area 0 4096 .read with
      | none => give s 6
      | some ls =>
        let bs := s.readPlaces ls
        let n := min (field bs 6 2) 448
        if (s.areaSpan k area 0 (areaLen n) .read).isNone then give s 6
        else
          let link := s.linkedLaunch p (field bs 28 2) (field bs 30 2) (BitVec.ofNat 32 (field bs 24 4))
          let timed := (restoredGang s bs area (s.savedContext p bs) link false).timed
          let listed := (List.range n).filterMap (fun c => typeOfCode (field bs (64 + c) 1))
          if s.lacksUnits p (field bs 34 1) timed ((link.map (fun l => l.2.1.derated)).getD false) listed || (s.freeGid p).isNone then give s 8
          else if field bs 8 8 ≠ s.tblver.toNat then give s 9
          else if s.placesPoisoned ls || !headerValid bs then give s 0x0A
          else match s.freeGid p, headerTypes bs n with
            | some gid, some ts => give (s.loadGang k area bs ts (p * 1024 + gid) link) (gid * 2 ^ 16)
            | _, _ => give s 0x0A)

/-! ## Placing a restored gang -/

/-- Units for the cells of a restored gang that have not exited, in logical order. -/
def State.unitsForRestored (s : State) (g : Nat) (gg : Gang) : Option (List (Nat × Nat)) :=
  let cs := (s.contextsOf g).filter (fun p => !p.2.cell.gone)
  let derated := ((gg.launch.bind s.launches.find?).map (·.derated)).getD false
  (takeUnits (fun t => s.freeUnits (partOfGang g) gg.cl t gg.timed derated) (cs.map (fun p => (p.2.cell.ctype, 1))) []).map
    (fun us => (cs.map (·.1)).zip us)

def State.restoreDue (s : State) (g : Nat) : Bool :=
  match s.gang? g with
  | some gg => gg.state == .restored && s.dispatching (partOfGang g) && (s.unitsForRestored g gg).isSome
  | none => false

/-- A restored cell that was stopped on a trap writes a new record. -/
def State.renewTraps (s : State) (g : Nat) : State :=
  ((s.gangCells g).filter (fun p => !p.2.gone)).foldl (fun s p =>
    match p.2.trap with
    | none => s
    | some t =>
      let r := { t.record with cyc := s.now }
      (s.modCell p.1 (fun c => { c with trap := some { record := r, held := false } })).report (partOfGang g) r) s

/-- RESTORED_GANG_DISPATCH: band 7, on any admissible cells of the cluster (18 R371). -/
def execRestoredGangDispatch (gang : Nat) (s : State) : Host.Outcome State Fault Refusal :=
  event (s.restoreDue gang) s
    (match (s.gang? gang).bind (s.unitsForRestored gang) with
     | none => s
     | some us =>
       let unit (k : Nat) : Nat := ((us.find? (fun p => p.1 = k)).map (·.2)).getD 0
       let s := s.applyIdlePends (us.map (fun p => p.2 / 32))
       let s : State := { s with parked := s.parked.map (fun (p : Nat × Parked) =>
         if gangOfCell p.1 = gang then (p.1, { p.2 with cell := { p.2.cell with slot := unit p.1 / 32, unit := unit p.1 % 32 } }) else p) }
       let s := us.foldl (fun s p => s.clearRo (p.2 / 32)) s
       let gone := (s.contextsOf gang).filter (fun p => p.2.cell.gone)
       let s : State := { s with parked := s.parked.filter (fun (p : Nat × Parked) => !(gangOfCell p.1 == gang && p.2.cell.gone)) }
       let s := gone.foldl (fun s p => s.setCell p.1 p.2.cell) s
       ((s.takeUp gang).renewTraps gang).checkTaken gang ((s.contextsOf gang).any (fun p => p.2.corrupt)))

end Sys2Proof.Machine
end

