-- ==== Sys2Proof/Machine/Work.lean ====
section
/-! DEFINITION. The WRK instructions: tile walker, barriers, launch-program commands and events (17 R335 to R345). -/

namespace Sys2Proof.Machine

/-! ## The tile walker (17 R341, R342) -/

/-- The coordinates of a linear tile by dimension: PERM's last dimension varies fastest. -/
def tileCoords (ext : List Nat) : List Nat → Nat → List Nat
  | [], _ => List.replicate 6 0
  | d :: inner, l =>
    let below := (inner.map (fun k => ext.getD k 1)).foldl (· * ·) 1
    (tileCoords ext inner (l % below)).set d (l / below)

/-- S[d + k] := v(k), all six in one update (17 R345). -/
def ASeq.setSix (a : ASeq) (d : BitVec 5) (vs : List Word) : ASeq :=
  (List.range 6).foldl (fun a k => a.setReg (d + BitVec.ofNat 5 k) (vs.getD k 0)) a

/-- tnext of `size` bytes. -/
def tileNext (size : Nat) (d : BitVec 5) (s : State) : Host.Outcome State Fault Refusal :=
  onCell s [d, d + 1, d + 2, d + 3, d + 4, d + 5] 0x1C 0x0 (size == 2) (fun key c =>
    if c.walk.toNat < c.count then
      let nest := ((s.gang? (gangOfCell key)).map (·.nest)).getD { ndim := 1, extents := [1], perm := [0], total := 1 }
      let vs := (tileCoords nest.extents nest.perm (c.first + c.walk.toNat)).map (BitVec.ofNat 64)
      s.setCell key { c with walk := c.walk + 1, a := (c.a.setSix d vs).retire size }
    else s.setCell key { c with a := (c.a.setSix d [BitVec.allOnes 64]).retire size })

/-- tnext (17 R345). -/
def execTnext (d : BitVec 5) (s : State) : Host.Outcome State Fault Refusal := tileNext 4 d s

/-- The short tnext (03 Table 3-4). -/
def execTnextShort (d : BitVec 5) (s : State) : Host.Outcome State Fault Refusal := tileNext 2 d s

/-- tinfo (17 R345). -/
def execTinfo (d sel : BitVec 5) (s : State) : Host.Outcome State Fault Refusal :=
  onCell s [d] 0x1C 0x1 false (fun key c =>
    let g := s.gang? (gangOfCell key)
    let v := match sel.toNat with
      | 0 => c.count
      | 1 => c.first
      | 2 => (g.map (·.nest.total)).getD 0
      | 3 => c.r
      | 4 => c.nR
      | 5 => c.walk.toNat
      | 6 => indexOfCell key
      | _ => (g.map (·.ncells)).getD 0
    s.setCell key { c with a := (c.a.setReg d (BitVec.ofNat 64 v)).retire 4 })

/-! ## gbar (17 R345) -/

/-- gbar: the fence, then the cell arrives and stalls. -/
def execGbar (s : State) : Host.Outcome State Fault Refusal :=
  onCell s [] 0x1C 0x2 false (fun key c =>
    if !c.a.out.isEmpty || !c.cmds.isEmpty then s else s.setCell key { c with waiting := some (.gbar false) })

/-- Every cell of the gang that has not exited stands at the gbar of one ordinal. -/
def State.gbarMet (s : State) (g : Nat) : Bool :=
  let cells := (s.gangCells g).filter (fun p => !p.2.gone)
  !cells.isEmpty && cells.all (fun p => p.2.waiting == some (.gbar false))

/-- A cell of the gang that has been stopped behind a gbar that every cell has reached runs again. -/
def State.gbarPassing (s : State) (g : Nat) : Bool :=
  (s.gangCells g).any (fun p => p.2.waiting == some (.gbar true) && s.cellRuns p.1 p.2)

def State.gbarDue (s : State) (g : Nat) : Bool := s.gbarMet g || s.gbarPassing g

/-- The gbar of a cell issues. -/
def Cell.passGbar (c : Cell) : Cell := { c with waiting := none, bars := c.bars + 1, a := c.a.retire 4 }

/-- Every cell that has not exited has arrived: the gbars issue. That of a cell which is stopped issues when it runs again:
the others do not wait for it (18 R347). -/
def execGbarRelease (gang : Nat) (s : State) : Host.Outcome State Fault Refusal :=
  event (s.gbarDue gang) s
    { s with cells := s.cells.map (fun p =>
        if gangOfCell p.1 = gang && !p.2.gone && (s.gbarMet gang || p.2.waiting == some (.gbar true)) then
          (p.1, if s.cellRuns p.1 p.2 then p.2.passGbar else { p.2 with waiting := some (.gbar true) })
        else p) }

/-! ## Commands of launch programs (17 R335, R336, R340) -/

/-- A stream trap (17 R345). -/
def State.streamTrap (s : State) (k code : Nat) (addr : Word) : State := s.raiseTrap (.core k) 0x10 code .fatal 0 addr

/-- The handle of the k-th command, counting from 1. -/
def handleAt (k : Nat) : Nat := (k - 1) % 65535 + 1

/-- One of the last 32,767 handles issued (17 R335). -/
def Launch.handleOk (x : Launch) (h : Nat) : Bool :=
  decide (0 < h) && decide (h ≤ 65535) && decide (0 < x.issued) &&
    decide ((handleAt x.issued + 65535 - h) % 65535 < min 32767 x.issued)

/-- The handles of a wait list, bits 63:48 first; 0 names nothing. -/
def waitList (w : Word) : List Nat :=
  [bits w.toNat 63 48, bits w.toNat 47 32, bits w.toNat 31 16, bits w.toNat 15 0].filter (· != 0)

def Launch.entries (x : Launch) : Nat := x.cmds.countP (fun c => !c.consumed)

/-- Scoreboard entries of a partition in use. -/
def State.entriesUsed (s : State) (p : Nat) : Nat :=
  ((s.launches.filter (fun q => q.2.part == p)).map (fun q => q.2.entries)).foldl (· + ·) 0

/-- The launch whose program runs on a core; firmware has none. -/
def State.coreLaunch (s : State) (k : Nat) : Option (Nat × Launch) :=
  (s.core k).launch.bind (fun l => (s.launches.find? l).map (fun x => (l, x)))

/-- The number of the command that a valid handle names: the latest that has had it (17 R335). -/
def Launch.numberOf (x : Launch) (h : Nat) : Nat := x.issued - (handleAt x.issued + 65535 - h) % 65535

/-- A command that a program or a command that has not completed can still name. -/
def Launch.nameable (x : Launch) (c : StreamCmd) : Bool :=
  !c.consumed || decide (x.issued < c.number + 32767) || x.cmds.any (fun d => !d.done && d.waits.contains c.number)

/-- A command entered on the scoreboard; commands that nothing can name any more are forgotten. -/
def Launch.enter (x : Launch) (kind : StreamKind) (desc : Word) (waits : List Nat) : Launch :=
  let c : StreamCmd :=
    { handle := handleAt (x.issued + 1), number := x.issued + 1, kind, desc, waits := waits.map x.numberOf, eligibleAt := none,
      status := none, consumed := false, kernel := none, gang := none, moved := 0, xfer := none, blocked := none }
  { x with issued := x.issued + 1, cmds := x.cmds.filter x.nameable ++ [c] }

/-- klaunch, sxin and sxout: the descriptor and wait list are checked, and an entry is taken (17 R335, R336, R345). A program
that is no launch's has no share (log 16). -/
def streamIssue (kind : StreamKind) (minor : Nat) (d a b : BitVec 5) (s : State) : Host.Outcome State Fault Refusal :=
  onCore s [d, a, b] 0x1C minor (fun k c =>
    let desc := c.a.reg a
    let waits := waitList (c.a.reg b)
    if desc.toNat % 64 ≠ 0 || bits desc.toNat 63 60 ≠ 0 then s.streamTrap k 0x03 desc
    else match s.coreLaunch k with
      | none => match waits with
        | h :: _ => s.streamTrap k 0x01 (BitVec.ofNat 64 h)
        | [] => s.streamTrap k 0x02 desc
      | some (l, x) =>
        match waits.find? (fun h => !x.handleOk h) with
        | some h => s.streamTrap k 0x01 (BitVec.ofNat 64 h)
        | none =>
          let share := (s.part x.part).layout.scoreboard
          if share ≤ x.entries then s.streamTrap k 0x02 desc
          else if share ≤ s.entriesUsed x.part then s
          else
            (s.modLaunch l (fun x => x.enter kind desc waits)).setCore k
              { c with a := (c.a.setReg d (BitVec.ofNat 64 (handleAt (x.issued + 1)))).retire 4 })

/-- klaunch (17 R345). -/
def execKlaunch (d a b : BitVec 5) (s : State) : Host.Outcome State Fault Refusal := streamIssue .klaunch 0x3 d a b s

/-- sxin (17 R345). -/
def execSxin (d a b : BitVec 5) (s : State) : Host.Outcome State Fault Refusal := streamIssue .sxin 0x4 d a b s

/-- sxout (17 R345). -/
def execSxout (d a b : BitVec 5) (s : State) : Host.Outcome State Fault Refusal := streamIssue .sxout 0x5 d a b s

/-- A form that names a handle. -/
def onHandle (use : List (BitVec 5)) (minor : Nat) (a : BitVec 5) (s : State) (f : Nat → Core → Nat → Launch → Nat → State) :
    Host.Outcome State Fault Refusal :=
  onCore s use 0x1C minor (fun k c =>
    let h := (c.a.reg a).toNat
    match s.coreLaunch k with
    | some (l, x) => if x.handleOk h then f k c l x h else s.streamTrap k 0x01 (c.a.reg a)
    | none => s.streamTrap k 0x01 (c.a.reg a))

/-- swait stalls until the command completes, an acquire of what it wrote (07 R167); it does not consume (17 R345). -/
def execSwait (d a : BitVec 5) (s : State) : Host.Outcome State Fault Refusal :=
  onHandle [d, a] 0x6 a s (fun k c _ x h =>
    match x.statusOf (x.numberOf h) with
    | some st => (s.acquireScope (.core k) 4).setCore k { c with a := (c.a.setReg d (BitVec.ofNat 64 st)).retire 4 }
    | none => s)

def StreamKind.code : StreamKind → Nat
  | .klaunch => 0
  | .sxin => 1
  | .sxout => 2

/-- The event of a completed command (17 R340). -/
def StreamCmd.event (c : StreamCmd) : Word :=
  BitVec.ofNat 64 (2 ^ 63 + c.kind.code * 2 ^ 24 + (c.status.getD 0) * 2 ^ 16 + c.handle)

/-- Consume the oldest unconsumed command. -/
def consumeFirst : List StreamCmd → List StreamCmd
  | [] => []
  | c :: rest => if c.consumed then c :: consumeFirst rest else { c with consumed := true } :: rest

/-- evget and evget.nb (17 R340): the event is an acquire of what its command wrote (07 R167). -/
def eventGet (nb : Bool) (d : BitVec 5) (s : State) : Host.Outcome State Fault Refusal :=
  onCore s [d] 0x1C 0x7 (fun k c =>
    let give (s : State) (v : Word) : State := s.setCore k { c with a := (c.a.setReg d v).retire 4 }
    match s.coreLaunch k with
    | none => give s 0
    | some (l, x) =>
      match x.cmds.find? (fun y => !y.consumed) with
      | none => give s 0
      | some y =>
        if y.done then give ((s.modLaunch l (fun x => { x with cmds := consumeFirst x.cmds })).acquireScope (.core k) 4) y.event
        else if nb then give s 0 else s)

/-- evget (17 R340). -/
def execEvget (d : BitVec 5) (s : State) : Host.Outcome State Fault Refusal := eventGet false d s

/-- evget.nb (17 R340). -/
def execEvgetNb (d : BitVec 5) (s : State) : Host.Outcome State Fault Refusal := eventGet true d s

/-- lcancel: a command not yet completed completes with status 0x01 (17 R345). -/
def execLcancel (a : BitVec 5) (s : State) : Host.Outcome State Fault Refusal :=
  onHandle [a] 0x8 a s (fun k c l x h =>
    let s := s.setCore k { c with a := c.a.retire 4 }
    match x.cmds.find? (fun y => y.handle == h && !y.done) with
    | some y => s.cancelCmd l y
    | none => s)

end Sys2Proof.Machine
end

