-- ==== Sys2Proof/Machine/Sysreg.lean ====
section
/-! DEFINITION. System registers, frame words and the return from traps (18 R355 to R361). -/

namespace Sys2Proof.Machine

/-! ## Reads (18 R357, Table 18-8) -/

def ofNat64 (n : Nat) : Word := BitVec.ofNat 64 n

/-- PTCAP (19 Table 19-2). -/
def Partition.ptcap (p : Partition) : Word := ofNat64 (p.layout.cap + p.entries.length % 2 ^ 32 * 2 ^ 32)

/-- MIRST (22 Table 22-3). -/
def State.mirst (s : State) (p : Nat) : Word :=
  let pt := s.part p
  (pt.mirst &&& 0xFFFFFF01#64) ||| ofNat64 (pt.mirrorOut.length % 2 ^ 32 * 2 ^ 32 + (if s.packageUp then 0 else 2))

/-- The registers of indices 0x0040 to 0x004B. -/
def State.readLow (s : State) (p k : Nat) : Word :=
  let pt := s.part p
  match k with
  | 0 => s.mixgen.setWidth 64
  | 1 => pt.cpscan
  | 2 => pt.dremap
  | 3 => pt.cktol
  | 4 => if pt.layout.test then pt.errinj.setWidth 64 else 0
  | 5 => pt.fpxthr
  | 6 => s.tblver
  | 7 => pt.pfatal
  | 8 => pt.tqcfg
  | 9 => pt.tqhead.setWidth 64
  | 10 => pt.tqtail.setWidth 64
  | _ => pt.plimit

/-- LNKST: MARGIN is what the monitor of a trained port shows (15 Table 15-5, log 13). -/
def State.readLink (s : State) (n : Nat) : Word :=
  let w := s.lnkst.getD n 0
  if w.getLsbD 7 then w ||| ((Config.eyeMargin s.now.toNat n).setWidth 64 <<< 24) else w

/-- The register of an index in a partition; unassigned indices read 0. -/
def State.readSysreg (s : State) (p k : Nat) : Word :=
  let pt := s.part p
  if k < 0x20 then (s.mix k).setWidth 64
  else if k < 0x40 then (s.avail (k - 0x20)).setWidth 64
  else if k < 0x4C then s.readLow p (k - 0x40)
  else if 0x100 ≤ k ∧ k < 0x200 then s.readLink (k - 0x100)
  else if 0x1000 ≤ k ∧ k < 0x2000 then s.wq (k - 0x1000)
  else match k with
    | 0x2000 => pt.tgen
    | 0x2001 => pt.ptcap
    | 0x2100 => pt.wpol.setWidth 64
    | 0x2101 => pt.wqtab
    | 0x2200 => s.cethr
    | 0x2201 => s.mirst p
    | _ => 0

/-- What a number names (18 R357). -/
inductive SysName where
  | register (part index : Nat)
  | frame (gid cell word : Nat)
  | nothing
  deriving DecidableEq, Repr

def sysName (v : Word) : SysName :=
  let n := v.toNat
  match bits n 63 60 with
  | 0 => if bits n 59 59 = 0 ∧ bits n 55 16 = 0 then .register (bits n 58 56) (bits n 15 0) else .nothing
  | 1 => if bits n 59 50 = 0 ∧ bits n 29 13 = 0 then .frame (bits n 49 40) (bits n 38 30) (bits n 12 0) else .nothing
  | _ => .nothing

/-- Bit 39 of a frame number lies outside its fields. -/
def sysNameOk (v : Word) : Bool := bits v.toNat 63 60 != 1 || !v.getLsbD 39

/-- The partition in which a core acts. -/
def Core.home (c : Core) : Nat := c.part.getD 0

/-- The register access that a core makes is denied: another partition's, or a queue of another partition (18 R357,
17 R327). -/
def State.denied (s : State) (c : Core) (p k : Nat) : Bool :=
  c.priv ≠ .root && (decide (p ≠ c.home) || (decide (0x1000 ≤ k) && decide (k < 0x2000) && wqPart (s.wq (k - 0x1000)) != c.home))

/-- rdsr (18 R357); a read of TQTAIL is an acquire of the records below it (18 R350). -/
def execRdsr (d a : BitVec 5) (s : State) : Host.Outcome State Fault Refusal :=
  onSupervisor s [d, a] 0x1D 0x2 (fun k c =>
    let give (s : State) (v : Word) : State := s.setCore k { c with a := (c.a.setReg d v).retire 4 }
    match sysName (c.a.reg a) with
    | .register p i =>
      if s.denied c p i then s.privilegeTrap (.core k) 0x1D 0x2
      else give (if i = 0x4A then s.acquireScope (.core k) 4 else s) (s.readSysreg p i)
    | .frame gid cell w =>
      if sysNameOk (c.a.reg a) then
        let r := s.readFrame (cellKey (c.home * 1024 + gid) cell) w
        give r.2 r.1
      else give s 0
    | .nothing => give s 0)

/-! ## Writes -/

/-- Held records are written as space frees (18 R351). -/
def State.freeRecords (s : State) (p : Nat) : State := s.drainHeld p (s.part p).heldRecords.length

/-- A write of TQHEAD takes effect within the occupancy (18 R349). -/
def State.writeTqhead (s : State) (p : Nat) (v : Word) : State :=
  let pt := s.part p
  let new := v.setWidth 32
  if (new - pt.tqhead).toNat ≤ (pt.tqtail - pt.tqhead).toNat then (s.setPart p { pt with tqhead := new }).freeRecords p else s

/-- A write of TQCFG: BASE is held while EN = 1 (18 R349). -/
def State.writeTqcfg (s : State) (p : Nat) (v : Word) : State :=
  let pt := s.part p
  let base := 0x0000FFFFFFFFC000#64
  let new := (v &&& 0x8000000000000000) ||| (if pt.trapEnabled then pt.tqcfg &&& base else v &&& base)
  (s.setPart p { pt with tqcfg := new }).freeRecords p

/-- The owner that a value for WQCFGn names is the one that the layout in force gives queue n (17 R327; 23 R427, R428). -/
def State.laidOut (s : State) (n : Nat) (v : Word) : Bool :=
  let pt := s.part (wqPart v)
  pt.formed && decide (pt.layout.firstQueue ≤ n) && decide (n < pt.layout.firstQueue + pt.layout.queueCount) && pt.layout.port == wqPort v

/-- A write of a queue's configuration: root gives PART and PORT, but only as the layout in force has them, the supervisor
the other fields, of which LOC, LSZ and QBASE are held while EN = 1 (17 R327, 23 R427). -/
def State.writeWqcfg (s : State) (root : Bool) (n : Nat) (v : Word) : State :=
  let w := s.wq n
  let owner := 0x0F00000000000000#64
  let place := 0x00F8FFFFFFFFFFC0#64
  let new := if root then (if s.laidOut n v then (w &&& ~~~owner) ||| (v &&& owner) else w)
    else (w &&& owner) ||| (v &&& 0xF000000000000000) ||| (if wqEn w then w &&& place else v &&& place)
  { s with wqcfg := if new = 0 then s.wqcfg.remove n else s.wqcfg.insert n new }

/-- A write of a register under its access codes (00 R6; 18 Table 18-8). WPOL and CETHR change only through layout commands
(21 R409, 22 R421, 23 R427; log 96). -/
def State.writeSysreg (s : State) (root : Bool) (p k : Nat) (v : Word) : State :=
  let pt := s.part p
  if 0x1000 ≤ k ∧ k < 0x2000 then s.writeWqcfg root (k - 0x1000) v
  else match k with
    | 0x43 => s.setPart p { pt with cktol := v &&& 0xFFFFFFFF0001FFFF }
    | 0x44 => if pt.layout.test then s.setPart p { pt with errinj := v.setWidth 32 } else s
    | 0x45 => s.setPart p { pt with fpxthr := v }
    | 0x48 => s.writeTqcfg p v
    | 0x49 => s.writeTqhead p v
    | 0x4B => s.setPart p { pt with plimit := v &&& 0xFFFFFFFF000FFFFF }
    | 0x2101 => s.setPart p { pt with wqtab := (v &&& 0x0000FFFFFFF00001) ||| (pt.wqtab &&& 2#64 &&& ~~~v) }
    | 0x2201 => s.setPart p { pt with mirst := (v &&& 0xFFFFFF00) ||| (pt.mirst &&& 1#64 &&& ~~~v) }
    | _ => s

/-- The write of a register that a core makes is denied: WQCFG is its supervisor's to write (17 R327), CETHR is root's
(22 R421; 00 R10). -/
def State.deniedWrite (s : State) (c : Core) (p i : Nat) : Bool :=
  s.denied c p i || (c.priv == .root && decide (0x1000 ≤ i) && decide (i < 0x2000)) || (c.priv == .supervisor && i == 0x2200)

/-- wrsr (18 R357). -/
def execWrsr (a b : BitVec 5) (s : State) : Host.Outcome State Fault Refusal :=
  onSupervisor s [a, b] 0x1D 0x3 (fun k c =>
    let v := c.a.reg b
    let done := s.setCore k { c with a := c.a.retire 4 }
    match sysName (c.a.reg a) with
    | .register p i =>
      if s.deniedWrite c p i then s.privilegeTrap (.core k) 0x1D 0x3
      else done.writeSysreg (c.priv == .root) p i v
    | .frame gid cell w => if sysNameOk (c.a.reg a) then done.writeFrame (cellKey (c.home * 1024 + gid) cell) w v else done
    | .nothing => done)

/-- A write of TQHEAD takes effect (18 R349). -/
def execTqheadWrite (part : Nat) (v : BitVec 64) (s : State) : Host.Outcome State Fault Refusal := .next (s.writeTqhead part v)

/-- A write of WQCFGn takes effect (17 R327). -/
def execWqcfgWrite (root : Bool) (n : Nat) (v : BitVec 64) (s : State) : Host.Outcome State Fault Refusal :=
  event (decide (n < 4096)) s (s.writeWqcfg root n v)

/-- A write of another register takes effect (00 R6). -/
def execSysregWrite (root : Bool) (num v : BitVec 64) (s : State) : Host.Outcome State Fault Refusal :=
  .next (match sysName num with
    | .register p i => s.writeSysreg root p i v
    | _ => s)

/-! ## tqwait (18 R358) -/

/-- tqwait stalls until TAIL differs from HEAD; its read of TAIL is an acquire of the records below it (18 R350). -/
def execTqwait (d : BitVec 5) (s : State) : Host.Outcome State Fault Refusal :=
  onSupervisor s [d] 0x1D 0x1 (fun k c =>
    let pt := s.part c.home
    if pt.tqtail = pt.tqhead then s
    else (s.acquireScope (.core k) 4).setCore k { c with a := (c.a.setReg d (pt.tqtail.setWidth 64)).retire 4 })

/-! ## tret (18 R359, R361) -/

/-- The target of tret. -/
inductive Target where
  | cell (gid cell : Nat)
  | core (k : Nat)
  | none
  deriving DecidableEq, Repr

def targetOf (v : Word) : Target :=
  let n := v.toNat
  if bit n 31 then (if bits n 63 32 = 0 ∧ bits n 30 4 = 0 then .core (bits n 3 0) else .none)
  else if bits n 63 26 = 0 ∧ bits n 15 9 = 0 then .cell (bits n 25 16) (bits n 8 0) else .none

/-- Where a context stands: in its unit, or in the store of parked and restored ones. -/
def State.context? (s : State) (key : Nat) : Option Cell :=
  match s.cell? key with
  | some c => some c
  | none => (s.parked.find? key).map (·.cell)

/-- The instruction that the EMU words give, if they are valid (18 R361). -/
def emulatedInstr (ctl : Word) (emu : Vector Word 4) : Option Instr :=
  let n := bits ctl.toNat 2 0
  let ws := (emu.toList.take n).map (·.toNat)
  let ps := ws.flatMap (fun w => [BitVec.ofNat 16 (w / 2 ^ 16), BitVec.ofNat 16 w])
  let r := match ws with
    | [] => none
    | w :: _ =>
      if bit w 31 then some (decode ps)
      else if w < 2 ^ 16 && n = 1 then some (decode [BitVec.ofNat 16 w]) else none
  match r with
  | some (.ok (i, [])) =>
    (match i with
     | .brk _ => none
     | i => if acceptedOn (ctl.getLsbD 8) i && decide (n = 1 + i.nargs) then some i else none)
  | _ => none

/-- Q and N of the instruction stored at a position (18 R361). -/
def State.storedEnds (s : State) (ag : Agent) (p : Pos) (x : Bool) : Word × Word :=
  match s.fetch ag { p with emu := none } x with
  | .word (.brk _) => (p.pc, p.pc + 2)
  | .word i => (p.pc + ofNat64 i.lastWord, p.pc + ofNat64 i.size)
  | _ => (p.pc, p.pc + 2)

/-- Suspended commands go on from their progress records. -/
def Cmd.resume (x : Cmd) : Cmd := if x.state == .suspended then { x with state := .active, fault := none } else x

/-- What the A-seq waits for when it fetches again: a gbar at which it has arrived. A realign or twait issues anew. -/
def Cell.keepsWaiting (c : Cell) : Option GangWait :=
  match c.waiting with
  | some (.gbar p) => some (.gbar p)
  | _ => none

/-- The cell goes on from its trap: `emu` is issued in place of the word at PC of sequencer `x`. Both sequencers fetch again;
a word that an emulated one replaces is not issued as elastic (16 R320). -/
def State.resumeCell (s : State) (key : Nat) (c : Cell) (emu : Option Instr) (x : Bool) : State :=
  let c := { c.unbuffered with
    trap := none, spareData := [], cmds := c.cmds.map Cmd.resume, waiting := c.keepsWaiting, until_ := none, asElastic := c.asElastic && (emu.isNone || x) }
  match emu with
  | none =>
    s.setCell key { c with a := { c.a with pos := { c.a.pos with emu := none } }, x := { c.x with pos := { c.x.pos with emu := none } } }
  | some i =>
    if x then
      let e := s.storedEnds (.xseq key) c.x.pos true
      s.setCell key { c with x := { c.x with pos := { c.x.pos with emu := some { instr := i, last := e.1, next := e.2 } } } }
    else
      let e := s.storedEnds (.aseq key) c.a.pos false
      s.setCell key { c with a := { c.a with pos := { c.a.pos with emu := some { instr := i, last := e.1, next := e.2 } } } }

/-- Codes 0x02 and 0x04 of a trap. -/
def trapCode (t : Option Trap) (kill : Bool) (resident : Bool) : Nat :=
  match t with
  | none => 2
  | some t => if t.held then 2 else if !resident then 3 else if !kill && t.record.cls == .fatal then 4 else 0

/-- The gang stands in its cells. -/
def GangState.stands : GangState → Bool
  | .resident => true
  | .halting => true
  | .stopped => true
  | _ => false

/-- tret in mode m: 0 plain, 1 emu, 2 kill (18 R361). -/
def trapReturn (m : Nat) (d a : BitVec 5) (s : State) : Host.Outcome State Fault Refusal :=
  onSupervisor s [d, a] 0x1D 0x0 (fun k c =>
    let give (s : State) (v : Nat) : State :=
      s.setCore k { s.core k with a := ((s.core k).a.setReg d (ofNat64 v)).retire 4 }
    match targetOf (c.a.reg a) with
    | .none => give s 1
    | .core j =>
      let t := s.core j
      if t.part ≠ some c.home || t.trap.isNone then give s 1
      else match trapCode t.trap (m == 2) true with
        | 0 =>
          if m = 2 then give (s.endProgram j 2 0) 0
          else if m = 1 then give s 5
          else give (s.setCore j { t with trap := none, a := { t.a with pos := { t.a.pos with emu := none, buf := [] } } }) 0
        | n => give s n
    | .cell gid ci =>
      let g := c.home * 1024 + gid
      let key := cellKey g ci
      match s.gang? g, s.context? key with
      | some gg, some x =>
        if x.gone then give s 1
        else match trapCode x.trap (m == 2) gg.state.stands with
          | 0 =>
            if m = 2 then give (s.discardGang g 5) 0
            else if m = 1 then (match emulatedInstr x.emuCtl x.emu with
              | some i => give (s.resumeCell key x (some i) (x.emuCtl.getLsbD 8)) 0
              | none => give s 5)
            else give (s.resumeCell key x none false) 0
          | n => give s n
      | _, _ => give s 1)

/-- tret (18 R361). -/
def execTret (d a : BitVec 5) (s : State) : Host.Outcome State Fault Refusal := trapReturn 0 d a s

/-- tret.emu (18 R361). -/
def execTretEmu (d a : BitVec 5) (s : State) : Host.Outcome State Fault Refusal := trapReturn 1 d a s

/-- tret.kill (18 R361). -/
def execTretKill (d a : BitVec 5) (s : State) : Host.Outcome State Fault Refusal := trapReturn 2 d a s

end Sys2Proof.Machine
end

