-- ==== Sys2Proof/Machine/Xseq.lean ====
section
/-! DEFINITION. The moves, columns and cycles of the X-seq (05 R106 to R119). One X-seq cycle is: the operations that end
with it complete, a word issues, the moves transport. -/

namespace Sys2Proof.Machine

/-! ## Column semantics (05 Table 5-12, R113 to R115) -/

/-- The integer result of a trigger of the I column. -/
def iResult (d : Nat) (o t : Word) : Word :=
  match d with
  | 0x11 => intAdd o t
  | 0x12 => intSub o t
  | 0x13 => intAnd o t
  | 0x14 => intOr o t
  | 0x15 => intXor o t
  | 0x16 => intShl o t
  | 0x17 => intShr o t
  | 0x18 => intSra o t
  | 0x19 => intSlt o t
  | 0x1A => intSltu o t
  | 0x1B => intMin o t
  | 0x1C => intMax o t
  | 0x1D => intMul o t
  | 0x1E => intMulhu o t
  | _ => intMulh o t

/-- An F arithmetic trigger in format f: 0 add, 1 sub, 2 mul, 3 fma, 4 min, 5 max (05 R113). -/
def fArith (f : Fmt) (op : Nat) (mode : Mode) (o t a : Word) : Word :=
  let rd (x : Word) := FV.ofBits f (x.toNat % 2 ^ f.width)
  let v := match op with
    | 0 => (rd o).add mode (rd t)
    | 1 => (rd o).sub mode (rd t)
    | 2 => (rd o).mul (rd t)
    | 3 => (rd o).fma mode (rd t) (rd a)
    | 4 => (rd o).min (rd t)
    | _ => (rd o).max (rd t)
  BitVec.ofNat 64 (roundTo f mode false v).bits

/-- A conversion trigger (05 R114); the first letter names the destination. -/
def fConvert (d : Nat) (mode : Mode) (t : Word) : Word :=
  let rd (f : Fmt) := FV.ofBits f (t.toNat % 2 ^ f.width)
  let out (f : Fmt) (v : FV) : Word := BitVec.ofNat 64 (roundTo f mode false v).bits
  match d with
  | 0x34 => out fp32 (rd fp64)
  | 0x35 => out fp64 (rd fp32)
  | 0x36 => out bf16 (rd fp32)
  | 0x37 => out fp32 (rd bf16)
  | 0x38 => out fp32 (FV.ofInt t.toInt)
  | 0x39 => BitVec.ofInt 64 ((rd fp32).toInt mode 64)
  | 0x3A => out fp64 (FV.ofInt t.toInt)
  | _ => BitVec.ofInt 64 ((rd fp64).toInt mode 64)

/-- The result of a trigger of the F column. -/
def fResult (d : Nat) (rm : BitVec 3) (o t a : Word) : Word :=
  let mode := Mode.ofCode rm.toNat 0
  if d < 0x28 then fArith fp32 (d - 0x22) mode o t a
  else if d < 0x2E then fArith bf16 (d - 0x28) mode o t a
  else if d < 0x34 then fArith fp64 (d - 0x2E) mode o t a
  else fConvert d mode t

/-- The outcome of a compare trigger of the C column (05 R115). -/
def cCompare (d : Nat) (o t : Word) : Bool :=
  let s (x : Word) := FV.ofBits fp32 (x.toNat % 2 ^ 32)
  let f (x : Word) := FV.ofBits fp64 x.toNat
  match d with
  | 0x41 => o == t
  | 0x42 => o != t
  | 0x43 => o.slt t
  | 0x44 => decide (o < t)
  | 0x45 => o.sle t
  | 0x46 => decide (o ≤ t)
  | 0x47 => (s o).eq (s t)
  | 0x48 => (s o).lt (s t)
  | 0x49 => (s o).le (s t)
  | 0x4A => (f o).eq (f t)
  | 0x4B => (f o).lt (f t)
  | _ => (f o).le (f t)

/-- Latencies (05 Table 5-11). -/
def triggerLatency (d : Nat) : Nat := if 0x1D ≤ d && d ≤ 0x1F then 3 else if triggerColumn d = 2 then 4 else 1

/-- A completed operation writes its result latch, and a compare the C flag (05 R110, R115). -/
def XSeq.complete (x : XSeq) (op : XOp) : XSeq :=
  let d := op.dst.toNat
  if d ≤ 0x1C then { x with iR := iResult d op.o op.t }
  else if d ≤ 0x1F then { x with iM := iResult d op.o op.t }
  else if d ≤ 0x3B then { x with fR := fResult d op.rm op.o op.t op.addend }
  else if d = 0x4D then { x with cR := if op.addend = 1 then op.o else op.t }
  else
    let c := cCompare d op.o op.t
    { x with cR := if c then 1 else 0, cf := c }

/-! ## One cycle -/

/-- The value that a move reads, popping a load-data queue entry if it names one (05 R107 step 1, Table 5-13). -/
def Cell.readSource (c : Cell) (m : Move) : Word × Cell :=
  match m.value with
  | some v => (v, c)
  | none =>
    let n := m.src.toNat
    if h : n < 16 then (c.x.g[n], c)
    else if h : 20 ≤ n ∧ n < 24 then
      let q := c.lq[n - 20]
      match q.slots with
      | [] => (0, c)
      | e :: rest => (e.value.getD 0, { c with lq := c.lq.set (n - 20) { head := (q.head + 1) % 32, slots := rest } })
    else
      (match n with
       | 16 => c.x.iR
       | 17 => c.x.iM
       | 18 => c.x.fR
       | 19 => c.x.cR
       | 24 => 0
       | 25 => 1
       | _ => BitVec.allOnes 64, c)

/-- Read the sources of the transporting moves in issue order. -/
def Cell.readSources (c : Cell) : List Move → List (Move × Word) × Cell
  | [] => ([], c)
  | m :: rest =>
    let r := c.readSource m
    let t := r.2.readSources rest
    ((m, r.1) :: t.1, t.2)

/-- A move writes its destination: a register, an operand latch or a store-data queue (05 R107 step 2). -/
def Cell.writeLatch (c : Cell) (now : Word) (d : Nat) (v : Word) : Cell :=
  if h : d < 16 then { c with x := { c.x with g := c.x.g.set d v } }
  else if h : 0x60 ≤ d ∧ d < 0x64 then
    let q := c.sq[d - 0x60]
    { c with sq := c.sq.set (d - 0x60) { q with entries := q.entries ++ [(v, now)] } }
  else
    match d with
    | 0x10 => { c with x := { c.x with iO := v } }
    | 0x20 => { c with x := { c.x with fO := v } }
    | 0x21 => { c with x := { c.x with fA := v } }
    | 0x40 => { c with x := { c.x with cO := v } }
    | _ => c

/-- The trigger of a column that starts, if one was written: the last in issue order (05 R108). -/
def lastTrigger (ws : List (Move × Word)) (col : Nat) : Option (Move × Word) :=
  (ws.filter (fun w => triggerColumn w.1.dst.toNat == col)).getLast?

/-- Two moves wrote one destination that is no queue (05 R108). -/
def sameLatch : List (Move × Word) → Bool
  | [] => false
  | w :: rest => (decide (w.1.dst.toNat < 0x60) && rest.any (fun z => z.1.dst == w.1.dst)) || sameLatch rest

/-- Two triggers of one column were written (05 R108). -/
def sameColumn (ws : List (Move × Word)) : Bool :=
  [1, 2, 3].any (fun col => decide (1 < (ws.filter (fun w => triggerColumn w.1.dst.toNat == col)).length))

/-- Start the operation of a trigger; it reads the operand latches after all writes (05 R107 step 3). -/
def Cell.start (c : Cell) (now : Word) (w : Move × Word) : Cell :=
  let d := w.1.dst.toNat
  if d = 0x4E then { c with bqxa := c.bqxa ++ [{ bit := w.2 != 0, pushed := now, visible := false }] }
  else
    let o := match triggerColumn d with
      | 1 => c.x.iO
      | 2 => c.x.fO
      | _ => c.x.cO
    let addend := if d = 0x4D then (if c.x.cf then 1 else 0) else c.x.fA
    { c with x := { c.x with ops := c.x.ops ++
        [{ left := triggerLatency d, dst := w.1.dst, rm := w.1.rm, t := w.2, o, addend, first := w.1.first }] } }

/-- Steps 1 to 3 of 05 R107, and the end of the cycle: delays and latencies count down. -/
def Cell.transport (c : Cell) (now : Word) : Cell :=
  let r := c.readSources (c.x.moves.filter (fun m => m.delay = 0))
  let ws := r.1
  let c := r.2
  let c := ws.foldl (fun c w => c.writeLatch now w.1.dst.toNat w.2) c
  let c := [1, 2, 3].foldl (fun c col => match lastTrigger ws col with
    | some w => c.start now w
    | none => c) c
  { c with x := { c.x with
      moves := (c.x.moves.filter (fun m => m.delay ≠ 0)).map (fun m => { m with delay := m.delay - 1 })
      ops := c.x.ops.map (fun o => { o with left := o.left - 1 })
      wcol := c.x.wcol || sameLatch ws
      tcol := c.x.tcol || sameColumn ws
      issued := false } }

/-! ## The words and events -/

/-- A move issues and waits for its cycle (05 R106). -/
def issueMove (m : Move) (size : Nat) (s : State) : Host.Outcome State Fault Refusal :=
  onX s [m] [] 1 (fun key c s => s.retireX key c size)

/-- A short move: its F triggers round to nearest-even (03 R52, 05 R116). -/
def execMvShort (t : BitVec 2) (d : BitVec 7) (src : BitVec 5) (s : State) : Host.Outcome State Fault Refusal :=
  issueMove { delay := t.toNat, dst := d, rm := 0, src, value := none, first := firstWord (.mvShort t d src) } 2 s

/-- The long move carries a rounding mode (05 R117). -/
def execMv (r : BitVec 3) (t : BitVec 2) (d : BitVec 7) (src : BitVec 5) (s : State) : Host.Outcome State Fault Refusal :=
  issueMove { delay := t.toNat, dst := d, rm := r, src, value := none, first := firstWord (.mv r t d src) } 4 s

/-- mvi writes a sign-extended immediate (05 R117). -/
def execMvi (t : BitVec 2) (d : BitVec 7) (imm : BitVec 11) (s : State) : Host.Outcome State Fault Refusal :=
  issueMove { delay := t.toNat, dst := d, rm := 0, src := 24, value := some (signed imm), first := firstWord (.mvi t d imm) } 4 s

def Cell.transportDue (c : Cell) : Bool := c.x.issued

/-- The moves of this cycle transport (05 R107). -/
def execMoveTransport (cell : Nat) (s : State) : Host.Outcome State Fault Refusal :=
  event (((s.cell? cell).map Cell.transportDue).getD false) s (s.modCell cell (fun c => c.transport s.now))

def Cell.completionDue (c : Cell) : Bool := !c.x.issued && c.x.ops.any (fun o => o.left == 0)

/-- Operations whose latency has passed place their results, in trigger order (05 R110); a result that is due is
placed before a frame of that boundary is read (log 26). -/
def execXseqOperationComplete (cell : Nat) (s : State) : Host.Outcome State Fault Refusal :=
  event (((s.cell? cell).map Cell.completionDue).getD false) s (s.modCell cell (fun c =>
    let x := (c.x.ops.filter (fun o => o.left = 0)).foldl XSeq.complete c.x
    { c with x := { x with ops := c.x.ops.filter (fun o => o.left ≠ 0) } }))

def Cell.thawDue (c : Cell) (now : Word) : Bool := !c.x.frozen.isEmpty && c.x.frozen.all (c.meets now)

/-- The condition of a freeze has cleared (05 R109). -/
def execXseqFreezeEnd (cell : Nat) (s : State) : Host.Outcome State Fault Refusal :=
  event (((s.cell? cell).map (·.thawDue s.now)).getD false) s
    (s.modCell cell (fun c => { c with x := { c.x with frozen := [] } }))

end Sys2Proof.Machine
end

