-- ==== Sys2Proof/Machine/Dispatch.lean ====
section
/-! DEFINITION. One arm per constructor of `Instr`: each calls the meaning of its instruction. -/

namespace Sys2Proof.Machine

/-- The meaning of an instruction or event. -/
def exec (i : Instr) (s : State) : Host.Outcome State Fault Refusal :=
  match i with
  | .blkImmediate n l => Sys2Proof.Machine.execBlkImmediate n l s
  | .blkRegister sel l => Sys2Proof.Machine.execBlkRegister sel l s
  | .br off => Sys2Proof.Machine.execBr off s
  | .bz a off => Sys2Proof.Machine.execBz a off s
  | .bnz a off => Sys2Proof.Machine.execBnz a off s
  | .dcbnz a off => Sys2Proof.Machine.execDcbnz a off s
  | .call off => Sys2Proof.Machine.execCall off s
  | .callr a => Sys2Proof.Machine.execCallr a s
  | .ret a => Sys2Proof.Machine.execRet a s
  | .bqpush a => Sys2Proof.Machine.execBqpush a s
  | .halt code => Sys2Proof.Machine.execHalt code s
  | .bqt off => Sys2Proof.Machine.execBqt off s
  | .bqf off => Sys2Proof.Machine.execBqf off s
  | .brk code10 => Sys2Proof.Machine.execBrk code10 s
  | .addShort d a => Sys2Proof.Machine.execAddShort d a s
  | .addiShort d imm => Sys2Proof.Machine.execAddiShort d imm s
  | .brShort off10 => Sys2Proof.Machine.execBrShort off10 s
  | .cwaitShort n v => Sys2Proof.Machine.execCwaitShort n v s
  | .cincShort n v1 => Sys2Proof.Machine.execCincShort n v1 s
  | .tnextShort d => Sys2Proof.Machine.execTnextShort d s
  | .bqtShort off10 => Sys2Proof.Machine.execBqtShort off10 s
  | .movShort d a => Sys2Proof.Machine.execMovShort d a s
  | .subShort d a => Sys2Proof.Machine.execSubShort d a s
  | .dcbnzShort a off1 => Sys2Proof.Machine.execDcbnzShort a off1 s
  | .add d a b sh => Sys2Proof.Machine.execAdd d a b sh s
  | .sub d a b => Sys2Proof.Machine.execSub d a b s
  | .and d a b => Sys2Proof.Machine.execAnd d a b s
  | .or d a b => Sys2Proof.Machine.execOr d a b s
  | .xor d a b => Sys2Proof.Machine.execXor d a b s
  | .andn d a b => Sys2Proof.Machine.execAndn d a b s
  | .shl d a b => Sys2Proof.Machine.execShl d a b s
  | .shr d a b => Sys2Proof.Machine.execShr d a b s
  | .sra d a b => Sys2Proof.Machine.execSra d a b s
  | .slt d a b => Sys2Proof.Machine.execSlt d a b s
  | .sltu d a b => Sys2Proof.Machine.execSltu d a b s
  | .min d a b => Sys2Proof.Machine.execMin d a b s
  | .max d a b => Sys2Proof.Machine.execMax d a b s
  | .minu d a b => Sys2Proof.Machine.execMinu d a b s
  | .maxu d a b => Sys2Proof.Machine.execMaxu d a b s
  | .mov d a cls => Sys2Proof.Machine.execMov d a cls s
  | .addi d a imm => Sys2Proof.Machine.execAddi d a imm s
  | .andi d a imm => Sys2Proof.Machine.execAndi d a imm s
  | .ori d a imm => Sys2Proof.Machine.execOri d a imm s
  | .xori d a imm => Sys2Proof.Machine.execXori d a imm s
  | .shli d a imm => Sys2Proof.Machine.execShli d a imm s
  | .shri d a imm => Sys2Proof.Machine.execShri d a imm s
  | .srai d a imm => Sys2Proof.Machine.execSrai d a imm s
  | .slti d a imm => Sys2Proof.Machine.execSlti d a imm s
  | .sltiu d a imm => Sys2Proof.Machine.execSltiu d a imm s
  | .mini d a imm => Sys2Proof.Machine.execMini d a imm s
  | .maxi d a imm => Sys2Proof.Machine.execMaxi d a imm s
  | .seqi d a imm => Sys2Proof.Machine.execSeqi d a imm s
  | .li d imm => Sys2Proof.Machine.execLi d imm s
  | .lsh d imm => Sys2Proof.Machine.execLsh d imm s
  | .lown d imm => Sys2Proof.Machine.execLown d imm s
  | .lpc d imm => Sys2Proof.Machine.execLpc d imm s
  | .clz d a w => Sys2Proof.Machine.execClz d a w s
  | .ffs d a w => Sys2Proof.Machine.execFfs d a w s
  | .popc d a w => Sys2Proof.Machine.execPopc d a w s
  | .padd d a b m => Sys2Proof.Machine.execPadd d a b m s
  | .psub d a b m => Sys2Proof.Machine.execPsub d a b m s
  | .bfx d a b len1 => Sys2Proof.Machine.execBfx d a b len1 s
  | .mul d a b => Sys2Proof.Machine.execMul d a b s
  | .mulh d a b => Sys2Proof.Machine.execMulh d a b s
  | .mulhu d a b => Sys2Proof.Machine.execMulhu d a b s
  | .div d a b => Sys2Proof.Machine.execDiv d a b s
  | .rem d a b => Sys2Proof.Machine.execRem d a b s
  | .divu d a b => Sys2Proof.Machine.execDivu d a b s
  | .remu d a b => Sys2Proof.Machine.execRemu d a b s
  | .madd d a b => Sys2Proof.Machine.execMadd d a b s
  | .mvShort t d src => Sys2Proof.Machine.execMvShort t d src s
  | .mv r t d src => Sys2Proof.Machine.execMv r t d src s
  | .mvi t d imm => Sys2Proof.Machine.execMvi t d imm s
  | .moveTransport cell => Sys2Proof.Machine.execMoveTransport cell s
  | .xseqOperationComplete cell => Sys2Proof.Machine.execXseqOperationComplete cell s
  | .xseqFreezeEnd cell => Sys2Proof.Machine.execXseqFreezeEnd cell s
  | .bqEntryVisible cell => Sys2Proof.Machine.execBqEntryVisible cell s
  | .ld d a imm => Sys2Proof.Machine.execLd d a imm s
  | .lds d a imm => Sys2Proof.Machine.execLds d a imm s
  | .st d a imm => Sys2Proof.Machine.execSt d a imm s
  | .pref a imm => Sys2Proof.Machine.execPref a imm s
  | .loadReturn ag id => Sys2Proof.Machine.execLoadReturn ag id s
  | .qld q a imm => Sys2Proof.Machine.execQld q a imm s
  | .qst q a imm => Sys2Proof.Machine.execQst q a imm s
  | .qldi q a imm => Sys2Proof.Machine.execQldi q a imm s
  | .qsti q a imm => Sys2Proof.Machine.execQsti q a imm s
  | .queueLoadFill ag id => Sys2Proof.Machine.execQueueLoadFill ag id s
  | .cadrG d a b => Sys2Proof.Machine.execCadrG d a b s
  | .cadrB d a b => Sys2Proof.Machine.execCadrB d a b s
  | .pchk d a m => Sys2Proof.Machine.execPchk d a m s
  | .bind d a b => Sys2Proof.Machine.execBind d a b s
  | .unbind d a => Sys2Proof.Machine.execUnbind d a s
  | .acq d a b m => Sys2Proof.Machine.execAcq d a b m s
  | .rel d a m => Sys2Proof.Machine.execRel d a m s
  | .fence m => Sys2Proof.Machine.execFence m s
  | .xfer d a b m => Sys2Proof.Machine.execXfer d a b m s
  | .oinit a b => Sys2Proof.Machine.execOinit a b s
  | .releasePerformed ag id => Sys2Proof.Machine.execReleasePerformed ag id s
  | .xferPerformed ag id => Sys2Proof.Machine.execXferPerformed ag id s
  | .cwait n a imm => Sys2Proof.Machine.execCwait n a imm s
  | .cwaitlt n k imm => Sys2Proof.Machine.execCwaitlt n k imm s
  | .cinc n imm => Sys2Proof.Machine.execCinc n imm s
  | .crinc n a imm => Sys2Proof.Machine.execCrinc n a imm s
  | .cset n a => Sys2Proof.Machine.execCset n a s
  | .cread d n => Sys2Proof.Machine.execCread d n s
  | .cstat d n clr => Sys2Proof.Machine.execCstat d n clr s
  | .tinv c a => Sys2Proof.Machine.execTinv c a s
  | .tval c a => Sys2Proof.Machine.execTval c a s
  | .tread d a => Sys2Proof.Machine.execTread d a s
  | .crincArrival gang idx => Sys2Proof.Machine.execCrincArrival gang idx s
  | .amo d a b m => Sys2Proof.Machine.execAmo d a b m s
  | .red a b m => Sys2Proof.Machine.execRed a b m s
  | .swap d a b m => Sys2Proof.Machine.execSwap d a b m s
  | .cas d a b m => Sys2Proof.Machine.execCas d a b m s
  | .atomicPerform ag id => Sys2Proof.Machine.execAtomicPerform ag id s
  | .accalloc d n => Sys2Proof.Machine.execAccalloc d n s
  | .accfree a n => Sys2Proof.Machine.execAccfree a n s
  | .mxmm e fmt ck new zs tm sA sB sS sD sT sXA sXB => Sys2Proof.Machine.execMxmm e fmt ck new zs tm sA sB sS sD sT sXA sXB s
  | .mxld e accum i32 tm sA sS sD sT => Sys2Proof.Machine.execMxld e accum i32 tm sA sS sD sT s
  | .mxclr e tm sD sT => Sys2Proof.Machine.execMxclr e tm sD sT s
  | .mxmma e new zs tm sB sS sD sT => Sys2Proof.Machine.execMxmma e new zs tm sB sS sD sT s
  | .mxmv e tr tm sD sT => Sys2Proof.Machine.execMxmv e tr tm sD sT s
  | .mxmark e => Sys2Proof.Machine.execMxmark e s
  | .mxmarkStamped e tm sT => Sys2Proof.Machine.execMxmarkStamped e tm sT s
  | .mxdrn e k ck tm sA sB sS sD sT => Sys2Proof.Machine.execMxdrn e k ck tm sA sB sS sD sT s
  | .mxepl e k sA => Sys2Proof.Machine.execMxepl e k sA s
  | .mxcks e sD => Sys2Proof.Machine.execMxcks e sD s
  | .mxdrs e k ck tm sB sD sT => Sys2Proof.Machine.execMxdrs e k ck tm sB sD sT s
  | .mxshp e k sA => Sys2Proof.Machine.execMxshp e k sA s
  | .mxcv e k ck new zs tm sA sB sS sD sT => Sys2Proof.Machine.execMxcv e k ck new zs tm sA sB sS sD sT s
  | .drainCheckResolve cell id => Sys2Proof.Machine.execDrainCheckResolve cell id s
  | .vadd e rm fmt um sD sA sB sE => Sys2Proof.Machine.execVadd e rm fmt um sD sA sB sE s
  | .vsub e rm fmt um sD sA sB sE => Sys2Proof.Machine.execVsub e rm fmt um sD sA sB sE s
  | .vmul e rm fmt um sD sA sB sE => Sys2Proof.Machine.execVmul e rm fmt um sD sA sB sE s
  | .vfma e rm fmt um sD sA sB sC sE => Sys2Proof.Machine.execVfma e rm fmt um sD sA sB sC sE s
  | .vmin e fmt um sD sA sB => Sys2Proof.Machine.execVmin e fmt um sD sA sB s
  | .vmax e fmt um sD sA sB => Sys2Proof.Machine.execVmax e fmt um sD sA sB s
  | .vdiv e rm fmt um sD sA sB sE => Sys2Proof.Machine.execVdiv e rm fmt um sD sA sB sE s
  | .vsqrt e rm fmt um sD sA sE => Sys2Proof.Machine.execVsqrt e rm fmt um sD sA sE s
  | .vsgn e fmt op um sD sA sB => Sys2Proof.Machine.execVsgn e fmt op um sD sA sB s
  | .vcmp e cond fmt um sD sA sB => Sys2Proof.Machine.execVcmp e cond fmt um sD sA sB s
  | .vrsc e rm fmt um sD sA sB sC sE => Sys2Proof.Machine.execVrsc e rm fmt um sD sA sB sC sE s
  | .vrst e fmt op um sD sA sE => Sys2Proof.Machine.execVrst e fmt op um sD sA sE s
  | .viadd e iw sat um sD sA sB => Sys2Proof.Machine.execViadd e iw sat um sD sA sB s
  | .visub e iw sat um sD sA sB => Sys2Proof.Machine.execVisub e iw sat um sD sA sB s
  | .vimul e iop iw sat um sD sA sB => Sys2Proof.Machine.execVimul e iop iw sat um sD sA sB s
  | .vilog e iop iw um sD sA sB => Sys2Proof.Machine.execVilog e iop iw um sD sA sB s
  | .vishf e iop iw um sD sA sB => Sys2Proof.Machine.execVishf e iop iw um sD sA sB s
  | .vicmp e iop iw um sD sA sB => Sys2Proof.Machine.execVicmp e iop iw um sD sA sB s
  | .vsel e iw um sD sA sB sC => Sys2Proof.Machine.execVsel e iw um sD sA sB sC s
  | .vcvt e rm df um sat sD sA sf sC sE => Sys2Proof.Machine.execVcvt e rm df um sat sD sA sf sC sE s
  | .vred e fmt op um sD sA sE => Sys2Proof.Machine.execVred e fmt op um sD sA sE s
  | .vdot e fmt um sD sA sB sE => Sys2Proof.Machine.execVdot e fmt um sD sA sB sE s
  | .vscan e fmt op um sD sA sE => Sys2Proof.Machine.execVscan e fmt op um sD sA sE s
  | .vbcast e iw um sD sA => Sys2Proof.Machine.execVbcast e iw um sD sA s
  | .mpush e sA => Sys2Proof.Machine.execMpush e sA s
  | .minv e => Sys2Proof.Machine.execMinv e s
  | .mpop e => Sys2Proof.Machine.execMpop e s
  | .bmz off => Sys2Proof.Machine.execBmz off s
  | .tfn e fn fmt sr sD sA sE => Sys2Proof.Machine.execTfn e fn fmt sr sD sA sE s
  | .tfnx e fn fmt sr sD sA sB sC sE => Sys2Proof.Machine.execTfnx e fn fmt sr sD sA sB sC sE s
  | .tver e sD => Sys2Proof.Machine.execTver e sD s
  | .tvchk e sA => Sys2Proof.Machine.execTvchk e sA s
  | .cpy e crc tm sD sA sB sT sR => Sys2Proof.Machine.execCpy e crc tm sD sA sB sT sR s
  | .cpy2 e crc tm sD sA sB sC sT sR => Sys2Proof.Machine.execCpy2 e crc tm sD sA sB sC sT sR s
  | .cfill e crc tm sD sB sC sT sR => Sys2Proof.Machine.execCfill e crc tm sD sB sC sT sR s
  | .cpym e crc tm sD sA sB sT sM sR => Sys2Proof.Machine.execCpym e crc tm sD sA sB sT sM sR s
  | .cpym2 e crc tm sD sA sB sC sT sM sR => Sys2Proof.Machine.execCpym2 e crc tm sD sA sB sC sT sM sR s
  | .ccrc e crc tm sA sB sT sR => Sys2Proof.Machine.execCcrc e crc tm sA sB sT sR s
  | .gth e sD sA sB sC sE => Sys2Proof.Machine.execGth e sD sA sB sC sE s
  | .sct e op fmt sD sA sB sC sE => Sys2Proof.Machine.execSct e op fmt sD sA sB sC sE s
  | .gred e op fmt sD sA sB sC sE sO => Sys2Proof.Machine.execGred e op fmt sD sA sB sC sE sO s
  | .topk e up fmt sD sA sB sC sE => Sys2Proof.Machine.execTopk e up fmt sD sA sB sC sE s
  | .psort e up fmt sD sA sB sC sE => Sys2Proof.Machine.execPsort e up fmt sD sA sB sC sE s
  | .gscan e exc fmt sD sA sB sC sE => Sys2Proof.Machine.execGscan e exc fmt sD sA sB sC sE s
  | .ghist e clamp accum fmt sD sA => Sys2Proof.Machine.execGhist e clamp accum fmt sD sA s
  | .rndh e seed fmt sD sA sB => Sys2Proof.Machine.execRndh e seed fmt sD sA sB s
  | .lred e op w sD sA => Sys2Proof.Machine.execLred e op w sD sA s
  | .lopen e op fmt sD sA sB => Sys2Proof.Machine.execLopen e op fmt sD sA sB s
  | .lord e fmt sA sB => Sys2Proof.Machine.execLord e fmt sA sB s
  | .lwag e sA sB sC sE => Sys2Proof.Machine.execLwag e sA sB sC sE s
  | .lordArrival cell id => Sys2Proof.Machine.execLordArrival cell id s
  | .waggleArrival cell id => Sys2Proof.Machine.execWaggleArrival cell id s
  | .engineCommandStart cell id => Sys2Proof.Machine.execEngineCommandStart cell id s
  | .granuleCommit cell id => Sys2Proof.Machine.execGranuleCommit cell id s
  | .tagWait cell id => Sys2Proof.Machine.execTagWait cell id s
  | .translationReply ag eng id => Sys2Proof.Machine.execTranslationReply ag eng id s
  | .stampStart cell id => Sys2Proof.Machine.execStampStart cell id s
  | .engineCommandComplete cell id => Sys2Proof.Machine.execEngineCommandComplete cell id s
  | .rdcyc d => Sys2Proof.Machine.execRdcyc d s
  | .rdgcyc d => Sys2Proof.Machine.execRdgcyc d s
  | .rdtinf d sel => Sys2Proof.Machine.execRdtinf d sel s
  | .realign a t => Sys2Proof.Machine.execRealign a t s
  | .twait a t => Sys2Proof.Machine.execTwait a t s
  | .realignResume gang => Sys2Proof.Machine.execRealignResume gang s
  | .twaitExpiry cell => Sys2Proof.Machine.execTwaitExpiry cell s
  | .tnext d => Sys2Proof.Machine.execTnext d s
  | .tinfo d sel => Sys2Proof.Machine.execTinfo d sel s
  | .gbarRelease gang => Sys2Proof.Machine.execGbarRelease gang s
  | .klaunch d a b => Sys2Proof.Machine.execKlaunch d a b s
  | .sxin d a b => Sys2Proof.Machine.execSxin d a b s
  | .sxout d a b => Sys2Proof.Machine.execSxout d a b s
  | .swait d a => Sys2Proof.Machine.execSwait d a s
  | .evget d => Sys2Proof.Machine.execEvget d s
  | .evgetNb d => Sys2Proof.Machine.execEvgetNb d s
  | .lcancel a => Sys2Proof.Machine.execLcancel a s
  | .tret d a => Sys2Proof.Machine.execTret d a s
  | .tretEmu d a => Sys2Proof.Machine.execTretEmu d a s
  | .tretKill d a => Sys2Proof.Machine.execTretKill d a s
  | .tqwait d => Sys2Proof.Machine.execTqwait d s
  | .rdsr d a => Sys2Proof.Machine.execRdsr d a s
  | .wrsr a b => Sys2Proof.Machine.execWrsr a b s
  | .ibinv a => Sys2Proof.Machine.execIbinv a s
  | .cpatch d a b => Sys2Proof.Machine.execCpatch d a b s
  | .pswap d a b => Sys2Proof.Machine.execPswap d a b s
  | .ctxsv d a b => Sys2Proof.Machine.execCtxsv d a b s
  | .ctxld d a => Sys2Proof.Machine.execCtxld d a s
  | .ptupd d a b => Sys2Proof.Machine.execPtupd d a b s
  | .tlbinv a b => Sys2Proof.Machine.execTlbinv a b s
  | .xlat d a m => Sys2Proof.Machine.execXlat d a m s
  | .wqry d a sel => Sys2Proof.Machine.execWqry d a sel s
  | .wset d a b => Sys2Proof.Machine.execWset d a b s
  | .scanComplete part => Sys2Proof.Machine.execScanComplete part s
  | .replicaStep part slot => Sys2Proof.Machine.execReplicaStep part slot s
  | .cellHalt cell => Sys2Proof.Machine.execCellHalt cell s
  | .pswapExchange part => Sys2Proof.Machine.execPswapExchange part s
  | .restoredGangDispatch gang => Sys2Proof.Machine.execRestoredGangDispatch gang s
  | .wqTailWrite n tail => Sys2Proof.Machine.execWqTailWrite n tail s
  | .wqCancel n cseq => Sys2Proof.Machine.execWqCancel n cseq s
  | .launchStart part => Sys2Proof.Machine.execLaunchStart part s
  | .launchCompletion launch => Sys2Proof.Machine.execLaunchCompletion launch s
  | .kernelEligible launch handle => Sys2Proof.Machine.execKernelEligible launch handle s
  | .gangDispatch launch handle => Sys2Proof.Machine.execGangDispatch launch handle s
  | .gangBaseCycle gang => Sys2Proof.Machine.execGangBaseCycle gang s
  | .streamTransfer launch handle => Sys2Proof.Machine.execStreamTransfer launch handle s
  | .streamCompletion launch handle => Sys2Proof.Machine.execStreamCompletion launch handle s
  | .cellExit cell => Sys2Proof.Machine.execCellExit cell s
  | .gangExit gang => Sys2Proof.Machine.execGangExit gang s
  | .samplingIntervalEnd readings => Sys2Proof.Machine.execSamplingIntervalEnd readings s
  | .mirrorTimeout part => Sys2Proof.Machine.execMirrorTimeout part s
  | .contextSaveComplete part => Sys2Proof.Machine.execContextSaveComplete part s
  | .scalarWritePerformed ag id => Sys2Proof.Machine.execScalarWritePerformed ag id s
  | .tqheadWrite part val => Sys2Proof.Machine.execTqheadWrite part val s
  | .wqcfgWrite root n val => Sys2Proof.Machine.execWqcfgWrite root n val s
  | .sysregWrite root num val => Sys2Proof.Machine.execSysregWrite root num val s
  | .packageReset test => Sys2Proof.Machine.execPackageReset test s
  | .monitorAlarm unit => Sys2Proof.Machine.execMonitorAlarm unit s
  | .patrolScrub place => Sys2Proof.Machine.execPatrolScrub place s
  | .mirrorAck part => Sys2Proof.Machine.execMirrorAck part s
  | .bufferDieFailure slot => Sys2Proof.Machine.execBufferDieFailure slot s
  | .eyeMarginPrediction link => Sys2Proof.Machine.execEyeMarginPrediction link s
  | .hostLinkDown port => Sys2Proof.Machine.execHostLinkDown port s
  | .hostMemoryAccess port op => Sys2Proof.Machine.execHostMemoryAccess port op s
  | .hsemAcquire port => Sys2Proof.Machine.execHsemAcquire port s
  | .hsemRelease port => Sys2Proof.Machine.execHsemRelease port s
  | .formPartition port addr => Sys2Proof.Machine.execFormPartition port addr s
  | .dissolvePartition port addr => Sys2Proof.Machine.execDissolvePartition port addr s
  | .writeWpol port addr => Sys2Proof.Machine.execWriteWpol port addr s
  | .writeCethr port addr => Sys2Proof.Machine.execWriteCethr port addr s
  | .stageFirmware port addr => Sys2Proof.Machine.execStageFirmware port addr s
  | .layoutReservedOp port op addr => Sys2Proof.Machine.execLayoutReservedOp port op addr s
  | .getVersion port req => Sys2Proof.Machine.execGetVersion port req s
  | .getCapabilities port req => Sys2Proof.Machine.execGetCapabilities port req s
  | .negotiateAlgorithms port req => Sys2Proof.Machine.execNegotiateAlgorithms port req s
  | .getDigests port req => Sys2Proof.Machine.execGetDigests port req s
  | .getCertificate port req => Sys2Proof.Machine.execGetCertificate port req s
  | .challenge port req => Sys2Proof.Machine.execChallenge port req s
  | .getMeasurements port req => Sys2Proof.Machine.execGetMeasurements port req s
  | .pskExchange port req => Sys2Proof.Machine.execPskExchange port req s
  | .hostLinkUp port => Sys2Proof.Machine.execHostLinkUp port s
  | .mirrorWriteReceive pa data => Sys2Proof.Machine.execMirrorWriteReceive pa data s
  | .softError place double => Sys2Proof.Machine.execSoftError place double s
  | .arrayUndervolt unit array => Sys2Proof.Machine.execArrayUndervolt unit array s
  | .ideKmKeyProg port req => Sys2Proof.Machine.execIdeKmKeyProg port req s
  | .exit => Sys2Proof.Machine.execExit s
  | .nop => Sys2Proof.Machine.execNop s
  | .mpopShort => Sys2Proof.Machine.execMpopShort s
  | .minvShort => Sys2Proof.Machine.execMinvShort s
  | .retShort => Sys2Proof.Machine.execRetShort s
  | .exitShort => Sys2Proof.Machine.execExitShort s
  | .gbar => Sys2Proof.Machine.execGbar s
  | .launchAgeing => Sys2Proof.Machine.execLaunchAgeing s
  | .lifetimeCommit => Sys2Proof.Machine.execLifetimeCommit s
  | .errorWindowEnd => Sys2Proof.Machine.execErrorWindowEnd s
  | .packageLinkUp => Sys2Proof.Machine.execPackageLinkUp s

end Sys2Proof.Machine
end

