-- ==== Sys2Proof/Machine/Place.lean ====
section
/-! DEFINITION. An instruction placed where the next step runs it (log 7): a formed partition, a mapped and granted code
page, and a sequencer of the kind that carries the instruction's unit. It stands for what firmware and a host have done
before a program's first instruction. -/

namespace Sys2Proof.Machine

/-- Who runs an instruction in the placed state. -/
inductive Place where
  | aseq (ctype : CellType)
  | xseq
  | user
  | supervisor
  deriving DecidableEq, Repr

/-- The kind of sequencer that carries the instruction of a word. -/
def placeOf (major minor : Nat) (short : Bool) (p : Parcel) : Place :=
  if short then (if p.getLsbD 14 then .xseq else .aseq .vector)
  else if major = 0x07 then .xseq
  else if 0x0E ≤ major && major ≤ 0x11 then .aseq .matrix
  else if major = 0x18 || major = 0x19 then .aseq .gather
  else if major = 0x1C && 3 ≤ minor then .user
  else if major = 0x1D && minor ≠ 0xB then .supervisor
  else .aseq .vector

/-- The entry that maps the placed page: 4 KiB at virtual and physical 0, HBM, readable, executable, user (19 Table 19-1). -/
def placePage (x : Bool) : PageEntry :=
  { base := 0, leaf := BitVec.ofNat 64 (2 ^ 63 + 2 ^ 58 + 2 ^ 56 + x.toNat * 2 ^ 55 + 2 ^ 54), granted := true }

/-- The gang of the placed cell: one cell, resident. -/
def placedGang : Gang :=
  { uid := 0, launch := none, handle := 0, queue := 0, seq := 0, seed := 0, gnum := 0, cl := 0, ncells := 1, state := .resident, base := 0,
    timed := false, live := 0, plat := 0, det := false, nest := { ndim := 1, extents := [1], perm := [0], total := 1 },
    bindings := [], incs := [], fpx := Vector.replicate 24 0, dndf := false, wear := 0, fpSent := [], haltedAt := 0, startsAt := 0, saveArea := 0, doomed := none }

/-- The slot of a die that carries cells of a type, in the prompt cluster (01 Table 1-2). -/
def placeSlot : CellType → Nat
  | .matrix => 1
  | .vector => 13
  | .gather => 25

/-- A partition with nothing under way outside its cells. -/
def Partition.quiet (p : Partition) : Partition := { p with replicas := [], scans := [], swaps := [], saves := [], mirrorOut := [] }

/-- The placed partition. -/
def Partition.placed (p : Partition) (page : PageEntry) : Partition :=
  let replica : Replica := { gen := p.sentGen, entries := [page] }
  { p.quiet with
    formed := true, stopped := false, entries := [page]
    replicas := [(0, replica), (1, replica), (13, replica), (25, replica)]
    layout := { p.layout with scoreboard := 16, cap := 2 ^ 20, cores := 0xFFFF } }

/-- A launch whose program the placed control core runs (17 R331). -/
def placeLaunch : Launch :=
  { part := 0, queue := 0, port := false, seq := 0, seed := 0, ctx := 0, gnum := 0, crec := 0, core := some 0, home := 0, band := 0, derated := false,
    issued := 0, cmds := [], ended := none, nkern := 0, fpx := Vector.replicate 24 0, wear := 0, dndf := false }

/-- Everything but the sequencer of the placed word at rest. -/
def State.atRest (s : State) : State :=
  { s with partitions := s.partitions.map Partition.quiet, cells := [], gangs := [], launches := [], wqcfg := [], poison := [], lostDies := [], records := [], dieTlb := [], roCache := [], rdymap0 := s.rdymap0 ||| 0xFF,
           cores := Vector.replicate 16 Core.idle, agenda := [], cursor := 0 }

/-- Control core 0 about to run the placed word. -/
def placeCore (priv : Priv) (launch : Option Nat) : Core :=
  { Core.idle with a := ASeq.fresh 0 (Vector.replicate 16 0), priv, part := some 0, launch, running := true }

/-- The state with an instruction's words at address 0 and the sequencer that runs them about to take its turn. -/
def State.placeWord (s : State) (nbits w : Nat) : State :=
  let ps := tableParcels nbits w
  let p0 := ps.headD 0
  let word := p0 ++ (ps.getD 1 0)
  let place := placeOf (word.extractLsb' 26 5).toNat (word.extractLsb' 20 4).toNat (!p0.getLsbD 15) p0
  let page := placePage (decide (place = .xseq))
  let s := s.atRest
  let s := { s.setPart 0 ((s.part 0).placed page) with mem := writeBytes s.mem 0 (ps.flatMap parcelBytes) }
  match place with
  | .aseq t => { s with gangs := [(0, placedGang)], cells := [(0, Cell.fresh t (placeSlot t) 0 0 0 (Vector.replicate 16 0))] }
  | .xseq =>
    let c := Cell.fresh .vector 13 0 0 0 (Vector.replicate 16 0)
    { s with gangs := [(0, placedGang)], cells := [(0, { c with a := { c.a with pos := { c.a.pos with exited := true } } })] }
  | .user => { s with launches := [(0, placeLaunch)], nextLaunch := 1 }.setCore 0 (placeCore .user (some 0))
  | .supervisor => s.setCore 0 (placeCore .supervisor none)

end Sys2Proof.Machine
end

