-- ==== Sys2Proof/Machine/Schedule.lean ====
section
/-! DEFINITION. Which step comes next when no input waits: the first event of the device that can take place, then the
sequencers in turn, then the clock (log 3). -/

namespace Sys2Proof.Machine

/-! ## The events of the device, each with its condition -/

/-- Events of the sequencers of a cell (04 R84, 05 R107 to R110). -/
def sequencerEvents (s : State) (key : Nat) (c : Cell) : List (Bool × Instr) :=
  [(c.bqDue (s.ownAge c), .bqEntryVisible key), (c.transportDue, .moveTransport key), (c.completionDue, .xseqOperationComplete key),
   (c.thawDue s.now, .xseqFreezeEnd key)]

/-- Events of an outstanding access, release or xfer (06 R136, R138; 07 R158, R160; 08 R187). -/
def accessEvents (s : State) (ag : Agent) (x : Access) : List (Bool × Instr) :=
  [(s.replyDue ag x.id, .translationReply ag false x.id), (s.performDue ag x.id wantLoad, .loadReturn ag x.id),
   (s.performDue ag x.id wantQueueLoad, .queueLoadFill ag x.id), (s.performDue ag x.id wantStore, .scalarWritePerformed ag x.id),
   (s.performDue ag x.id wantAtomic, .atomicPerform ag x.id), (s.syncDue ag x.id wantRelease, .releasePerformed ag x.id),
   (s.syncDue ag x.id wantXfer, .xferPerformed ag x.id)]

def agentEvents (s : State) (ag : Agent) (a : ASeq) : List (Bool × Instr) := a.out.flatMap (accessEvents s ag)

/-- Events of an engine command that completes, works or waits (08 R171, R180 to R185; 10 R229; 15 R305, R309). -/
def commandEvents (s : State) (key : Nat) (x : Cmd) : List (Bool × Instr) :=
  [(s.completeDue key x.id, .engineCommandComplete key x.id), (s.suspendDue key x.id, .translationReply (.aseq key) true x.id),
   (s.tagDue key x.id, .tagWait key x.id), (s.unitDue key x.id .commit, .granuleCommit key x.id),
   (s.unitDue key x.id .check, .drainCheckResolve key x.id), (s.lordDue key x.id, .lordArrival key x.id),
   (s.waggleDue key x.id, .waggleArrival key x.id), (s.startDue key x.id, .engineCommandStart key x.id)]

/-- Events of a cell, its engine commands apart (16 R324; 18 R366). -/
def cellEvents (s : State) (p : Nat × Cell) : List (Bool × Instr) :=
  sequencerEvents s p.1 p.2 ++ agentEvents s (.aseq p.1) p.2.a ++
    [(s.haltDue p.1, .cellHalt p.1), (s.twaitDue p.1, .twaitExpiry p.1), (s.cellExitDue p.1, .cellExit p.1)]

/-- Events of a gang (16 R315, R323; 17 R338, R345; 18 R371). -/
def gangEvents (s : State) (p : Nat × Gang) : List (Bool × Instr) :=
  [(s.baseDue p.1, .gangBaseCycle p.1), (s.gbarDue p.1, .gbarRelease p.1), (s.realignDue p.1, .realignResume p.1),
   (s.restoreDue p.1, .restoredGangDispatch p.1), (s.gangExitDue p.1, .gangExit p.1)]

/-- Events of a partition's page-table engine, swaps, saves and mirror (18 R368, R370; 19 R376, R386; 22 R420). -/
def partitionEvents (s : State) (p : Nat) : List (Bool × Instr) :=
  (s.part p).replicas.map (fun r => (s.replicaDue p r.1, .replicaStep p r.1)) ++
    [(s.scanDue p, .scanComplete p), ((s.exchangeDue p).isSome, .pswapExchange p),
     ((s.saveDue p).isSome, .contextSaveComplete p), ((s.part p).formed && (s.part p).mirrorLate s.now, .mirrorTimeout p)]

/-- A control line that the device is to observe (17 R328, R333). -/
def queueEvents (s : State) (n : Nat) : List (Bool × Instr) :=
  [((s.tailDue n).isSome, .wqTailWrite n ((s.tailDue n).getD 0)), ((s.cancelDue n).isSome, .wqCancel n ((s.cancelDue n).getD 0))]

/-- Events of a command of a launch program, the parts of transfers apart (17 R336 to R339). -/
def streamEvents (s : State) (l : Nat) (c : StreamCmd) : List (Bool × Instr) :=
  [(s.kernelDue l c.handle, .kernelEligible l c.handle), (s.dispatchDue l c.handle, .gangDispatch l c.handle),
   (s.streamDone l c.handle, .streamCompletion l c.handle)]

def launchEvents (s : State) (p : Nat × Launch) : List (Bool × Instr) :=
  p.2.cmds.flatMap (streamEvents s p.1) ++ [(s.completionDue p.1, .launchCompletion p.1)]

/-- Every event of the device that waits for no turn, in the order in which the model takes them. -/
def State.events (s : State) : List (Bool × Instr) :=
  s.cells.flatMap (cellEvents s) ++ (List.range 16).flatMap (fun k => agentEvents s (.core k) (s.core k).a) ++
    s.gangs.flatMap (gangEvents s) ++ (List.range 8).flatMap (partitionEvents s) ++
    s.wqcfg.flatMap (fun q => queueEvents s q.1) ++ [(!s.ageing.isEmpty, .launchAgeing)] ++
    s.launches.flatMap (launchEvents s) ++ (List.range 8).map (fun p => (s.launchDue p, .launchStart p))

/-- The first event that can take place. -/
def firstDue (es : List (Bool × Instr)) : Option Instr := (es.find? (·.1)).map (·.2)

/-- The first event of the device that can take place. -/
def State.pickEvent (s : State) : Option Instr := firstDue s.events

/-! ## Turns and the clock -/

/-- What takes turns within a cycle: the words of sequencers, the arrivals of remote increments, which come after the words of
their cycle (08 R177), the work of engine commands, the parts of stream transfers, and stamps that are reached by commands
which were not ready before them (16 R318). -/
inductive Turn where
  | word (ag : Agent)
  | arrive (gang : Nat)
  | work (cell : Nat) (x : Cmd)
  | part (launch : Nat) (c : StreamCmd)
  | stamp (cell : Nat) (id : Nat)
  deriving DecidableEq, Repr

/-- Turns come in the order of these numbers, which do not change as cells and commands come and go. -/
def Turn.number : Turn → Nat
  | .word (.aseq k) => 2 * k
  | .word (.xseq k) => 2 * k + 1
  | .word (.core k) => 2 ^ 30 + k
  | .arrive g => 2 ^ 30 + 16 + g
  | .work k x => 2 ^ 31 + k * 2 ^ 64 + x.id
  | .part l c => 2 ^ 90 + l * 2 ^ 16 + c.handle
  | .stamp k id => 2 ^ 180 + k * 2 ^ 64 + id

/-- The number from which turns go on after this one: a gang takes its turn until nothing more arrives. -/
def Turn.after : Turn → Nat
  | .arrive g => (Turn.arrive g).number
  | t => t.number + 1

/-- The first remote increment of a gang that can arrive. -/
def State.arrival (s : State) (g : Nat) : Option Instr :=
  match s.gang? g with
  | some gg => ((List.range gg.incs.length).find? (s.crincDue g)).map (.crincArrival g)
  | none => none

/-- The turns of a cycle, in their order. -/
def State.turns (s : State) : List Turn :=
  s.cells.flatMap (fun p => [.word (.aseq p.1), .word (.xseq p.1)]) ++ (List.range 16).map (fun k => .word (.core k)) ++
    s.gangs.map (fun p => .arrive p.1) ++ s.cells.flatMap (fun p => p.2.cmds.map (.work p.1)) ++ s.launches.flatMap (fun p => p.2.cmds.map (.part p.1)) ++
    s.cells.flatMap (fun p => p.2.cmds.map (fun x => .stamp p.1 x.id))

/-- A word, or the event, that a turn brings. -/
inductive Offer where
  | word (ag : Agent)
  | event (i : Instr)
  deriving DecidableEq, Repr

/-- What a turn brings, if it can be taken. -/
def State.offer (s : State) : Turn → Option Offer
  | .word ag => if s.issuing ag && (ag.cell?.map s.clocked).getD true then some (.word ag) else none
  | .arrive g => (s.arrival g).map .event
  | .work k x => if s.clocked k then (firstDue (commandEvents s k x)).map .event else none
  | .part l c => if s.streamDue l c.handle then some (.event (.streamTransfer l c.handle)) else none
  | .stamp k id => if s.stampDue k id then some (.event (.stampStart k id)) else none

/-- The first turn from number `n` on that can be taken, with the number after it. -/
def nextTurn (s : State) (n : Nat) : List Turn → Option (Offer × Nat)
  | [] => none
  | t :: rest =>
    if t.number < n then nextTurn s n rest
    else match s.offer t with
      | some m => some (m, t.after)
      | none => nextTurn s n rest

/-- The readings of the cells' sensors at the end of a sampling interval (log 8). -/
def sensorReadings (now : Word) : List (Nat × BitVec 64 × BitVec 64) :=
  ((List.range 1024).filter (fun u => fittedCell (u / 32) (u % 32))).map (fun u => (u, Config.wearReading now.toNat u))

/-- What falls due with the cycle that begins: the ends of sampling intervals and error windows, and the commits of the
lifetime record (21 R404, R408; 22 R422). -/
def periodic (now : Word) : List Instr :=
  (if now.toNat % intervalLen = 0 then [.samplingIntervalEnd (sensorReadings now)] else []) ++
    (if now.toNat % 2 ^ 28 = 0 then [.errorWindowEnd] else []) ++ (if now.toNat % 2 ^ 32 = 0 then [.lifetimeCommit] else [])

/-- What dispatch decisions of the cycle that begins see (01 R22, 21 R406). -/
def State.dispatchView (s : State) : DispatchView := { diemix := s.diemix, diecell := s.diecell, life := s.life }

/-- The acquires of the stamped commands that have become ready in this cycle (16 R446). -/
def State.earlyAcquires (s : State) : State :=
  (s.cells.flatMap (fun p => p.2.cmds.map (fun x => (p.1, x.id)))).foldl (fun s p => s.earlyAcquire p.1 p.2) s

/-- What the end of a cycle brings: queue orphans, acquires of stamped commands, waits of control cores, and the delivery of
the trap records of the cycle (04 R87, 16 R446, 18 R348, 19 R386). -/
def State.endCycle (s : State) : State := s.judgeOrphans.earlyAcquires.advanceCores.deliverAll

/-- The cycle that begins: patrol scrubbing reads every word at least once every 2^30 cycles (22 R415). -/
def State.nextCycle (s : State) : State :=
  { s with now := s.now + 1, cursor := 0, view := s.dispatchView
           agenda := periodic (s.now + 1) ++ (if (s.now + 1).toNat % 2 ^ 30 = 0 then s.scrubs else []) }

/-- Every turn of the cycle has been taken: the next cycle begins. -/
def State.tick (s : State) : State := s.endCycle.nextCycle

end Sys2Proof.Machine
end

