-- ==== Sys2Proof/Machine/Step.lean ====
section
/-! DEFINITION. One step: an input or event that waits, or an event of the device that can take place, or what the next
turn of the cycle brings, or the next package cycle (log 3). -/

namespace Sys2Proof.Machine

/-- The agent in focus takes its turn: it fetches and runs one word, unless its last word still takes cycles. A frozen X-seq
does nothing. -/
def State.turn (s : State) : Host.Outcome State Fault Refusal :=
  match s.focus with
  | .xseq k =>
    match s.cell? k with
    | none => .fault .noAgent
    | some c =>
      if !c.x.frozen.isEmpty then .next s
      else if c.x.pos.exited || c.x.idle ≠ 0 then .next (s.idleX k)
      else match s.fetch s.focus c.x.pos true with
        | .word i => exec i (s.fetched i)
        | .wait => .next s
        | .trapped t => .next t
        | .undecodable => .fault .undecodable
  | ag =>
    match s.aseq? ag with
    | none => .fault .noAgent
    | some a =>
      if a.busy ≠ 0 then .next (s.setASeq ag { a with busy := a.busy - 1 })
      else match s.fetch ag a.pos false with
      | .word i => exec i (s.fetched i)
      | .wait => .next s
      | .trapped t => .next t
      | .undecodable => .fault .undecodable

/-- The port that a step writes HSEM for. -/
def hsemPort : Instr → Option Bool
  | .hsemAcquire p => some p
  | .hsemRelease p => some p
  | .hostMemoryAccess p (.writeRegister 0 _) => some p
  | _ => none

/-- The next of the inputs that wait, and those after it: the first, but port 1's write of HSEM comes after port 0's
(23 R426). -/
def nextInput (i : Instr) (rest : List Instr) : Instr × List Instr :=
  if hsemPort i = some true then
    match rest.find? (fun j => hsemPort j == some false) with
    | some j => (j, i :: rest.erase j)
    | none => (i, rest)
  else (i, rest)

/-- One step of the machine. -/
def step (s : State) : Host.Outcome State Fault Refusal :=
  match s.agenda with
  | i :: rest => exec (nextInput i rest).1 { s with agenda := (nextInput i rest).2 }
  | [] =>
    match s.pickEvent with
    | some i => exec i s
    | none =>
      match nextTurn s s.cursor s.turns with
      | some (.word ag, n) => State.turn { s with focus := ag, cursor := n }
      | some (.event i, n) => exec i { s with cursor := n }
      | none => .next s.tick

/-- The state with an instruction placed where the next step runs it (log 7): the bits above `nbits` are 0. -/
def State.withFetchWord (s : State) (nbits w : Nat) : State := s.placeWord nbits w

end Sys2Proof.Machine
end

