-- ==== Sys2Proof/Safety.lean ====
section
/-! DEFINITION. The terms in which claims speak: who issues a word, what a step leaves alone, and the canonical form of
memory as an invariant. -/

/-- The instruction is a word of a program, and no event. -/
def Sys2Proof.Instr.isWord (i : Sys2Proof.Instr) : Bool := Sys2Proof.acceptedOn true i || Sys2Proof.acceptedOn false i

namespace Sys2Proof.Machine

/-! ## Who issues -/

/-- The A-seq or control core `ag`, whose state is `a`, has its turn and issues a word, and no register of `use` waits for an
outstanding access (05 R93). -/
structure Issues (s : State) (ag : Agent) (a : ASeq) (use : List (BitVec 5)) : Prop where
  focus : s.focus = ag
  scalar : ∀ k, ag ≠ .xseq k
  issuing : s.issuing ag = true
  state : s.aseq? ag = some a
  ready : a.pending use = false

/-- The A-seq of the cell `c` with key `key` has its turn and issues a word, and no register of `use` waits. -/
structure CellIssues (s : State) (key : Nat) (c : Cell) (use : List (BitVec 5)) : Prop where
  focus : s.focus = .aseq key
  issuing : s.issuing (.aseq key) = true
  cell : s.cell? key = some c
  ready : c.a.pending use = false

/-- Control core `k` has its turn and issues a word, and no register of `use` waits. -/
structure CoreIssues (s : State) (k : Nat) (use : List (BitVec 5)) : Prop where
  focus : s.focus = .core k
  issuing : s.issuing (.core k) = true
  ready : (s.core k).a.pending use = false

/-- The X-seq of the cell `c` with key `key` has its turn, and the cycle can take place when the word adds the moves `adds`
and pops or pushes what `needs` names (05 R109). -/
structure XIssues (s : State) (key : Nat) (c : Cell) (adds : List Move) (needs : List (Nat × Nat)) : Prop where
  focus : s.focus = .xseq key
  issuing : s.issuing (.xseq key) = true
  cell : s.cell? key = some c
  meets : (moveNeeds (c.x.moves ++ adds) ++ needs).all (c.meets s.now) = true

/-- The cell after its X-seq has issued a word of `cost` cycles that adds the moves `adds`. -/
def Cell.xIssued (c : Cell) (adds : List Move) (cost : Nat) : Cell :=
  { c with x := { c.x with moves := c.x.moves ++ adds, issued := true, idle := cost - 1, frozen := [] } }

/-- An access of the instruction `i` as it stands when it has issued. -/
def newAccess (s : State) (ag : Agent) (q : ASeq) (kind : AccessKind) (ea : Word) (w : Nat) (i : Instr) (committed : Bool)
    (loc : Option Nat) : Access :=
  { id := q.nextId, kind, ea, width := w, first := firstWord i, committed, loc
    bound := if kind.isWrite then s.boundObjects ag ea.toNat w else [], inc := none, mirrored := false }

/-- The A-seq with one more outstanding access. -/
def ASeq.withAccess (q : ASeq) (x : Access) : ASeq := { q with out := q.out ++ [x], nextId := q.nextId + 1 }

/-! ## Forms by level and by sequencer (03 R49, 17 Table 17-9, 18 R355) -/

/-- Control core `k`, above user level, has its turn and issues a word, and no register of `use` waits. -/
structure SupervisorIssues (s : State) (k : Nat) (use : List (BitVec 5)) : Prop where
  issues : CoreIssues s k use
  level : (s.core k).priv ≠ .user

/-- Core `k` has `v` in S[D] and goes on to the next word. -/
def State.gives (s : State) (k : Nat) (d : BitVec 5) (v : Word) : State :=
  s.setCore k { s.core k with a := ((s.core k).a.setReg d v).retire 4 }

/-- The minor of a form of major 0x1D that is not user-level. -/
def supervisorMinor : Instr → Option Nat
  | .tret .. => some 0x0
  | .tretEmu .. => some 0x0
  | .tretKill .. => some 0x0
  | .tqwait .. => some 0x1
  | .rdsr .. => some 0x2
  | .wrsr .. => some 0x3
  | .ibinv .. => some 0x4
  | .cpatch .. => some 0x5
  | .pswap .. => some 0x6
  | .ctxsv .. => some 0x7
  | .ctxld .. => some 0x8
  | .ptupd .. => some 0x9
  | .tlbinv .. => some 0xA
  | .wqry .. => some 0xC
  | .wset .. => some 0xD
  | _ => none

/-- The minor of a form of major 0x1C that control cores alone have. -/
def launchMinor : Instr → Option Nat
  | .klaunch .. => some 0x3
  | .sxin .. => some 0x4
  | .sxout .. => some 0x5
  | .swait .. => some 0x6
  | .evget .. => some 0x7
  | .evgetNb .. => some 0x7
  | .lcancel .. => some 0x8
  | _ => none

/-- Major, minor and size of a form that cells alone have, the engine commands and reads of time apart. -/
def cellForm : Instr → Option (Nat × Nat × Bool)
  | .bqpush .. => some (0x01, 0x7, false)
  | .bqt .. => some (0x01, 0xA, false)
  | .bqf .. => some (0x01, 0xB, false)
  | .bqtShort .. => some (0x01, 0xA, true)
  | .qld .. => some (0x09, 0x0, false)
  | .qst .. => some (0x09, 0x1, false)
  | .qldi .. => some (0x09, 0x2, false)
  | .qsti .. => some (0x09, 0x3, false)
  | .bind .. => some (0x0B, 0x0, false)
  | .unbind .. => some (0x0B, 0x1, false)
  | .xfer .. => some (0x0B, 0x5, false)
  | .cwait .. => some (0x0C, 0x0, false)
  | .cwaitShort .. => some (0x0C, 0x0, true)
  | .cwaitlt .. => some (0x0C, 0x1, false)
  | .cinc .. => some (0x0C, 0x2, false)
  | .cincShort .. => some (0x0C, 0x2, true)
  | .crinc .. => some (0x0C, 0x3, false)
  | .cset .. => some (0x0C, 0x4, false)
  | .cread .. => some (0x0C, 0x5, false)
  | .cstat .. => some (0x0C, 0x6, false)
  | .tinv .. => some (0x0C, 0x7, false)
  | .tval .. => some (0x0C, 0x7, false)
  | .tread .. => some (0x0C, 0x7, false)
  | .accalloc .. => some (0x0E, 0x0, false)
  | .accfree .. => some (0x0E, 0x1, false)
  | .mpush .. => some (0x15, 0x0, false)
  | .minv .. => some (0x15, 0x1, false)
  | .minvShort => some (0x15, 0x1, true)
  | .mpop .. => some (0x15, 0x2, false)
  | .mpopShort => some (0x15, 0x2, true)
  | .bmz .. => some (0x15, 0x3, false)
  | .tnext .. => some (0x1C, 0x0, false)
  | .tnextShort .. => some (0x1C, 0x0, true)
  | .tinfo .. => some (0x1C, 0x1, false)
  | .gbar => some (0x1C, 0x2, false)
  | _ => none

/-! ## Engine commands (08 R171, R182; 09 Table 9-2; 11 Table 11-11) -/

/-- The unit that runs the engine command and the types of the cells that have it; none for what is no engine command. -/
inductive EngineUnit where
  | matrix
  | vector
  | table
  | gather
  | copy
  | link
  deriving DecidableEq, Repr

def engineUnit : Instr → Option EngineUnit
  | .mxmm .. => some .matrix
  | .mxld .. => some .matrix
  | .mxclr .. => some .matrix
  | .mxmma .. => some .matrix
  | .mxmv .. => some .matrix
  | .mxmark .. => some .matrix
  | .mxmarkStamped .. => some .matrix
  | .mxdrn .. => some .matrix
  | .mxepl .. => some .matrix
  | .mxcks .. => some .matrix
  | .mxdrs .. => some .matrix
  | .mxshp .. => some .matrix
  | .mxcv .. => some .matrix
  | .vadd .. => some .vector
  | .vsub .. => some .vector
  | .vmul .. => some .vector
  | .vfma .. => some .vector
  | .vmin .. => some .vector
  | .vmax .. => some .vector
  | .vdiv .. => some .vector
  | .vsqrt .. => some .vector
  | .vsgn .. => some .vector
  | .vcmp .. => some .vector
  | .vrsc .. => some .vector
  | .vrst .. => some .vector
  | .viadd .. => some .vector
  | .visub .. => some .vector
  | .vimul .. => some .vector
  | .vilog .. => some .vector
  | .vishf .. => some .vector
  | .vicmp .. => some .vector
  | .vsel .. => some .vector
  | .vcvt .. => some .vector
  | .vred .. => some .vector
  | .vdot .. => some .vector
  | .vscan .. => some .vector
  | .vbcast .. => some .vector
  | .tfn .. => some .table
  | .tfnx .. => some .table
  | .tver .. => some .table
  | .tvchk .. => some .table
  | .cpy .. => some .copy
  | .cpy2 .. => some .copy
  | .cfill .. => some .copy
  | .cpym .. => some .copy
  | .cpym2 .. => some .copy
  | .ccrc .. => some .copy
  | .gth .. => some .gather
  | .sct .. => some .gather
  | .gred .. => some .gather
  | .topk .. => some .gather
  | .psort .. => some .gather
  | .gscan .. => some .gather
  | .ghist .. => some .gather
  | .rndh .. => some .gather
  | .lred .. => some .link
  | .lopen .. => some .link
  | .lord .. => some .link
  | .lwag .. => some .link
  | _ => none

/-- The cell types that have the unit. -/
def EngineUnit.on : EngineUnit → CellType → Bool
  | .matrix, t => t == .matrix
  | .vector, t => t == .vector
  | .table, t => t == .vector
  | .gather, t => t == .gather
  | .copy, _ => true
  | .link, _ => true

/-- The queue of the unit (18 R354). -/
def EngineUnit.queue : EngineUnit → Nat
  | .matrix => 0
  | .vector => 1
  | .table => 2
  | .gather => 3
  | .copy => 4
  | .link => 5

/-- The operands of a matrix form, by the roles of 09 Tables 9-5 and 9-8, and the fields of the shape that it uses. -/
structure MatrixOperands where
  d : Option (BitVec 5) := none
  a : Option (BitVec 5) := none
  b : Option (BitVec 5) := none
  s : Option (BitVec 5) := none
  xa : Option (BitVec 5) := none
  xb : Option (BitVec 5) := none
  usesK : Bool := false
  usesMN : Bool := false
  usesS : Bool := false

/-- The conditions of 09 Table 9-2 at the issue of a matrix form, code by code. -/
def matrixFault (i : Instr) (c : Cell) (code : Nat) : Prop :=
  let o : MatrixOperands := match i with
    | .mxmm _ _ _ _ _ _ sA sB sS sD _ sXA sXB => { d := sD, a := sA, b := sB, s := sS, xa := sXA, xb := sXB, usesK := true, usesMN := true }
    | .mxld _ _ _ _ sA sS sD _ => { d := sD, a := sA, s := sS, usesMN := true }
    | .mxclr _ _ sD _ => { d := sD }
    | .mxmma _ _ _ _ sB sS sD _ => { d := sD, b := sB, s := sS, usesK := true, usesMN := true, usesS := true }
    | .mxmv _ _ _ sD _ => { d := sD, usesMN := true, usesS := true }
    | .mxdrn _ _ _ _ _ _ _ sD _ => { d := sD }
    | .mxcks _ sD => { d := sD }
    | .mxdrs _ _ _ _ _ sD _ => { d := sD }
    | .mxcv _ _ _ _ _ _ _ _ _ sD _ => { d := sD }
    | _ => {}
  let val (r : Option (BitVec 5)) : Nat := match r with
    | some r => (c.a.reg r).toNat
    | none => 0
  let f (v hi lo : Nat) : Nat := v / 2 ^ lo % 2 ^ (hi + 1 - lo)
  let sh := val o.d
  let k := f sh 47 32
  let n := f sh 29 24 + 1
  let m := f sh 21 16 + 1
  let src := f sh 12 8
  let dst := f sh 4 0
  let sa := f (val o.s) 31 0
  let sb := f (val o.s) 63 32
  let held (t : Nat) : Prop := ∀ j, j < 8 → c.banks.getLsbD (8 * t + j) = true
  let mxm : Bool := match i with
    | .mxmm .. => true
    | .mxld .. => true
    | .mxclr .. => true
    | .mxmma .. => true
    | .mxmv .. => true
    | _ => false
  let path (v : Nat) : Nat := v / 2 ^ 60
  let comb (v : Nat) : Prop := path v = 1 ∨ path v = 3
  let transl (v : Nat) : Prop := path v = 0 ∨ path v = 2 ∨ path v = 4 ∨ path v = 5
  match code with
  | 0x05 => o.d.isSome = true ∧ (¬held dst ∨ (o.usesS = true ∧ ¬held src))
  | 0x06 => mxm = true ∧ (f sh 63 48 ≠ 0 ∨ f sh 31 30 ≠ 0 ∨ f sh 23 22 ≠ 0 ∨ f sh 15 13 ≠ 0 ∨ f sh 7 5 ≠ 0 ∨ (o.usesK = false ∧ k ≠ 0) ∨
      (o.usesMN = false ∧ (m ≠ 1 ∨ n ≠ 1)) ∨ (o.usesS = false ∧ src ≠ 0) ∨
      (match i with
       | .mxld .. => sb ≠ 0
       | .mxmma .. => sa ≠ 0
       | _ => False))
  | 0x07 => (match i with
      | .mxmm _ _ ck _ _ _ _ _ _ _ _ _ _ => 16384 < k ∨ (ck = true ∧ (63 < m ∨ 63 < n))
      | .mxmma .. => 64 < k
      | _ => False)
  | 0x08 => (match i with
      | .mxmm .. => val o.a % 16 ≠ 0 ∨ val o.b % 16 ≠ 0 ∨ sa % 16 ≠ 0 ∨ sb % 16 ≠ 0
      | .mxmma .. => val o.b % 16 ≠ 0 ∨ sb % 16 ≠ 0
      | .mxld .. => val o.a % 4 ≠ 0 ∨ sa % 4 ≠ 0
      | _ => False)
  | 0x09 => (match i with
      | .mxmm _ fmt _ _ _ _ _ _ _ _ _ _ _ => fmt = 6 ∧ ((comb (val o.xa) ∧ transl (val o.xb)) ∨ (comb (val o.xb) ∧ transl (val o.xa)))
      | _ => False)
  | 0x0A => (match i with
      | .mxmma .. => src = dst
      | _ => False)
  | _ => False

/-- The regions that a command names, and whether their counts agree (11 R241, 12 R272, 14 R291, 15 R302). -/
def commandRegions (i : Instr) (c : Cell) : List (Word × Nat) × Bool :=
  let vs := i.captured.map c.a.reg
  match engineUnit i with
  | some .vector => ((vregs i vs).all, countsOk i vs (vregs i vs))
  | some .table => (tblRegs i vs, tblCounts i vs)
  | some .gather => (match i with
      | .gth .. => ([(val vs 1, 8)], ((gthVals i vs).offs.map (fun o => decide (2 ≤ o.count))).getD true)
      | .sct .. => ([(val vs 1, 8)], ((gthVals i vs).offs.map (fun o => decide (2 ≤ o.count))).getD true)
      | .gred .. => ([(val vs 1, 8), (val vs 5, 8)], ((gthVals i vs).offs.map (fun o => decide (2 ≤ o.count))).getD true)
      | _ => ((srtRegs i vs).all, srtCounts i vs (srtRegs i vs)))
  | some .link => (match i with
      | .lred .. => ([(val vs 1, linkEb2 i)], true)
      | .lopen .. => ([(val vs 0, linkEb2 i), (val vs 1, linkEb2 i)],
          (linkRegion i (val vs 1)).count == lopenNR (val vs 2) * (linkRegion i (val vs 0)).count)
      | .lord .. => ([(val vs 0, linkEb2 i)], true)
      | _ => ([], true))
  | _ => ([], true)

/-- The stamp of a timed command has passed when it issues; it issues as elastic in a cell that goes on from a time fault
(16 R317, R320). -/
def StampPassed (s : State) (key : Nat) (c : Cell) (i : Instr) : Prop :=
  let at_ := s.gangBase key + stampValue i (i.captured.map c.a.reg)
  i.stampMode = 1 ∧ c.asElastic = false ∧ 0 < (s.now - at_).toNat ∧ (s.now - at_).toNat < 2 ^ 63

/-- The command `i` of a cell with mask level `mdi` enters its unit's queue, with its values captured, and the A-seq goes on
(08 R182, 09 R204). -/
def Enters (o : Host.Outcome State Fault Refusal) (s : State) (key : Nat) (c : Cell) (i : Instr) (u : EngineUnit) (mdi : Nat) : Prop :=
  ∃ x : Cmd, o = .next (s.setCell key { c with
      cmds := c.cmds ++ [x], nextCmd := c.nextCmd + 1, asElastic := false, mdi, a := c.a.retire i.size }) ∧
    x.id = c.nextCmd ∧ x.instr = i ∧ x.vals = i.captured.map c.a.reg ∧ x.queue = u.queue ∧ x.state = .queued ∧ x.prog = 0 ∧
    x.failed = none ∧ x.claims = [] ∧ x.maskLevel = c.mdi ∧ x.elastic = !(i.stampMode == 1 && !c.asElastic) ∧
    x.startAt = (if i.stampMode = 0 then none else some (s.gangBase key + stampValue i (i.captured.map c.a.reg)))

/-- What the issue of an engine command without a fault does: it enters its queue, waits while 16 commands of the queue wait, or
takes time fault 0x02 when its stamp has passed (08 R182, 16 R317). -/
def IssuesOrWaits (s : State) (key : Nat) (c : Cell) (i : Instr) (u : EngineUnit) (mdi : Nat) : Prop :=
  (¬StampPassed s key c i → c.queued u.queue < 16 → Enters (exec i s) s key c i u mdi) ∧
  (¬StampPassed s key c i → 16 ≤ c.queued u.queue → exec i s = .next s) ∧
  (StampPassed s key c i → exec i s = .next ((s.setCell key { c with asElastic := true }).raiseTrap (.aseq key) 0x0F 0x02 .replayable
    s.now (stampValue i (i.captured.map c.a.reg))))

/-! ## What a step leaves alone -/

/-- Every byte of memory outside the `n` bytes at `a` reads as before. -/
def SameOutside (s t : State) (a n : Nat) : Prop := ∀ b, b < a ∨ a + n ≤ b → readByte t.mem b = readByte s.mem b

/-- Every byte of memory reads as before. -/
def SameMemory (s t : State) : Prop := ∀ b, readByte t.mem b = readByte s.mem b

/-! ## Memory -/

/-- Memory is in its canonical form: addresses strictly rising, and no entry that reads as an unlisted byte does. -/
def State.Canonical (s : State) : Prop := memoryWf s.mem = true

/-! ## Integer forms of the A-seq, in integers (05 Tables 5-3 to 5-10) -/

/-- A form S[D] := Op(S[A], S[B]): the numbers of D, A and B, the bytes of the word, and Op. -/
structure AluForm where
  d : BitVec 5
  a : BitVec 5
  b : BitVec 5
  size : Nat
  op : Word → Word → Word

/-- Op of the three-register forms, on the integers that the operands stand for. -/
def aluForm : Instr → Option AluForm
  | .add d a b sh => some ⟨d, a, b, 4, fun x y => BitVec.ofNat 64 (x.toNat + y.toNat * 2 ^ sh.toNat)⟩
  | .sub d a b => some ⟨d, a, b, 4, fun x y => BitVec.ofInt 64 (x.toInt - y.toInt)⟩
  | .and d a b => some ⟨d, a, b, 4, fun x y => BitVec.ofNat 64 (Nat.land x.toNat y.toNat)⟩
  | .or d a b => some ⟨d, a, b, 4, fun x y => BitVec.ofNat 64 (Nat.lor x.toNat y.toNat)⟩
  | .xor d a b => some ⟨d, a, b, 4, fun x y => BitVec.ofNat 64 (Nat.xor x.toNat y.toNat)⟩
  | .andn d a b => some ⟨d, a, b, 4, fun x y => BitVec.ofNat 64 (Nat.land x.toNat (2 ^ 64 - 1 - y.toNat))⟩
  | .shl d a b => some ⟨d, a, b, 4, fun x y => BitVec.ofNat 64 (x.toNat * 2 ^ (y.toNat % 64))⟩
  | .shr d a b => some ⟨d, a, b, 4, fun x y => BitVec.ofNat 64 (x.toNat / 2 ^ (y.toNat % 64))⟩
  | .sra d a b => some ⟨d, a, b, 4, fun x y => BitVec.ofInt 64 (x.toInt / 2 ^ (y.toNat % 64))⟩
  | .slt d a b => some ⟨d, a, b, 4, fun x y => if x.toInt < y.toInt then 1 else 0⟩
  | .sltu d a b => some ⟨d, a, b, 4, fun x y => if x.toNat < y.toNat then 1 else 0⟩
  | .min d a b => some ⟨d, a, b, 4, fun x y => BitVec.ofInt 64 (min x.toInt y.toInt)⟩
  | .max d a b => some ⟨d, a, b, 4, fun x y => BitVec.ofInt 64 (max x.toInt y.toInt)⟩
  | .minu d a b => some ⟨d, a, b, 4, fun x y => BitVec.ofNat 64 (min x.toNat y.toNat)⟩
  | .maxu d a b => some ⟨d, a, b, 4, fun x y => BitVec.ofNat 64 (max x.toNat y.toNat)⟩
  | .mul d a b => some ⟨d, a, b, 4, fun x y => BitVec.ofNat 64 (x.toNat * y.toNat)⟩
  | .mulh d a b => some ⟨d, a, b, 4, fun x y => BitVec.ofInt 64 (x.toInt * y.toInt / 2 ^ 64)⟩
  | .mulhu d a b => some ⟨d, a, b, 4, fun x y => BitVec.ofNat 64 (x.toNat * y.toNat / 2 ^ 64)⟩
  | .addShort d a => some ⟨d, d, a, 2, fun x y => BitVec.ofNat 64 (x.toNat + y.toNat)⟩
  | .subShort d a => some ⟨d, d, a, 2, fun x y => BitVec.ofInt 64 (x.toInt - y.toInt)⟩
  | .movShort d a => some ⟨d, a, a, 2, fun x _ => x⟩
  | _ => none

/-- A form S[D] := Op(S[A]) with an immediate operand, or, of the wide forms, on the program counter and S[D]. -/
structure ImmForm where
  d : BitVec 5
  a : BitVec 5
  size : Nat
  op : Word → Word → Word

/-- Op of the immediate forms, of the program counter and S[A]; the sign-extended immediate is an integer. -/
def immForm : Instr → Option ImmForm
  | .addi d a imm => some ⟨d, a, 4, fun _ x => BitVec.ofInt 64 (x.toInt + imm.toInt)⟩
  | .andi d a imm => some ⟨d, a, 4, fun _ x => x &&& BitVec.ofInt 64 imm.toInt⟩
  | .ori d a imm => some ⟨d, a, 4, fun _ x => x ||| BitVec.ofInt 64 imm.toInt⟩
  | .xori d a imm => some ⟨d, a, 4, fun _ x => x ^^^ BitVec.ofInt 64 imm.toInt⟩
  | .shli d a imm => some ⟨d, a, 4, fun _ x => BitVec.ofNat 64 (x.toNat * 2 ^ (imm.toNat % 64))⟩
  | .shri d a imm => some ⟨d, a, 4, fun _ x => BitVec.ofNat 64 (x.toNat / 2 ^ (imm.toNat % 64))⟩
  | .srai d a imm => some ⟨d, a, 4, fun _ x => BitVec.ofInt 64 (x.toInt / 2 ^ (imm.toNat % 64))⟩
  | .slti d a imm => some ⟨d, a, 4, fun _ x => if x.toInt < imm.toInt then 1 else 0⟩
  | .sltiu d a imm => some ⟨d, a, 4, fun _ x => if x.toNat < (BitVec.ofInt 64 imm.toInt).toNat then 1 else 0⟩
  | .mini d a imm => some ⟨d, a, 4, fun _ x => BitVec.ofInt 64 (min x.toInt imm.toInt)⟩
  | .maxi d a imm => some ⟨d, a, 4, fun _ x => BitVec.ofInt 64 (max x.toInt imm.toInt)⟩
  | .seqi d a imm => some ⟨d, a, 4, fun _ x => if x.toInt = imm.toInt then 1 else 0⟩
  | .addiShort d imm => some ⟨d, d, 2, fun _ x => BitVec.ofInt 64 (x.toInt + imm.toInt)⟩
  | .li d imm => some ⟨d, d, 4, fun _ _ => BitVec.ofInt 64 imm.toInt⟩
  | .lsh d imm => some ⟨d, d, 4, fun _ x => BitVec.ofNat 64 (x.toNat * 2 ^ 16 + imm.toNat % 2 ^ 16)⟩
  | .lown d imm => some ⟨d, d, 4, fun _ _ => BitVec.ofNat 64 (0x3000000000000000 + imm.toNat * 64)⟩
  | .lpc d imm => some ⟨d, d, 4, fun pc _ => BitVec.ofInt 64 (pc.toNat + imm.toInt * 2)⟩
  | _ => none

/-- Division as 05 R105 gives it: quotient and remainder of integers, with the two cases that it fixes. -/
structure DivForm where
  d : BitVec 5
  a : BitVec 5
  b : BitVec 5
  /-- The operands are signed; the result is the remainder. -/
  signed : Bool
  rem : Bool

def divForm : Instr → Option DivForm
  | .div d a b => some ⟨d, a, b, true, false⟩
  | .rem d a b => some ⟨d, a, b, true, true⟩
  | .divu d a b => some ⟨d, a, b, false, false⟩
  | .remu d a b => some ⟨d, a, b, false, true⟩
  | _ => none

/-- The destination of the forms of the A-seq that change a register and the position alone. -/
def integerDest (i : Instr) : Option (BitVec 5) :=
  match i with
  | .clz d _ _ => some d
  | .ffs d _ _ => some d
  | .popc d _ _ => some d
  | .padd d _ _ _ => some d
  | .psub d _ _ _ => some d
  | .bfx d _ _ _ => some d
  | .madd d _ _ => some d
  | i => ((aluForm i).map (·.d)).orElse (fun _ => ((immForm i).map (·.d)).orElse (fun _ => (divForm i).map (·.d)))

end Sys2Proof.Machine
end

