-- ==== Sys2Proof/Certificates/Slice0/Obligations.lean ====
section
/-! DEFINITION. The statements for the provers. -/

section

open Sys2Proof Sys2Proof.Machine

/-! ## Encoding -/

/-- Decoding what the encoder writes gives the instruction back, with every operand at every value that its encoding admits,
and leaves the parcels that follow (03 R43 to R58). -/
def Obligations.DecodeOfEncode : Prop :=
  ∀ (i : Instr) (rest : List Parcel), i.isWord = true → i.wellFormed = true → decode (encode i ++ rest) = .ok (i, rest)

/-- Every word that the decoder accepts is the one that the encoder writes: no two words mean one instruction, and no bit is
ignored (03 R47). -/
def Obligations.EncodeOfDecode : Prop :=
  ∀ (ps rest : List Parcel) (i : Instr), decode ps = .ok (i, rest) → ps = encode i ++ rest ∧ i.wellFormed = true ∧ i.isWord = true

/-- Words that the manual's examples write out. A word with a 32-bit form whose major is 0x1E, or whose major is that of an
argument word, is rejected whatever its other bits (03 Table 3-2, R51). -/
def Obligations.SpecWordsDecode : Prop :=
  (decode [0xE918, 0x8000, 0xFC53, 0x1C00] =
       .ok (.lopen { ce := true, cnt := 2, acq := false, rel := false, scope := 0, tag := false } 0 0 5 6 7, []) ∧
   decode [0xE928, 0x4000, 0xFC02, 0x2000] =
       .ok (.lord { ce := true, cnt := 1, acq := false, rel := false, scope := 0, tag := false } 0 4 8, [])) ∧
  (∀ (p q : Parcel) (rest : List Parcel), p.getLsbD 15 = true →
     (p.extractLsb' 10 5 = 0x1E → decode (p :: q :: rest) = .error .unassignedMajor) ∧
     (p.extractLsb' 10 5 = 0x1F → decode (p :: q :: rest) = .error .strayArgument))

/-! ## Steps, reset, invariants -/

/-- A step whose turn is a sequencer's runs the instruction that the bytes at its program counter decode to, or the
instruction that tret issues in their place; an input or event that waits comes first, and when every turn has been taken the
next package cycle begins (03 R43, R69; 04 R85; 18 R361; the order of events and turns is the model's, log 3). -/
def Obligations.StepRunsTheDecodedWord : Prop :=
  (∀ (s : State) (ag : Agent) (n : Nat) (p : Pos) (x : Bool), s.agenda = [] → s.pickEvent = none →
    nextTurn s s.cursor s.turns = some (.word ag, n) →
    (((∀ k, ag ≠ .xseq k) ∧ x = false ∧ ∃ q, s.aseq? ag = some q ∧ p = q.pos ∧ q.busy = 0) ∨
      (∃ k c, ag = .xseq k ∧ x = true ∧ s.cell? k = some c ∧ p = c.x.pos ∧ c.x.frozen = [] ∧ c.x.pos.exited = false ∧
        c.x.idle = 0)) →
    let t := { s with focus := ag, cursor := n }
    (∀ e, p.emu = some e → step s = exec e.instr (t.fetched e.instr)) ∧
    (∀ i, p.emu = none → p.buffered = some i → step s = exec i (t.fetched i)) ∧
    (∀ (e : PageEntry) (i : Instr) (rest : List Parcel), p.emu = none → p.buffered = none →
      let pc := p.pc.toNat
      pc < 2 ^ 48 → pc % 2 = 0 → (∀ c ∈ (s.part (s.agentPart ag)).scans, ¬(c.base ≤ pc ∧ pc < c.base + c.size)) →
      s.lookup ag (decide (s.agentPriv ag = .user)) pc .fetch = some e →
      xlatCode (some e) (decide (s.agentPriv ag = .user)) .fetch = 0 → e.mtype ≠ 2 →
      s.cannotCross (s.agentSlot ag) (hbmSlot (e.pa pc)) = false → e.leaf.getLsbD 55 = x →
      wordStart s.mem (e.pa e.base) (pc - e.base) ((pc - e.base) / 2 + 1) 0 = true →
      decode (bytesToParcels (readBytes s.mem (e.pa pc) (min 12 (e.size - (pc - e.base))))) = .ok (i, rest) →
      s.poisoned (e.pa pc) 2 = false →
      s.poisoned (e.pa pc) (min (fetchLen (readLE s.mem (e.pa pc) 2)) (e.size - (pc - e.base))) = false →
      step s = exec i (t.fetched i))) ∧
  (∀ (s : State) (ag : Agent) (n : Nat) (q : ASeq), s.agenda = [] → s.pickEvent = none →
    nextTurn s s.cursor s.turns = some (.word ag, n) → (∀ k, ag ≠ .xseq k) → s.aseq? ag = some q → q.busy ≠ 0 →
    step s = .next (({ s with focus := ag, cursor := n }).setASeq ag { q with busy := q.busy - 1 })) ∧
  (∀ (s : State) (i : Instr) (rest : List Instr), s.agenda = i :: rest →
    (hsemPort i ≠ some true ∨ (∀ j ∈ rest, hsemPort j ≠ some false) → step s = exec i { s with agenda := rest }) ∧
    (∀ j, hsemPort i = some true → rest.find? (fun j => hsemPort j == some false) = some j →
      step s = exec j { s with agenda := i :: rest.erase j })) ∧
  (∀ (s : State) (i : Instr), s.agenda = [] → s.pickEvent = some i → step s = exec i s) ∧
  (∀ (s : State) (i : Instr) (n : Nat), s.agenda = [] → s.pickEvent = none → nextTurn s s.cursor s.turns = some (.event i, n) →
    step s = exec i { s with cursor := n }) ∧
  (∀ (s : State), s.agenda = [] → s.pickEvent = none → nextTurn s s.cursor s.turns = none →
    step s = .next s.tick ∧ s.tick.now = s.now + 1 ∧ s.tick.cursor = 0)

/-- What package reset leaves: no die active, no unit available, nothing ready, the counter of cycles at 0, the registers at
the values that their tables give, no gang and no launch, and memory in its canonical form. PKGSTAT, the links and the queues
have the values of log 6, and no core runs by log 7: the tables give them none. -/
def Obligations.ResetLeaves : Prop :=
  let r := State.reset
  r.now = 0 ∧ (∀ k, k < 32 → r.mix k = 0x00001F30 ∧ r.avail k = 0) ∧ r.mixgen = 0 ∧ r.rdymap0 = 0 ∧ r.rdymap1 = 0 ∧ r.pkgstat = 0 ∧
    r.hsem.read = 0 ∧ (∀ k (h : k < 8), r.mr[k] = 0) ∧ r.cethr = 0x80000040 ∧ (∀ n, r.wq n = 0) ∧ r.lnkst = [] ∧
    (∀ p, p < 8 → (r.part p).formed = false ∧ (r.part p).dremap = 0x000000FFFFFFFFFF ∧ (r.part p).cktol = 0x10 ∧
      (r.part p).tqcfg = 0 ∧ (r.part p).tqhead = 0 ∧ (r.part p).tqtail = 0 ∧ (r.part p).pfatal = 0 ∧
      (r.part p).plimit = 0xFFFFFFFF000B0000 ∧ (r.part p).wpol = 0 ∧ (r.part p).wqtab = 0 ∧ (r.part p).mirst = 0x28000000) ∧
    r.gangs = [] ∧ r.cells = [] ∧ r.launches = [] ∧ r.records = [] ∧ r.roCache = [] ∧ r.dieTlb = [] ∧
    (∀ k, k < 16 → (r.core k).a.pos.exited = false ∧ (r.core k).running = false) ∧ r.Canonical

/-- Every step keeps memory in its canonical form: addresses strictly rising, and no entry that reads as an unlisted byte
does. -/
def Obligations.StepKeepsMemoryCanonical : Prop :=
  ∀ (s t : State), s.Canonical → step s = .next t → t.Canonical

/-! ## Integer forms -/

/-- A read of a register after a write of one: s0 reads 0 and ignores writes (05 Table 5-1, R91). The three-register forms
complete with the integer result of 05 Tables 5-3, 5-4 and 5-10 in S[D]. The immediate and wide forms complete with the
integer result of 05 R98 and R99 in S[D]. mov copies a register of the class that M selects; on a control core class 4 takes
the unit-absent fault (05 R97). The bit counters write into each element of S[D] the count of the element of S[A] with the
same index (05 R100, R101). bfx extracts a field that bits above bit 63 extend with zeros; madd adds a product to S[D] (05
R103, R104). -/
def Obligations.IntegerFormsCompute : Prop :=
  (∀ (a : ASeq) (d r : BitVec 5) (v : Word),
     (a.setReg d v).reg r = (if r = 0 then 0 else if r = d then v else a.reg r) ∧ (a.setReg d v).mb = a.mb ∧
       (a.setReg d v).pos = a.pos ∧ (a.setReg d v).out = a.out) ∧
  (∀ (i : Instr) (f : AluForm) (s : State) (ag : Agent) (q : ASeq), aluForm i = some f → Issues s ag q [f.d, f.a, f.b] →
     exec i s = .next (s.setASeq ag ((q.setReg f.d (f.op (q.reg f.a) (q.reg f.b))).retire f.size))) ∧
  (∀ (i : Instr) (f : ImmForm) (s : State) (ag : Agent) (q : ASeq), immForm i = some f → i.wellFormed = true →
     Issues s ag q [f.d, f.a] →
     exec i s = .next (s.setASeq ag ((q.setReg f.d (f.op q.pos.pc (q.reg f.a))).retire f.size))) ∧
  (∀ (d a : BitVec 5) (s : State) (ag : Agent) (q : ASeq), Issues s ag q [d, a] →
     exec (.mov d a 0) s = .next (s.setASeq ag ((q.setReg d (q.reg a)).retire 4)) ∧
     exec (.mov d a 1) s = .next (s.setASeq ag ((q.setReg d (q.pos.lx a.toNat)).retire 4)) ∧
     exec (.mov d a 2) s = .next (s.setASeq ag ((q.setReg d (q.pos.ln a.toNat)).retire 4)) ∧
     (∀ h : a.toNat < 16, exec (.mov d a 3) s = .next (s.setASeq ag ((q.setReg d (q.mb[a.toNat]'h)).retire 4))) ∧
     (∀ key c, ag = .aseq key → s.cell? key = some c → exec (.mov d a 4) s = .next (s.setASeq ag
       ((q.setReg d (BitVec.ofNat 64 ((if c.x.tcol then 1 else 0) + (if c.x.wcol then 2 else 0)))).retire 4))) ∧
     (∀ k, ag = .core k → exec (.mov d a 4) s = .next (s.raiseTrap ag 0x04 0 .fatal (BitVec.ofNat 64 0x2F) 0))) ∧
  (∀ (d a w : BitVec 5) (s : State) (ag : Agent) (q : ASeq), Issues s ag q [d, a] →
     let n := 8 * 2 ^ (w.toNat % 4)
     let el (v : Word) (e : Nat) : Nat := v.toNat / 2 ^ (n * e) % 2 ^ n
     let x := q.reg a
     (∃ v : Word, exec (.clz d a w) s = .next (s.setASeq ag ((q.setReg d v).retire 4)) ∧
       ∀ e, e < 64 / n → el v e ≤ n ∧ (∀ k, k < el v e → (el x e).testBit (n - 1 - k) = false) ∧
         (el v e < n → (el x e).testBit (n - 1 - el v e) = true)) ∧
     (∃ v : Word, exec (.ffs d a w) s = .next (s.setASeq ag ((q.setReg d v).retire 4)) ∧
       ∀ e, e < 64 / n → el v e ≤ n ∧ (∀ k, k < el v e → (el x e).testBit k = false) ∧
         (el v e < n → (el x e).testBit (el v e) = true)) ∧
     (∃ v : Word, exec (.popc d a w) s = .next (s.setASeq ag ((q.setReg d v).retire 4)) ∧
       ∀ e, e < 64 / n → el v e = (List.range n).countP (fun k => (el x e).testBit k))) ∧
  (∀ (d a b len1 : BitVec 5) (s : State) (ag : Agent) (q : ASeq), Issues s ag q [d, a, b] →
     (∃ v : Word, exec (.bfx d a b len1) s = .next (s.setASeq ag ((q.setReg d v).retire 4)) ∧
       ∀ k, k < 64 → v.getLsbD k =
         (decide (k ≤ len1.toNat) && decide ((q.reg b).toNat % 64 + k < 64) && (q.reg a).getLsbD ((q.reg b).toNat % 64 + k))) ∧
     exec (.madd d a b) s = .next (s.setASeq ag
       ((q.setReg d (BitVec.ofNat 64 ((q.reg d).toNat + (q.reg a).toNat * (q.reg b).toNat))).retire 4)))

/-- Division truncates toward zero, a remainder has the sign of the dividend, and the two operand cases of 05 R105 give the
values that it fixes. -/
def Obligations.DivisionFormsCompute : Prop :=
  ∀ (i : Instr) (f : DivForm) (s : State) (ag : Agent) (q : ASeq), divForm i = some f → Issues s ag q [f.d, f.a, f.b] →
    ∃ v : Word, exec i s = .next (s.setASeq ag ((q.setReg f.d v).retire 4)) ∧
      (q.reg f.b = 0 → v = if f.rem then q.reg f.a else BitVec.ofNat 64 (2 ^ 64 - 1)) ∧
      (f.signed = true → q.reg f.a = BitVec.ofInt 64 (-2 ^ 63) → q.reg f.b = BitVec.ofInt 64 (-1) →
        v = if f.rem then 0 else BitVec.ofInt 64 (-2 ^ 63)) ∧
      (let x : Int := if f.signed then (q.reg f.a).toInt else (q.reg f.a).toNat
       let y : Int := if f.signed then (q.reg f.b).toInt else (q.reg f.b).toNat
       let r : Int := if f.signed then v.toInt else v.toNat
       y ≠ 0 → ¬(x = -2 ^ 63 ∧ y = -1) →
         if f.rem then (∃ m : Int, x = m * y + r) ∧ r.natAbs < y.natAbs ∧ (r = 0 ∨ (0 < r ↔ 0 < x))
         else ∃ m : Int, x = r * y + m ∧ m.natAbs < y.natAbs ∧ (m = 0 ∨ (0 < m ↔ 0 < x)))

/-- The packed sums and differences wrap or saturate each element as SAT selects (05 R100, R102). -/
def Obligations.PackedSumsSaturate : Prop :=
  ∀ (i : Instr) (d a b m : BitVec 5) (s : State) (ag : Agent) (q : ASeq), i = .padd d a b m ∨ i = .psub d a b m →
    i.wellFormed = true → Issues s ag q [d, a, b] →
    let n := 8 * 2 ^ (m.toNat % 4)
    let el (v : Word) (e : Nat) : Nat := v.toNat / 2 ^ (n * e) % 2 ^ n
    let sg (x : Nat) : Int := if x < 2 ^ (n - 1) then x else (x : Int) - 2 ^ n
    let op (x y : Int) : Int := if i = .padd d a b m then x + y else x - y
    ∃ v : Word, exec i s = .next (s.setASeq ag ((q.setReg d v).retire 4)) ∧
      ∀ e, e < 64 / n →
        let x := el (q.reg a) e
        let y := el (q.reg b) e
        (m.toNat / 4 = 0 → (el v e : Int) = op x y % 2 ^ n) ∧
        (m.toNat / 4 = 1 → sg (el v e) = max (-2 ^ (n - 1)) (min (2 ^ (n - 1) - 1) (op (sg x) (sg y)))) ∧
        (m.toNat / 4 = 2 → (el v e : Int) = max 0 (min (2 ^ n - 1) (op x y)))

/-- The frame of the integer forms, whatever comes of them: at most S[D] and the position of the issuer change. -/
def Obligations.IntegerFormsFrame : Prop :=
  ∀ (i : Instr) (d : BitVec 5) (s t : State), integerDest i = some d → exec i s = .next t →
    t = s ∨ ∃ (q : ASeq) (v : Word), s.aseq? s.focus = some q ∧ t = s.setASeq s.focus ((q.setReg d v).retire i.size) ∧
      (∀ r, r ≠ d → ((q.setReg d v).retire i.size).reg r = q.reg r) ∧ ((q.setReg d v).retire i.size).mb = q.mb ∧
      ((q.setReg d v).retire i.size).out = q.out ∧ SameMemory s t

/-! ## Positions and control transfers -/

/-- End handling (04 R75): the top level repeats or is popped when it ends on Q, and a lower level is compared only once every
level above it has been popped. Transfer (04 R79): exactly the levels above the first that holds the target are popped. A
block header of either kind of sequencer (04 R73, R74): a zero count skips the body, one cycle for every 16 parcels of it (04
Table 4-3), a count pushes a level while fewer than six are active, and the seventh level takes the loop-stack overflow fault
with the position unchanged; the body ends where its last word stands, as the loop buffer has it of a header that it gives (03
R57; the ends kept with a buffered header are log 10). A word of the body of the innermost active block passes into the loop
buffer in its first pass, if the body has at most 256 words, and later passes take it from there; a header passes with the
ends of its body, and a pushed block finds the buffer empty (03 R57; when words enter and leave it is the model's choice, log
10). -/
def Obligations.LoopLevels : Prop :=
  (∀ (p : Pos) (q n : Word),
     ((∀ l rest, p.levels = l :: rest → l.stop ≠ q) →
       (p.endHandling q n).levels = p.levels ∧ (p.endHandling q n).pc = n) ∧
     (∀ l rest, p.levels = l :: rest → l.stop = q → l.ln ≠ 1 →
       (p.endHandling q n).levels = { l with ln := l.ln - 1, lx := l.lx + 1 } :: rest ∧ (p.endHandling q n).pc = l.start) ∧
     (∀ l rest, p.levels = l :: rest → l.stop = q → l.ln = 1 →
       (p.endHandling q n).levels = (Pos.endHandling { p with levels := rest } q n).levels ∧
       (p.endHandling q n).pc = (Pos.endHandling { p with levels := rest } q n).pc) ∧
     (p.endHandling q n).exited = p.exited) ∧
  (∀ (p : Pos) (t : Word), ∃ k, (p.transfer t).levels = p.levels.drop k ∧ (p.transfer t).pc = t ∧
     (∀ l ∈ p.levels.take k, ¬(l.start.toNat ≤ t.toNat ∧ t.toNat ≤ l.stop.toNat)) ∧
     (∀ l rest, (p.transfer t).levels = l :: rest → l.start.toNat ≤ t.toNat ∧ t.toNat ≤ l.stop.toNat)) ∧
  (∀ (i : Instr) (l : BitVec 12) (cnt : ASeq → Word) (use : List (BitVec 5)) (s : State) (ag : Agent) (q : ASeq),
     ((∃ n, i = .blkImmediate n l ∧ use = [] ∧ cnt = fun _ => n.setWidth 64) ∨
       (∃ sel, i = .blkRegister sel l ∧ sel.toNat < 32 ∧ use = [sel.setWidth 5] ∧ cnt = fun a => a.reg (sel.setWidth 5)) ∨
       (∃ sel, ∃ h : sel.toNat - 32 < 16, i = .blkRegister sel l ∧ 32 ≤ sel.toNat ∧ use = [] ∧
         cnt = fun a => a.mb[sel.toNat - 32]'h)) →
     (∀ (p : Pos), (p.emu = none → p.buffered = none → s.headerEnds ag p l.toNat = s.bodyEnds ag (p.pc + 4) l.toNat) ∧
       (∀ w, p.emu = none → p.buffered.isSome = true → p.bufEnds.find? (fun w => w.1 = p.pc) = some (p.pc, w) →
         s.headerEnds ag p l.toNat = w)) ∧
     (Issues s ag q use →
     let b := q.pos.pc + 4
     let e := s.headerEnds ag q.pos l.toNat
     (cnt q = 0 → exec i s = .next (s.setASeq ag { q with busy := ceilDiv ((e.2 - b).toNat / 2) 16, pos := {
       q.pos.endHandling e.1 e.2 with boundary := true } })) ∧
     (cnt q ≠ 0 → q.pos.levels.length < 6 → exec i s = .next (s.setASeq ag { q with busy := 0, pos := { q.pos with
       levels := { start := b, stop := e.1, ln := cnt q, lx := 0 } :: q.pos.levels, pc := b, boundary := false, emu := none, buf := [] } })) ∧
     (cnt q ≠ 0 → 6 ≤ q.pos.levels.length → exec i s = .next (s.raiseTrap ag 0x05 0 .fatal 0 0))) ∧
     (∀ (key : Nat) (c : Cell), XIssues s key c [] [] →
       let b := c.x.pos.pc + 4
       let e := s.headerEnds (.xseq key) c.x.pos l.toNat
       let n := cnt c.a
       let skip := ceilDiv ((e.2 - b).toNat / 2) 16
       let done (d : Cell) (p : Pos) : Host.Outcome State Fault Refusal :=
         .next ((s.setCell key d).setCell key { d with x := { d.x with pos := p } })
       (n = 0 → exec i s = done (c.xIssued [] (1 + skip)) { c.x.pos.endHandling e.1 e.2 with boundary := true }) ∧
       (n ≠ 0 → c.x.pos.levels.length < 6 → exec i s = done (c.xIssued [] 1) { c.x.pos with
         levels := { start := b, stop := e.1, ln := n, lx := 0 } :: c.x.pos.levels, pc := b, boundary := false, emu := none, buf := [] }) ∧
       (n ≠ 0 → 6 ≤ c.x.pos.levels.length →
         exec i s = .next ((s.setCell key (c.xIssued [] 1)).raiseTrap (.xseq key) 0x05 0 .fatal 0 0)))) ∧
  ((∀ (p : Pos) (i : Instr) (l : Level) (rest : List Level), p.levels = l :: rest → l.holds p.pc = true →
     (∀ j, (p.pc, j) ∈ p.buf → p.bufDepth = p.levels.length → j = i) →
     let q := p.keepWord i
     q.buf.find? (fun w => w.1 = p.pc) = some (p.pc, i) ∧ q.bufDepth = p.levels.length ∧ q.pc = p.pc ∧ q.levels = p.levels ∧
       (l.lx ≠ 0 → q.buffered = some i)) ∧
   (∀ (s : State) (ag : Agent) (p : Pos) (i : Instr) (l : Level) (rest : List Level) (e : PageEntry),
     p.emu = none → p.buffered = none → p.levels = l :: rest →
     s.lookup ag (decide (s.agentPriv ag = .user)) p.pc.toNat .fetch = some e →
     (s.keepFetched ag p i).2 = (if l.holds p.pc = true ∧ bodyFits s.mem (e.pa l.start.toNat) l = true then s.keepEnds ag i (p.keepWord i) else p) ∧
     (s.keepEnds ag i p).buf = p.buf ∧ (s.keepEnds ag i p).pc = p.pc ∧ (s.keepEnds ag i p).levels = p.levels ∧
     (∀ n len, i = .blkImmediate n len → (s.keepEnds ag i p).bufEnds.find? (fun w => w.1 = p.pc) =
       some (p.pc, s.bodyEnds ag (p.pc + 4) len.toNat)) ∧
     (∀ sel len, i = .blkRegister sel len → (s.keepEnds ag i p).bufEnds.find? (fun w => w.1 = p.pc) =
       some (p.pc, s.bodyEnds ag (p.pc + 4) len.toNat)) ∧
     (s.keepFetched ag p i).1.mem = s.mem))

/-- Branches (04 R81): the conditions, the targets, and end handling when a branch is not taken; a taken br takes one cycle
more and a taken bz or bnz two (04 R88). Calls and returns (04 R79, R82): a call keeps the loop stack and writes s31 after it
has read its target; a return is a transfer. A call takes one cycle more, callr and ret three (04 R88). Branch-outcome queues
(04 R83, R84): pushes at the tail of BQAX, pops at the head of the sequencer's incoming queue, the entry consumed whether or
not the branch is taken; a full or an empty queue stalls the A-seq where it stands (R87), and an empty one freezes the X-seq
(05 R109). An entry can be popped two of its cell's own cycles after it was pushed (R84; 00 R5). exit, nop, halt and brk, on
each kind of sequencer that may issue them (03 R54; 04 R75, R85, R86; 18 R362; that end handling precedes the dropping of the
levels at an exit is log 23). -/
def Obligations.ControlForms : Prop :=
  (∀ (s : State) (ag : Agent) (q : ASeq) (a : BitVec 5),
     let at_ (k : Int) : Word := BitVec.ofInt 64 (q.pos.pc.toNat + 2 * k)
     let go (r : ASeq) (k : Int) : Host.Outcome State Fault Refusal := .next (s.setASeq ag { r with pos := r.pos.transfer (at_ k) })
     (Issues s ag q [] → (∀ off, exec (.br off) s = go { q with busy := 1 } off.toInt) ∧
       (∀ off, exec (.brShort off) s = go { q with busy := 1 } off.toInt)) ∧
     (Issues s ag q [a] →
       (∀ off, exec (.bz a off) s = if q.reg a = 0 then go { q with busy := 2 } off.toInt else .next (s.setASeq ag (q.retire 4))) ∧
       (∀ off, exec (.bnz a off) s = if q.reg a ≠ 0 then go { q with busy := 2 } off.toInt else .next (s.setASeq ag (q.retire 4))) ∧
       (let r := q.setReg a (BitVec.ofInt 64 ((q.reg a).toInt - 1))
        (∀ off, exec (.dcbnz a off) s = if r.reg a ≠ 0 then go r off.toInt else .next (s.setASeq ag (r.retire 4))) ∧
        (∀ off1, exec (.dcbnzShort a off1) s =
           if r.reg a ≠ 0 then go r (-(off1.toNat + 1)) else .next (s.setASeq ag (r.retire 2)))))) ∧
  (∀ (s : State) (ag : Agent) (q : ASeq) (a : BitVec 5), q.pos.emu = none →
     let onward (n : Nat) (t : Word) : Host.Outcome State Fault Refusal := .next (s.setASeq ag
       { q.setReg 31 (q.pos.pc + 4) with pos := { q.pos with pc := t, boundary := false }, busy := n })
     (Issues s ag q [31] → ∀ off, exec (.call off) s = onward 1 (BitVec.ofInt 64 (q.pos.pc.toNat + 2 * off.toInt))) ∧
     (Issues s ag q [31, a] → exec (.callr a) s = onward 3 (q.reg a)) ∧
     (Issues s ag q [a] → exec (.ret a) s = .next (s.setASeq ag { q with pos := q.pos.transfer (q.reg a), busy := 3 })) ∧
     (Issues s ag q [31] → exec .retShort s = .next (s.setASeq ag { q with pos := q.pos.transfer (q.reg 31), busy := 3 }))) ∧
  (∀ (s : State) (key : Nat) (c : Cell),
     (∀ a, CellIssues s key c [a] →
       (c.bqax.length < 8 → exec (.bqpush a) s = .next (s.setCell key { c with
         bqax := c.bqax ++ [{ bit := c.a.reg a != 0, pushed := s.now, visible := false }], a := c.a.retire 4 })) ∧
       (8 ≤ c.bqax.length → exec (.bqpush a) s = .next (s.setCell key { c with stalled := some 8 }))) ∧
     (∀ (off : BitVec 17) (off10 : BitVec 10) (i : Instr), CellIssues s key c [] → c.bqxa = [] →
       i = .bqt off ∨ i = .bqf off ∨ i = .bqtShort off10 → exec i s = .next (s.setCell key { c with stalled := some 9 })) ∧
     (∀ (e : BqEntry) (rest : List BqEntry) (off : BitVec 17) (off10 : BitVec 10), CellIssues s key c [] → c.bqxa = e :: rest →
       e.visible = true →
       let t (k : Int) : Word := BitVec.ofInt 64 (c.a.pos.pc.toNat + 2 * k)
       let done (p : Pos) : Host.Outcome State Fault Refusal :=
         .next (s.setCell key { c with bqxa := rest, a := { c.a with pos := p, busy := 1 } })
       exec (.bqt off) s = done (if e.bit then c.a.pos.transfer (t off.toInt) else c.a.pos.retire 4) ∧
       exec (.bqf off) s = done (if e.bit then c.a.pos.retire 4 else c.a.pos.transfer (t off.toInt)) ∧
       exec (.bqtShort off10) s = done (if e.bit then c.a.pos.transfer (t off10.toInt) else c.a.pos.retire 2)) ∧
     (∀ (e : BqEntry) (rest : List BqEntry) (off : BitVec 17), XIssues s key c [] [(8, 1)] → c.bqax = e :: rest →
       let t : Word := BitVec.ofInt 64 (c.x.pos.pc.toNat + 2 * off.toInt)
       let d := c.xIssued [] 2
       let done (p : Pos) : Host.Outcome State Fault Refusal :=
         .next ((s.setCell key d).setCell key { d with bqax := rest, x := { d.x with pos := p } })
       exec (.bqt off) s = done (if e.bit then c.x.pos.transfer t else c.x.pos.retire 4) ∧
       exec (.bqf off) s = done (if e.bit then c.x.pos.retire 4 else c.x.pos.transfer t)) ∧
     (∀ (e : BqEntry) (rest : List BqEntry) (off10 : BitVec 10), XIssues s key c [] [(8, 1)] → c.bqax = e :: rest →
       let t : Word := BitVec.ofInt 64 (c.x.pos.pc.toNat + 2 * off10.toInt)
       let d := c.xIssued [] 2
       exec (.bqtShort off10) s = .next ((s.setCell key d).setCell key { d with bqax := rest, x := { d.x with
         pos := if e.bit then c.x.pos.transfer t else c.x.pos.retire 2 } })) ∧
     (∀ (off : BitVec 17) (off10 : BitVec 10) (i : Instr), s.focus = .xseq key → s.issuing (.xseq key) = true →
       s.cell? key = some c → c.bqax = [] → i = .bqt off ∨ i = .bqf off ∨ i = .bqtShort off10 →
       exec i s = .next (s.setCell key { c with x := { c.x with frozen := moveNeeds c.x.moves ++ [(8, 1)] } })) ∧
     (s.cell? key = some c → c.bqDue (s.ownAge c) = true → ∃ t d, exec (.bqEntryVisible key) s = .next t ∧ t.cell? key = some d ∧
       d.bqax.map (·.bit) = c.bqax.map (·.bit) ∧ d.bqxa.map (·.bit) = c.bqxa.map (·.bit) ∧
       (∀ e ∈ d.bqax ++ d.bqxa, 2 ≤ s.ownAge c e.pushed → e.visible = true) ∧
       (∀ e ∈ d.bqax ++ d.bqxa, s.ownAge c e.pushed < 2 → ∃ o ∈ c.bqax ++ c.bqxa, o = e)) ∧
     (∀ t : Word, (s.unitLife c.unitOf).wstate = 0 → s.ownAge c t = min 8 (s.now - t).toNat)) ∧
  (∀ (s : State) (ag : Agent) (q : ASeq) (key : Nat) (c : Cell) (code : BitVec 17) (code10 : BitVec 10),
     let ended (p : Pos) (n : Nat) : Pos := { p.retire n with levels := [], exited := true, boundary := false, emu := none }
     (Issues s ag q [] →
       ((∀ k, ag ≠ .core k) → exec .exit s = .next (s.setASeq ag { q with pos := ended q.pos 4 }) ∧
         exec .exitShort s = .next (s.setASeq ag { q with pos := ended q.pos 2 })) ∧
       (∀ k, ag = .core k →
         exec .exit s = .next ((s.setASeq ag { q with pos := ended q.pos 4 }).endProgram k 0 0) ∧
         exec .exitShort s = .next ((s.setASeq ag { q with pos := ended q.pos 2 }).endProgram k 0 0)) ∧
       exec .nop s = .next (s.setASeq ag (q.retire 2)) ∧
       exec (.halt code) s = .next (s.raiseTrap ag 0x06 0 .fatal (code.setWidth 64) 0) ∧
       exec (.brk code10) s = .next (s.raiseTrap ag 0x11 0 .replayable (code10.setWidth 64) 0)) ∧
     (XIssues s key c [] [] →
       let d := c.xIssued [] 1
       exec .exitShort s = .next ((s.setCell key d).setCell key { d with x := { d.x with pos := ended c.x.pos 2 } }) ∧
       exec .nop s = .next ((s.setCell key d).setCell key { d with x := { d.x with pos := c.x.pos.retire 2 } }) ∧
       exec (.brk code10) s = .next (s.raiseTrap (.xseq key) 0x11 0 .replayable (code10.setWidth 64) 0)))

/-! ## The X-seq -/

/-- A move issues: it joins the pending moves with its delay, and the X-seq goes on to the next word (05 R106, R117). The
moves of a cycle read every source before any destination is written, so that two moves exchange two registers; of two moves
that write one register the later stays and WCOL is set; moves with a delay wait one cycle less (05 R107, R108). -/
def Obligations.MovesOfTheXseq : Prop :=
  (∀ (s : State) (key : Nat) (c : Cell) (i : Instr) (m : Move) (n : Nat),
     ((∃ t d src, i = .mvShort t d src ∧ n = 2 ∧
         m = { delay := t.toNat, dst := d, rm := 0, src := src, value := none, first := firstWord i }) ∨
       (∃ r t d src, i = .mv r t d src ∧ n = 4 ∧
         m = { delay := t.toNat, dst := d, rm := r, src := src, value := none, first := firstWord i }) ∨
       (∃ t d imm, i = .mvi t d imm ∧ n = 4 ∧
         m = { delay := t.toNat, dst := d, rm := 0, src := 24, value := some (BitVec.ofInt 64 imm.toInt), first := firstWord i })) →
     XIssues s key c [m] [] →
     exec i s = .next ((s.setCell key (c.xIssued [m] 1)).setCell key
       { c.xIssued [m] 1 with x := { (c.xIssued [m] 1).x with pos := c.x.pos.retire n } })) ∧
  (∀ (s : State) (key : Nat) (c : Cell), s.cell? key = some c → c.x.issued = true →
     ∃ t d, exec (.moveTransport key) s = .next t ∧ t.cell? key = some d ∧ d.x.issued = false ∧
       d.x.moves = (c.x.moves.filter (fun m => m.delay ≠ 0)).map (fun m => { m with delay := m.delay - 1 }) ∧
       d.a = c.a ∧ d.bqax = c.bqax ∧ t.mem = s.mem ∧
       (∀ (m n : Move) (a b : Nat) (ha : a < 16) (hb : b < 16), c.x.moves = [m, n] → m.delay = 0 → n.delay = 0 →
         m.value = none → n.value = none → m.src.toNat = a → n.src.toNat = b →
         (a ≠ b → m.dst.toNat = b → n.dst.toNat = a → d.x.g[b] = c.x.g[a] ∧ d.x.g[a] = c.x.g[b]) ∧
         (∀ e (he : e < 16), m.dst.toNat = e → n.dst.toNat = e → d.x.g[e] = c.x.g[b] ∧ d.x.wcol = true)))

/-- The operations whose latency has passed place their results in trigger order: each writes the latch of its class, so that
the last of a class stays; the values are those of the I, F and C columns (05 R110, Table 5-12; R113 to R115). A freeze whose
conditions have cleared ends (05 R109). -/
def Obligations.ColumnsComplete : Prop :=
  ∀ (s : State) (key : Nat) (c : Cell), s.cell? key = some c →
    (c.x.issued = false → (∃ op ∈ c.x.ops, op.left = 0) →
      ∃ t d, exec (.xseqOperationComplete key) s = .next t ∧ t.cell? key = some d ∧ t.mem = s.mem ∧ d.a = c.a ∧
        d.x.ops = c.x.ops.filter (fun x => x.left ≠ 0) ∧ d.x.g = c.x.g ∧ d.x.moves = c.x.moves ∧ d.x.pos = c.x.pos ∧
        (let cls (x : XOp) : Nat := if x.dst.toNat ≤ 0x1C then 0 else if x.dst.toNat ≤ 0x1F then 1 else if x.dst.toNat ≤ 0x3B then 2 else 3
         ∀ (op : XOp) (pre post : List XOp), c.x.ops.filter (fun x => x.left = 0) = pre ++ op :: post → (∀ x ∈ post, cls x ≠ cls op) →
          let n := op.t.toNat % 64
          let mode := Mode.ofCode op.rm.toNat 0
          let rd (f : Fmt) (x : Word) : FV := FV.ofBits f (x.toNat % 2 ^ f.width)
          let put (f : Fmt) (v : FV) : Word := BitVec.ofNat 64 (roundTo f mode false v).bits
          let cmp (code : Nat) (v : Bool) : Prop := op.dst.toNat = code → d.x.cf = v ∧ d.x.cR = (if v then 1 else 0)
          (op.dst = 0x11 → d.x.iR = op.o + op.t) ∧ (op.dst = 0x12 → d.x.iR = op.o - op.t) ∧
          (op.dst = 0x13 → d.x.iR = op.o &&& op.t) ∧ (op.dst = 0x14 → d.x.iR = op.o ||| op.t) ∧
          (op.dst = 0x15 → d.x.iR = op.o ^^^ op.t) ∧ (op.dst = 0x16 → d.x.iR = op.o <<< n) ∧
          (op.dst = 0x17 → d.x.iR = op.o >>> n) ∧ (op.dst = 0x18 → d.x.iR = BitVec.ofInt 64 (op.o.toInt / (2 ^ n : Nat))) ∧
          (op.dst = 0x19 → d.x.iR = if op.o.toInt < op.t.toInt then 1 else 0) ∧
          (op.dst = 0x1A → d.x.iR = if op.o.toNat < op.t.toNat then 1 else 0) ∧
          (op.dst = 0x1B → d.x.iR = if op.o.toInt ≤ op.t.toInt then op.o else op.t) ∧
          (op.dst = 0x1C → d.x.iR = if op.o.toInt ≤ op.t.toInt then op.t else op.o) ∧
          (op.dst = 0x1D → d.x.iM = op.o * op.t) ∧
          (op.dst = 0x1E → d.x.iM = BitVec.ofNat 64 (op.o.toNat * op.t.toNat / 2 ^ 64)) ∧
          (op.dst = 0x1F → d.x.iM = BitVec.ofInt 64 (op.o.toInt * op.t.toInt / (2 ^ 64 : Nat))) ∧
          (∀ f b, f = fp32 ∧ b = 0x22 ∨ f = bf16 ∧ b = 0x28 ∨ f = fp64 ∧ b = 0x2E →
            (op.dst.toNat = b → d.x.fR = put f ((rd f op.o).add mode (rd f op.t))) ∧
            (op.dst.toNat = b + 1 → d.x.fR = put f ((rd f op.o).sub mode (rd f op.t))) ∧
            (op.dst.toNat = b + 2 → d.x.fR = put f ((rd f op.o).mul (rd f op.t))) ∧
            (op.dst.toNat = b + 3 → d.x.fR = put f (((rd f op.o).mul (rd f op.t)).add mode (rd f op.addend))) ∧
            (op.dst.toNat = b + 4 → d.x.fR = put f ((rd f op.o).min (rd f op.t))) ∧
            (op.dst.toNat = b + 5 → d.x.fR = put f ((rd f op.o).max (rd f op.t)))) ∧
          (op.dst = 0x34 → d.x.fR = put fp32 (rd fp64 op.t)) ∧ (op.dst = 0x35 → d.x.fR = put fp64 (rd fp32 op.t)) ∧
          (op.dst = 0x36 → d.x.fR = put bf16 (rd fp32 op.t)) ∧ (op.dst = 0x37 → d.x.fR = put fp32 (rd bf16 op.t)) ∧
          (op.dst = 0x38 → d.x.fR = put fp32 (FV.ofInt op.t.toInt)) ∧ (op.dst = 0x3A → d.x.fR = put fp64 (FV.ofInt op.t.toInt)) ∧
          (op.dst = 0x39 → d.x.fR = BitVec.ofInt 64 ((rd fp32 op.t).toInt mode 64)) ∧
          (op.dst = 0x3B → d.x.fR = BitVec.ofInt 64 ((rd fp64 op.t).toInt mode 64)) ∧
          cmp 0x41 (decide (op.o = op.t)) ∧ cmp 0x42 (decide (op.o ≠ op.t)) ∧ cmp 0x43 (decide (op.o.toInt < op.t.toInt)) ∧
          cmp 0x44 (decide (op.o.toNat < op.t.toNat)) ∧ cmp 0x45 (decide (op.o.toInt ≤ op.t.toInt)) ∧
          cmp 0x46 (decide (op.o.toNat ≤ op.t.toNat)) ∧
          (∀ f b, f = fp32 ∧ b = 0x47 ∨ f = fp64 ∧ b = 0x4A → cmp b ((rd f op.o).eq (rd f op.t)) ∧
            cmp (b + 1) ((rd f op.o).lt (rd f op.t)) ∧ cmp (b + 2) ((rd f op.o).le (rd f op.t))) ∧
          (op.dst = 0x4D → d.x.cR = if op.addend = 1 then op.o else op.t))) ∧
    (c.x.frozen ≠ [] → (∀ n ∈ c.x.frozen, c.meets s.now n = true) → exec (.xseqFreezeEnd key) s =
      .next (s.modCell key (fun c => { c with x := { c.x with frozen := [] } })))

/-! ## Accesses -/

/-- A scalar load or store issues with its width and scaled offset from S[A]; a path fault is a fatal trap at issue, a
translated access waits uncommitted, any other commits at once, and an access that would be a 17th entry of the replay queue
or a 65th outstanding one stalls the A-seq (06 R136, R139; 18 R354). A translation reply commits a scalar access where the
entry leads, and a replayable fault stops the issuer with the access still outstanding; a fatal one gives the access up, and
the entry that a queue store had popped stands at the head again (06 R121, R125, R136). -/
def Obligations.ScalarAccessesIssue : Prop :=
  (∀ (d a : BitVec 5) (imm : BitVec 12) (s : State) (ag : Agent) (q : ASeq), Issues s ag q [d, a] →
     let w : Nat := 2 ^ (imm.toNat / 1024)
     let ea : Word := BitVec.ofInt 64 ((q.reg a).toInt + (imm.extractLsb' 0 10).toInt * w)
     ∀ (i : Instr) (kind : AccessKind),
       (i = .ld d a imm ∧ kind = .load false d) ∨ (i = .lds d a imm ∧ kind = .load true d) ∨
         (i = .st d a imm ∧ kind = .store (BitVec.ofNat 64 ((q.reg d).toNat % 2 ^ (8 * w)))) →
       let code := s.pathCode ag ea w (i = .st d a imm)
       (code ≠ 0 → exec i s = .next (s.raiseTrap ag 0x08 code .fatal 0 ea)) ∧
       (code = 0 → q.full ea = true → exec i s = .next s) ∧
       (code = 0 → q.full ea = false → isTranslated ea.toNat = true →
         exec i s = .next (s.setASeq ag ((q.withAccess (newAccess s ag q kind ea w i false none)).retire 4))) ∧
       (∀ l, code = 0 → q.full ea = false → isTranslated ea.toNat = false →
         s.resolve ag (decide (s.agentPriv ag = .user)) ea kind.probe = .place l →
         exec i s = .next (s.setASeq ag ((q.withAccess (newAccess s ag q kind ea w i true l)).retire 4)))) ∧
  (∀ (s : State) (ag : Agent) (q : ASeq) (id : Nat) (x : Access), s.aseq? ag = some q → q.access? id = some x →
     x.kind.isSync = false → x.committed = false → s.accessesRun ag = true →
     let r := s.resolve ag (decide (s.agentPriv ag = .user)) x.ea x.kind.probe
     (∀ l, r = .place l → x.inc = none → ∃ t, exec (.translationReply ag false id) s = .next t ∧ t.mem = s.mem ∧
       t.aseq? ag = some { q with out := q.out.map (fun y => if y.id = x.id then { x with committed := true, loc := l } else y) }) ∧
     (∀ c, r = .xlatFault c → c = 1 ∨ c = 2 ∨ c = 3 →
       exec (.translationReply ag false id) s = .next (s.raiseTrap ag 0x09 c .replayable 0 x.ea)) ∧
     (∀ c, r = .xlatFault c → c = 4 ∨ c = 5 ∨ c = 6 → ∃ t : State, t.aseq? ag = some (q.drop id) ∧
       exec (.translationReply ag false id) s = .next (t.raiseTrap ag 0x0A c .fatal 0 x.ea) ∧ t.mem = s.mem ∧
       (∀ key k v stamp e, ag = .aseq key → x.popped = some (k, v, stamp) → s.cell? key = some e → ∀ hk : k < 4, ∃ d, t.cell? key = some d ∧
         d.sq = e.sq.set k { head := ((e.sq[k]'hk).head + 31) % 32, entries := (v, stamp) :: (e.sq[k]'hk).entries } hk)))

/-- A load returns the bytes at its place, little-endian and extended as its form says, into S[D]; nothing in memory changes.
On the read-only path the bytes are those of the die's read-only cache where it holds their line (06 R127, R134, R139; 00 R4).
A store writes its bytes little-endian, and no other byte, and leaves no older line in the read-only cache of its die; it
leaves hardware-maintained object bytes alone and takes sync fault 0x09 instead (06 R127, R133, R138; 07 R151; 00 R4). -/
def Obligations.LoadsAndStoresPerform : Prop :=
  (∀ (s : State) (ag : Agent) (q : ASeq) (id : Nat) (x : Access) (sgn : Bool) (d : BitVec 5), s.aseq? ag = some q →
     q.access? id = some x → x.kind = .load sgn d → canPerform q.out x = true →
     (∀ l, x.loc = some l → s.poisoned l x.width = false → x.width = 1 ∨ x.width = 2 ∨ x.width = 4 ∨ x.width = 8 →
       ∃ t v, exec (.loadReturn ag id) s = .next t ∧ t.aseq? ag = some ((q.drop id).setReg d v) ∧ t.mem = s.mem ∧
         t.gangs = s.gangs ∧
         (∀ k, k < 8 * x.width → v.getLsbD k = (if x.ea.toNat / 2 ^ 60 = 2 then s.roByte (s.agentSlot ag) (l + k / 8)
           else readByte s.mem (l + k / 8)).getLsbD (k % 8)) ∧
         (∀ k, 8 * x.width ≤ k → k < 64 → v.getLsbD k = (sgn && v.getLsbD (8 * x.width - 1)))) ∧
     (x.loc = none → ∃ t, exec (.loadReturn ag id) s = .next t ∧ t.aseq? ag = some ((q.drop id).setReg d 0) ∧ t.mem = s.mem)) ∧
  (∀ (s : State) (ag : Agent) (q : ASeq) (id : Nat) (x : Access) (v : Word), s.aseq? ag = some q → q.access? id = some x →
     x.kind = .store v → canPerform q.out x = true →
     (∀ l, x.loc = some l → s.hitsObject l x.width = false → s.onLostDie l = false → (x.width < 8 → s.poisoned l x.width = false) →
       ∃ t, exec (.scalarWritePerformed ag id) s = .next t ∧ SameOutside s t l x.width ∧
         (∀ k, k < x.width → readByte t.mem (l + k) = BitVec.ofNat 8 (v.toNat / 2 ^ (8 * k)) ∧
           t.roByte (s.agentSlot ag) (l + k) = readByte t.mem (l + k)) ∧
         (x.ea.toNat / 2 ^ 60 ≠ 5 → t.aseq? ag = some (q.drop id) ∧ t.mirrorSent = s.mirrorSent)) ∧
     (∀ l, x.loc = some l → s.hitsObject l x.width = true → ∃ t : State, t.aseq? ag = some (q.drop id) ∧ t.mem = s.mem ∧
       exec (.scalarWritePerformed ag id) s = .next (t.raiseTrap ag 0x0B 0x09 .fatal 0 (x.ea &&& ~~~63#64))) ∧
     (x.loc = none → ∃ t, exec (.scalarWritePerformed ag id) s = .next t ∧ t.aseq? ag = some (q.drop id) ∧ t.mem = s.mem))

/-- Queue loads reserve the tail slot of their queue in issue order, and post-increment forms take the address before the
increment; a full queue stalls the A-seq (06 R138, R141; 04 R87). That a post-increment form translates and commits as it
issues, with its increment made there, is log 29. Queue stores take the head entry of their queue, pushed in an earlier cycle,
truncated to their width; an empty queue stalls the A-seq (06 R138, R141; 04 R87). Post-increment forms are as log 29 says.
Returning data fill the slot that the queue load reserved, whatever the order of return (06 R138). -/
def Obligations.QueueAccesses : Prop :=
  (∀ (n a : BitVec 5) (imm : BitVec 12) (s : State) (key : Nat) (c : Cell) (post : Bool) (hn : n.toNat < 4),
     CellIssues s key c [a] →
     let w : Nat := 2 ^ (imm.toNat / 1024)
     let off : Int := (imm.extractLsb' 0 10).toInt * w
     let ea : Word := if post then c.a.reg a else BitVec.ofInt 64 ((c.a.reg a).toInt + off)
     let i : Instr := if post then .qldi n a imm else .qld n a imm
     let k := n.toNat
     let lq := c.lq[k]'hn
     let code := s.pathCode (.aseq key) ea w false
     (code ≠ 0 → exec i s = .next (s.raiseTrap (.aseq key) 0x08 code .fatal 0 ea)) ∧
     (code = 0 → 32 ≤ lq.slots.length → exec i s = .next (s.setCell key { c with stalled := some k })) ∧
     (∀ l, code = 0 → lq.slots.length < 32 → c.a.full ea = false → s.resolve (.aseq key) true ea .read = .place l →
       ∃ t d, exec i s = .next t ∧ t.cell? key = some d ∧ t.mem = s.mem ∧ d.sq = c.sq ∧ d.x = c.x ∧
         d.lq = c.lq.set k { lq with slots := lq.slots ++ [{ value := none, since := s.now }] } hn ∧
         (let now := post || !isTranslated ea.toNat
          let q := c.a.withAccess (newAccess s (.aseq key) c.a (.queueLoad k ((lq.head + lq.slots.length) % 32)) ea w i now
            (if now then l else none))
          d.a = ((if post then q.setReg a (BitVec.ofInt 64 ((c.a.reg a).toInt + off)) else q).retire 4)))) ∧
  (∀ (n a : BitVec 5) (imm : BitVec 12) (s : State) (key : Nat) (c : Cell) (post : Bool) (v stamp : Word)
     (rest : List (Word × Word)) (hn : n.toNat < 4), CellIssues s key c [a] →
     let w : Nat := 2 ^ (imm.toNat / 1024)
     let off : Int := (imm.extractLsb' 0 10).toInt * w
     let ea : Word := if post then c.a.reg a else BitVec.ofInt 64 ((c.a.reg a).toInt + off)
     let i : Instr := if post then .qsti n a imm else .qst n a imm
     let k := n.toNat
     let sq := c.sq[k]'hn
     s.pathCode (.aseq key) ea w true = 0 → c.a.full ea = false →
     (sq.entries = [] → exec i s = .next (s.setCell key { c with stalled := some (4 + k) })) ∧
     (sq.entries = (v, stamp) :: rest → stamp = s.now → exec i s = .next s) ∧
     (∀ l, sq.entries = (v, stamp) :: rest → stamp ≠ s.now → s.resolve (.aseq key) true ea .write = .place l →
       ∃ t d, exec i s = .next t ∧ t.cell? key = some d ∧ t.mem = s.mem ∧ d.lq = c.lq ∧ d.x = c.x ∧
         d.sq = c.sq.set k { head := (sq.head + 1) % 32, entries := rest } hn ∧
         (let now := post || !isTranslated ea.toNat
          let q := c.a.withAccess { newAccess s (.aseq key) c.a (.store (BitVec.ofNat 64 (v.toNat % 2 ^ (8 * w)))) ea w i now
            (if now then l else none) with popped := some (k, v, stamp) }
          d.a = ((if post then q.setReg a (BitVec.ofInt 64 ((c.a.reg a).toInt + off)) else q).retire 4)))) ∧
  (∀ (s : State) (key : Nat) (c : Cell) (id k slot l : Nat) (x : Access) (hk : k < 4), s.cell? key = some c →
     c.a.access? id = some x → x.kind = .queueLoad k slot → canPerform c.a.out x = true → x.loc = some l →
     s.poisoned l x.width = false →
     ∃ t d, exec (.queueLoadFill (.aseq key) id) s = .next t ∧ t.cell? key = some d ∧ t.mem = s.mem ∧ d.a = c.a.drop id ∧
       (let lq : Lq := c.lq[k]'hk
        let byte (b : Nat) : Byte := if x.ea.toNat / 2 ^ 60 = 2 then s.roByte (s.agentSlot (.aseq key)) b else readByte s.mem b
        let full : LqSlot := { value := some (BitVec.ofNat 64 (leValue ((List.range x.width).map (fun j => byte (l + j))))), since := s.now }
        d.lq = c.lq.set k { lq with slots := lq.slots.set ((slot + 32 - lq.head) % 32) full } hk))

/-- cadr forms the comb name of a gang cell or of a buffer slice, and a number or offset out of range gives a name on an
unassigned path; pchk gives the code of the issue-stage checks and takes no trap (06 R122, R143, R144). The issue-stage path
checks: an unassigned path, a must-be-zero bit, a write of the read-only path and a misaligned address have the codes that the
table gives; on the comb path a die or tile that is not assigned and an offset beyond the slice of the named cell or buffer
die come before alignment (06 R121 to R123). pref never faults and changes no value: it brings the line at its address S[A] +
64 × imm into the read-only cache of its die, and nothing where that address is not on the read-only path, does not translate
for a read, is of a page that the path does not reach, holds poison, or is there already (06 R127, R140; 22 R416). -/
def Obligations.PathForms : Prop :=
  (∀ (d a b m : BitVec 5) (s : State) (ag : Agent) (q : ASeq), Issues s ag q [d, a, b] →
     let c := (q.reg a).toNat
     let o := (q.reg b).toNat
     let put (n : Nat) : Host.Outcome State Fault Refusal := .next (s.setASeq ag ((q.setReg d (BitVec.ofNat 64 n)).retire 4))
     exec (.cadrG d a b) s = put (if c < 448 ∧ o < 2 ^ 30 then 2 ^ 60 + c * 2 ^ 30 + o else 6 * 2 ^ 60) ∧
     exec (.cadrB d a b) s = put (if c < 128 ∧ o < 2 ^ 30 then 2 ^ 60 + (16 + c / 16) * 2 ^ 35 + c % 16 * 2 ^ 30 + o else 6 * 2 ^ 60) ∧
     (Issues s ag q [d, a] → exec (.pchk d a m) s =
       put (s.pathCode ag (q.reg a) (2 ^ (m.toNat % 4)) (m.getLsbD 2)))) ∧
  (∀ (s : State) (ag : Agent) (ea : Word) (w : Nat) (write : Bool), 0 < w →
     let p := ea.toNat / 2 ^ 60
     let code := s.pathCode ag ea w write
     (5 < p → code = 0x01) ∧
     (p = 0 ∨ p = 2 ∨ p = 4 ∨ p = 5 → ea.toNat / 2 ^ 48 % 2 ^ 12 ≠ 0 → code = 0x02) ∧
     (p = 0 ∨ p = 2 ∨ p = 4 ∨ p = 5 → ea.toNat / 2 ^ 48 % 2 ^ 12 = 0 →
       code = if p = 2 ∧ write = true then 0x06 else if ea.toNat % w = 0 then 0 else 0x0B) ∧
     (p = 3 → ea.toNat / 2 ^ 30 % 2 ^ 30 ≠ 0 → code = 0x02) ∧
     (∀ k, p = 3 → ea.toNat / 2 ^ 30 % 2 ^ 30 = 0 → ag = .core k → code = 0x07) ∧
     (p = 1 → ea.toNat / 2 ^ 40 % 2 ^ 20 ≠ 0 → code = 0x02) ∧
     (let aligned := if ea.toNat % w = 0 then 0 else 0x0B
      let off := ea.toNat % 2 ^ 30
      let inSlice (size : Nat) : Nat := if size ≤ off then 0x05 else aligned
      let size (c : Cell) : Nat := if c.ctype = .matrix then 0x600000 else 0x400000
      let d := ea.toNat / 2 ^ 35 % 32
      let t := ea.toNat / 2 ^ 30 % 32
      let dremap := (s.part (s.agentPart ag)).dremap.toNat
      (∀ key c, p = 3 → ea.toNat / 2 ^ 30 % 2 ^ 30 = 0 → ag = .aseq key → s.cell? key = some c → code = inSlice (size c)) ∧
      (p = 1 → ea.toNat / 2 ^ 40 % 2 ^ 20 = 0 →
        (d = 14 ∨ d = 15 ∨ 24 ≤ d → code = 0x03) ∧
        (∀ k, d < 14 → ag = .core k → code = 0x03) ∧
        (∀ key g, d < 14 → ag = .aseq key → s.gang? (gangOfCell key) = some g → 0 < g.ncells →
          ((g.ncells - 1) / 32 < d → code = 0x03) ∧
          (d ≤ (g.ncells - 1) / 32 → g.ncells ≤ 32 * d + t → code = 0x04) ∧
          (∀ c, 32 * d + t < g.ncells → s.cell? (cellKey (gangOfCell key) (32 * d + t)) = some c → code = inSlice (size c))) ∧
        (16 ≤ d → d < 24 →
          let slot := dremap / 2 ^ (5 * (d - 16)) % 32
          let usable := (List.range 16).countP (fun j => (s.avail slot).getLsbD j)
          (dremap / 2 ^ 40 % 16 ≤ d - 16 → code = 0x03) ∧
          (d - 16 < dremap / 2 ^ 40 % 16 → s.lostDies.find? slot = none →
            code = if usable ≤ t then 0x04 else inSlice 0xA00000))))) ∧
  (∀ (a : BitVec 5) (imm : BitVec 12) (s : State) (ag : Agent) (q : ASeq), Issues s ag q [a] →
     let ea : Word := BitVec.ofInt 64 ((q.reg a).toInt + 64 * imm.toInt)
     let user := decide (s.agentPriv ag = .user)
     let va := ea.toNat % 2 ^ 48
     let slot := s.agentSlot ag
     let leaves (u : State) : Prop := exec (.pref a imm) s = .next (u.setASeq ag (q.retire 4))
     (ea.toNat / 2 ^ 48 ≠ 0x2000 → leaves s) ∧
     (s.lookup ag user va .read = none → leaves s) ∧
     (∀ e, ea.toNat / 2 ^ 48 = 0x2000 → s.lookup ag user va .read = some e →
       let pa := e.pa va
       (xlatCode (some e) user .read ≠ 0 ∨ 2 ≤ e.mtype ∨ s.cannotCross slot (hbmSlot pa) = true ∨ s.poisoned (pa / 64 * 64) 64 = true ∨
         (s.roCache.find? (roLine slot pa)).isSome = true → leaves s) ∧
       (xlatCode (some e) user .read = 0 → e.mtype < 2 → s.cannotCross slot (hbmSlot pa) = false →
         s.poisoned (pa / 64 * 64) 64 = false → s.roCache.find? (roLine slot pa) = none →
         leaves { s with roCache := s.roCache.insert (roLine slot pa) (readBytes s.mem (pa / 64 * 64) 64) })))

/-- An atomic issues with the width that M[3] selects, at the address in S[A], and captures its operands; it stalls as other
accesses do (06 R136; 08 R188, R189). An atomic is performed in one step: the old value enters S[D], the new one is written
unless a cas finds another value than it expects, and no other byte changes. On the mirrored path one that writes stays
outstanding as a duplicated write of the new value until it is acknowledged (08 R187, R189; 22 R420). -/
def Obligations.AtomicsIssueAndPerform : Prop :=
  (∀ (i : Instr) (use : List (BitVec 5)) (a b m : BitVec 5) (op : AtomicOp) (dest : Option (BitVec 5)) (e : BitVec 5)
     (s : State) (ag : Agent) (q : ASeq) (d : BitVec 5),
     (i = .amo d a b m ∧ use = [d, a, b] ∧ op = .amo (m.extractLsb' 0 3) ∧ dest = some d ∧ e = 0) ∨
       (i = .red a b m ∧ use = [a, b] ∧ op = .amo (m.extractLsb' 0 3) ∧ dest = none ∧ e = 0) ∨
       (i = .swap d a b m ∧ use = [d, a, b] ∧ op = .swap ∧ dest = some d ∧ e = 0) ∨
       (i = .cas d a b m ∧ use = [d, a, b] ∧ op = .cas ∧ dest = some d ∧ e = d) →
     Issues s ag q use →
     let w : Nat := if m.getLsbD 3 then 8 else 4
     let ea := q.reg a
     let kind : AccessKind := .atomic op dest (q.reg b) (q.reg e)
     let code := s.pathCode ag ea w true
     (code ≠ 0 → exec i s = .next (s.raiseTrap ag 0x08 code .fatal 0 ea)) ∧
     (code = 0 → q.full ea = true → exec i s = .next s) ∧
     (code = 0 → q.full ea = false → isTranslated ea.toNat = true →
       exec i s = .next (s.setASeq ag ((q.withAccess (newAccess s ag q kind ea w i false none)).retire 4))) ∧
     (∀ l, code = 0 → q.full ea = false → isTranslated ea.toNat = false →
       s.resolve ag (decide (s.agentPriv ag = .user)) ea .atomic = .place l →
       exec i s = .next (s.setASeq ag ((q.withAccess (newAccess s ag q kind ea w i true l)).retire 4)))) ∧
  (∀ (s : State) (ag : Agent) (q : ASeq) (id l : Nat) (x : Access) (op : AtomicOp) (dest : Option (BitVec 5)) (y e : Word),
     s.aseq? ag = some q → q.access? id = some x → x.kind = .atomic op dest y e → canPerform q.out x = true →
     x.loc = some l → x.width = 4 ∨ x.width = 8 → s.hitsObject l x.width = false → s.poisoned l x.width = false →
     let n := 8 * x.width
     let old := readLE s.mem l x.width
     let yv := y.toNat % 2 ^ n
     let sg (v : Nat) : Int := if v < 2 ^ (n - 1) then v else (v : Int) - 2 ^ n
     let given (r : ASeq) : ASeq := match dest with | some d => r.setReg d (BitVec.ofNat 64 old) | none => r
     let mirrors := x.ea.toNat / 2 ^ 60 = 5 ∧ (op = .cas → old = e.toNat % 2 ^ n)
     ∃ t, exec (.atomicPerform ag id) s = .next t ∧ SameOutside s t l x.width ∧
       (¬mirrors → t.aseq? ag = some (given (q.drop id)) ∧ t.mirrorSent = s.mirrorSent ∧ t.partitions = s.partitions) ∧
       (mirrors → s.agentPart ag < 8 → ∃ w,
         t.aseq? ag = some (given { q with out := q.out.map (fun y => if y.id = x.id then { x with kind := .store 0, mirrored := true } else y) }) ∧
         (t.part (s.agentPart ag)).mirrorOut = (s.part (s.agentPart ag)).mirrorOut ++ [w] ∧ w.loc = l ∧ w.owner = .access ag x.id ∧
         w.since = s.now ∧ w.data = readBytes t.mem l x.width ∧
         t.mirrorSent = (if s.packageUp then [(l, w.data)] else []) ++ s.mirrorSent) ∧
       (∀ o, op = .amo o → (o = 0 → readLE t.mem l x.width = (old + yv) % 2 ^ n) ∧ (o = 1 → readLE t.mem l x.width = Nat.land old yv) ∧
         (o = 2 → readLE t.mem l x.width = Nat.lor old yv) ∧ (o = 3 → readLE t.mem l x.width = Nat.xor old yv) ∧
         (o = 4 → sg (readLE t.mem l x.width) = min (sg old) (sg yv)) ∧ (o = 5 → sg (readLE t.mem l x.width) = max (sg old) (sg yv)) ∧
         (o = 6 → readLE t.mem l x.width = min old yv) ∧ (o = 7 → readLE t.mem l x.width = max old yv)) ∧
       (op = .swap → readLE t.mem l x.width = yv) ∧
       (op = .cas → readLE t.mem l x.width = if old = e.toNat % 2 ^ n then yv else old))

/-! ## Synchronisation, counters, banks -/

/-- acq of a marked object waits for its condition and then reads the count of releases or the generation; an unmarked line
takes sync fault 0x02. At die scope or wider it invalidates the read-only cache of the issuer's die (06 R127; 07 R146, R164).
A fence waits while an access, release, xfer or engine command issued before it is not performed (07 R161); that it waits for
all of them whatever its scope is log 12. -/
def Obligations.AcquiresAndFences : Prop :=
  (∀ (d a b m : BitVec 5) (s : State) (ag : Agent) (q : ASeq) (o l : Nat), Issues s ag q [d, a, b] →
     s.objTarget ag (q.reg a) = .object o (some l) →
     let kind := m.toNat / 8
     let relseq := readLE s.mem l 8
     let gen := readLE s.mem (l + 8) 4
     let ge (x y n : Nat) : Prop := ((x : Int) - y) % 2 ^ n < 2 ^ (n - 1)
     let open_ : Prop := kind = 0 ∨ (kind = 1 ∧ ge relseq (q.reg b).toNat 64) ∨
       (kind = 2 ∧ ge gen ((q.reg b).toNat % 2 ^ 32) 32)
     (s.marked l = false → exec (.acq d a b m) s = .next (s.raiseTrap ag 0x0B 0x02 .fatal 0 (BitVec.ofNat 64 o))) ∧
     let scope := match ag with | .core _ => max 4 (m.toNat % 8) | _ => m.toNat % 8
     let u : State := if 2 ≤ scope then { s with roCache := s.roCache.filter (fun x => x.1 / 2 ^ 48 ≠ s.agentSlot ag) } else s
     (s.marked l = true → s.poisoned l 16 = false → open_ → exec (.acq d a b m) s = .next (u.setASeq ag
       ((q.setReg d (BitVec.ofNat 64 (if kind = 2 then gen else relseq))).retire 4))) ∧
     (s.marked l = true → s.poisoned l 16 = false → ¬open_ → exec (.acq d a b m) s = .next s)) ∧
  (∀ (m : BitVec 5) (s : State) (ag : Agent) (q : ASeq), Issues s ag q [] →
     let quiet := q.out = [] ∧ ∀ key c, ag.cell? = some key → s.cell? key = some c → c.cmds = []
     (quiet → exec (.fence m) s = .next (s.setASeq ag (q.retire 4))) ∧ (¬quiet → exec (.fence m) s = .next s))

/-- rel and xfer issue and stay outstanding; one that would wait for an entry of a replay queue that is full stalls the
issuer. xfer refuses an invalid owner value before the home is reached (07 R158, R164, R165; 18 R354). A release or xfer waits
while a write that it covers, or an earlier release or xfer of its issuer, is not performed. Then a release increments RELSEQ
at the home and an xfer by the owner changes OWNER, GEN and RELSEQ together; the new value enters S[D], and no other byte
changes. An xfer by another takes sync fault 0x07 and changes no field (07 R158, R160, R164). -/
def Obligations.ReleasesIssueAndPerform : Prop :=
  (∀ (d a b m : BitVec 5) (s : State) (o l : Nat),
     let entry (q : ASeq) (kind : AccessKind) (i : Instr) : Access := {
       id := q.nextId, kind, ea := BitVec.ofNat 64 o, width := 8, first := firstWord i, committed := true, loc := none, bound := [o],
       inc := none, mirrored := false }
     let stalls (q : ASeq) : Prop := 16 ≤ q.replay.length ∧
       ∃ y ∈ q.replay, y.kind.isSync = true ∨ (y.kind.isWrite = true ∧ o ∈ y.bound)
     (∀ (ag : Agent) (q : ASeq), Issues s ag q [d, a] → s.objTarget ag (q.reg a) = .object o (some l) → s.marked l = true →
       (¬stalls q → exec (.rel d a m) s =
         .next (s.setASeq ag ((q.withAccess (entry q (.release d) (.rel d a m))).retire 4))) ∧
       (stalls q → exec (.rel d a m) s = .next s)) ∧
     (∀ (key : Nat) (c : Cell), CellIssues s key c [d, a, b] → s.objTarget (.aseq key) (c.a.reg a) = .object o (some l) →
       let v := (c.a.reg b).toNat
       let valid := v = 0xFFFF ∨ v < 0x2000
       (¬valid → exec (.xfer d a b m) s = .next (s.raiseTrap (.aseq key) 0x0B 0x08 .fatal 0 (BitVec.ofNat 64 o))) ∧
       (valid → s.marked l = false →
         exec (.xfer d a b m) s = .next (s.raiseTrap (.aseq key) 0x0B 0x02 .fatal 0 (BitVec.ofNat 64 o))) ∧
       (valid → s.marked l = true → ¬stalls c.a → exec (.xfer d a b m) s = .next (s.setASeq (.aseq key)
         ((c.a.withAccess (entry c.a (.xfer d (BitVec.ofNat 16 v)) (.xfer d a b m))).retire 4))) ∧
       (valid → s.marked l = true → stalls c.a → exec (.xfer d a b m) s = .next s))) ∧
  (∀ (s : State) (ag : Agent) (q : ASeq) (id l : Nat) (x : Access), s.aseq? ag = some q → q.access? id = some x →
     let waits := ∃ y ∈ q.out.takeWhile (fun y => y.id ≠ x.id), y.kind.isSync = true ∨ (y.kind.isWrite = true ∧ ∃ o ∈ y.bound, o ∈ x.bound)
     (waits → exec (.releasePerformed ag id) s = .next s ∧ exec (.xferPerformed ag id) s = .next s) ∧
     (¬waits → s.objectLoc ag x.ea.toNat = some l → s.marked l = true → s.poisoned l 16 = false →
     let relseq (t : State) := readLE t.mem l 8
     let gen (t : State) := readLE t.mem (l + 8) 4
     let owner (t : State) := readLE t.mem (l + 12) 2
     let self := (((ag.gang?).bind s.gang?).map Gang.owner).getD 0xFFFF
     (∀ d, x.kind = .release d → ∃ t, exec (.releasePerformed ag id) s = .next t ∧ relseq t = (relseq s + 1) % 2 ^ 64 ∧
       t.aseq? ag = some ((q.drop id).setReg d (BitVec.ofNat 64 (relseq t))) ∧ SameOutside s t l 8 ∧ t.marks = s.marks) ∧
     (∀ d v, x.kind = .xfer d v → owner s = self → ∃ t, exec (.xferPerformed ag id) s = .next t ∧
       relseq t = (relseq s + 1) % 2 ^ 64 ∧ gen t = (gen s + 1) % 2 ^ 32 ∧ owner t = v.toNat ∧
       t.aseq? ag = some ((q.drop id).setReg d (BitVec.ofNat 64 (gen t))) ∧ SameOutside s t l 14 ∧ t.marks = s.marks) ∧
     (∀ d v, x.kind = .xfer d v → owner s ≠ self → ∃ t : State, t.mem = s.mem ∧ t.aseq? ag = some (q.drop id) ∧
       exec (.xferPerformed ag id) s = .next (t.raiseTrap ag 0x0B 0x07 .fatal 0 x.ea))))

/-- oinit writes the 64 bytes of the object and its mark, or clears both; on a die that failed it consumes poison (07 R164,
Table 7-2; 22 R419). That it waits for its issuer's earlier accesses to the line and issued releases of the object is log 112.
bind adds a gang entry at the end of the binding table and unbind removes the gang entry with its object and base; the codes
of a full table and of a missing entry (07 R164, R165). That unbind removes every entry with its object and base is log 101,
and that all cells of the gang see one table at once is log 11. -/
def Obligations.ObjectsAndBindings : Prop :=
  (∀ (a b : BitVec 5) (s : State) (ag : Agent) (q : ASeq) (o l : Nat), Issues s ag q [a, b] →
     s.objTarget ag (q.reg a) = .object o (some l) →
     let v := (q.reg b).toNat
     let valid := v < 2 ^ 17 ∧ (v % 2 ^ 16 = 0xFFFF ∨ v % 2 ^ 16 < 0x2000)
     (¬valid → exec (.oinit a b) s = .next (s.raiseTrap ag 0x0B 0x08 .fatal 0 (BitVec.ofNat 64 o))) ∧
     let waits := q.touches (some l) = true ∨ ∃ x ∈ q.out, x.kind.isSync = true ∧ o ∈ x.bound
     (valid → waits → exec (.oinit a b) s = .next s) ∧
     (valid → ¬waits → s.onLostDie l = true → exec (.oinit a b) s = .next (s.raiseTrap ag 0x13 0x01 .fatal 0 (q.reg a))) ∧
     (valid → ¬waits → s.onLostDie l = false → ∃ t, exec (.oinit a b) s = .next t ∧ t.aseq? ag = some (q.retire 4) ∧ SameOutside s t l 64 ∧
       t.marked l = decide (v < 2 ^ 16) ∧ (∀ k, k / 64 ≠ l / 64 → t.marked k = s.marked k) ∧
       readLE t.mem (l + 12) 2 = (if v < 2 ^ 16 then v else 0) ∧
       (∀ k, k < 64 → k ≠ 12 → k ≠ 13 → readByte t.mem (l + k) = 0))) ∧
  (∀ (d a b : BitVec 5) (s : State) (key : Nat) (c : Cell) (g : Gang) (o l : Nat), s.gang? (gangOfCell key) = some g →
     s.objTarget (.aseq key) (c.a.reg d) = .object o (some l) →
     let base := c.a.reg a
     let len := c.a.reg b
     let tr := isTranslated base.toNat
     let name := compareName key base.toNat
     (CellIssues s key c [d, a, b] →
       let other := ∃ e ∈ g.bindings, ∃ p ∈ e.objectsOf (s.gangCells (gangOfCell key)) tr name len.toNat, p ≠ o
       (s.badRegion (.aseq key) base len = true →
         exec (.bind d a b) s = .next (s.raiseTrap (.aseq key) 0x0B 0x03 .fatal 0 (BitVec.ofNat 64 o))) ∧
       (s.badRegion (.aseq key) base len = false → 64 ≤ g.bindings.length →
         exec (.bind d a b) s = .next (s.raiseTrap (.aseq key) 0x0B 0x04 .fatal 0 (BitVec.ofNat 64 o))) ∧
       (s.badRegion (.aseq key) base len = false → g.bindings.length < 64 → other →
         exec (.bind d a b) s = .next (s.raiseTrap (.aseq key) 0x0B 0x05 .fatal 0 (BitVec.ofNat 64 o))) ∧
       (s.badRegion (.aseq key) base len = false → g.bindings.length < 64 → ¬other → s.marked l = true →
         ∃ t h, exec (.bind d a b) s = .next t ∧ t.cell? key = some { c with a := c.a.retire 4 } ∧ t.mem = s.mem ∧
           t.gang? (gangOfCell key) = some h ∧ h = { g with bindings := g.bindings ++
             [{ object := o, base := name, len := len.toNat, perCell := none, translated := tr }] })) ∧
     (CellIssues s key c [d, a] →
       let hit (e : Binding) : Bool := decide (e.object = o ∧ e.perCell = none ∧ e.translated = tr ∧ e.base = name)
       (g.bindings.any hit = false →
         exec (.unbind d a) s = .next (s.raiseTrap (.aseq key) 0x0B 0x06 .fatal 0 (BitVec.ofNat 64 o))) ∧
       (g.bindings.any hit = true → ∃ t h, exec (.unbind d a) s = .next t ∧ t.cell? key = some { c with a := c.a.retire 4 } ∧
         t.mem = s.mem ∧ t.gang? (gangOfCell key) = some h ∧ h = { g with bindings := g.bindings.filter (fun e => !hit e) })))

/-- The waits on a counter: the threshold is formed without wrapping, one above the counter's range is counter fault 0x01, and
the A-seq goes on once the counter has reached it (08 R174, R177). Increments, writes and reads of counters: cinc saturates
and sets OVF, crinc to the cell itself behaves as cinc and to another joins the increments in flight, cset leaves the CSW,
cstat reads it and clears it in one update (08 R170, R175, R177). -/
def Obligations.Counters : Prop :=
  (∀ (i : Instr) (n a k : BitVec 5) (v : BitVec 5) (imm : BitVec 12) (use : List (BitVec 5)) (threshold : Cell → Nat) (s : State)
     (key : Nat) (c : Cell),
     (i = .cwait n a imm ∧ use = [a] ∧ threshold = fun c => (c.a.reg a).toNat + imm.toNat) ∨
       (i = .cwaitShort n v ∧ use = [] ∧ threshold = fun _ => v.toNat) ∨
       (i = .cwaitlt n k imm ∧ use = [] ∧ threshold = fun c => imm.toNat * ((c.a.pos.lx k.toNat).toNat + 1)) →
     CellIssues s key c use →
     (2 ^ 32 ≤ threshold c → exec i s = .next (s.raiseTrap (.aseq key) 0x0C 0x01 .fatal (BitVec.ofNat 64 n.toNat) 0)) ∧
     (threshold c ≤ (c.ccOf n).toNat → exec i s = .next (s.setCell key { c with a := c.a.retire i.size })) ∧
     (threshold c < 2 ^ 32 → (c.ccOf n).toNat < threshold c → exec i s = .next s)) ∧
  (∀ (n a d v1 : BitVec 5) (imm : BitVec 12) (s : State) (key : Nat) (c : Cell) (g : Gang),
     s.gang? (gangOfCell key) = some g →
     let add (m : Cell) (v : Nat) : Cell := if (m.ccOf n).toNat + v < 2 ^ 32 then m.setCc n (BitVec.ofNat 32 ((m.ccOf n).toNat + v))
       else (m.setCc n (BitVec.ofNat 32 (2 ^ 32 - 1))).setCsw n (m.cswOf n ||| 2)
     (CellIssues s key c [] →
       exec (.cinc n imm) s = .next (s.setCell key { add c (imm.toNat + 1) with a := c.a.retire 4 }) ∧
       exec (.cincShort n v1) s = .next (s.setCell key { add c (v1.toNat + 1) with a := c.a.retire 2 })) ∧
     (CellIssues s key c [a] →
       let t := (c.a.reg a).toNat
       (g.ncells ≤ t → exec (.crinc n a imm) s =
         .next (s.raiseTrap (.aseq key) 0x0C 0x02 .fatal (BitVec.ofNat 64 n.toNat) 0)) ∧
       (t < g.ncells → t = key % 512 →
         exec (.crinc n a imm) s = .next (s.setCell key { add c (imm.toNat + 1) with a := c.a.retire 4 })) ∧
       (t < g.ncells → t ≠ key % 512 → ∃ u h, exec (.crinc n a imm) s = .next u ∧ u.cell? key = some { c with a := c.a.retire 4 } ∧
         u.mem = s.mem ∧ u.gang? (gangOfCell key) = some h ∧
         h = { g with incs := g.incs ++ [{ sender := key % 512, target := t, counter := n, amount := imm.toNat + 1 }] }) ∧
       ((∀ x ∈ c.cmds, x.instr.flags.ce = true → x.instr.flags.cnt ≠ n) → exec (.cset n a) s =
         .next (s.setCell key { c.setCc n ((c.a.reg a).setWidth 32) with a := c.a.retire 4 })) ∧
       ((∃ x ∈ c.cmds, x.instr.flags.ce = true ∧ x.instr.flags.cnt = n) → exec (.cset n a) s = .next s)) ∧
     (CellIssues s key c [d] →
       exec (.cread d n) s = .next (s.setCell key { c with a := (c.a.setReg d (BitVec.ofNat 64 (c.ccOf n).toNat)).retire 4 }) ∧
       exec (.cstat d n 0) s = .next (s.setCell key { c with a := (c.a.setReg d (c.cswOf n)).retire 4 }) ∧
       exec (.cstat d n 1) s = .next (s.setCell key { c.setCsw n 0 with a := (c.a.setReg d (c.cswOf n)).retire 4 })) ∧
     (∀ (idx : Nat) (x : RemoteInc) (e : Cell), g.state = .resident → g.incs[idx]? = some x →
       (∀ y ∈ g.incs.take idx, ¬(y.sender = x.sender ∧ y.target = x.target ∧ y.counter = x.counter)) → x.counter = n →
       s.cell? (cellKey (gangOfCell key) x.target) = some e → ∃ u, exec (.crincArrival (gangOfCell key) idx) s = .next u ∧
         u.gang? (gangOfCell key) = some { g with incs := g.incs.eraseIdx idx } ∧ u.mem = s.mem ∧
         u.cell? (cellKey (gangOfCell key) x.target) = some (if e.gone then e else add e x.amount)))

/-- tinv and tval write V of S[D] tiles from S[A] on and leave their claims, tread reads V; the faults of their addresses (08
R178, R186). The effects are stated for addresses on the own-slice path; INFO 0 of counter fault 0x03 is log 104. accalloc
takes the lowest aligned run of free banks below D, with zero contents and cleared tiles, and accfree frees held banks once no
command names them; the faults and their order (09 R192, R193, R196, R197). -/
def Obligations.TagsAndBanks : Prop :=
  (∀ (n a d : BitVec 5) (s : State) (key : Nat) (c : Cell) (l : Nat),
     let ea := c.a.reg a
     let count := (c.a.reg n).toNat
     (CellIssues s key c [n, a] → s.pathCode (.aseq key) ea 1 false = 0 →
       (ea.toNat % 4096 ≠ 0 → ∀ i, i = .tinv n a ∨ i = .tval n a →
         exec i s = .next (s.raiseTrap (.aseq key) 0x0C 0x03 .fatal 0 0)) ∧
       (ea.toNat / 2 ^ 60 = 3 → ea.toNat % 4096 = 0 → c.gone = false → s.cell? key = some c →
         l = sliceLoc (unitKey c.slot c.unit) (ea.toNat % 2 ^ 30) →
         (c.ctype.sliceSize < ea.toNat % 2 ^ 30 + 4096 * count → ∀ i, i = .tinv n a ∨ i = .tval n a →
           exec i s = .next (s.raiseTrap (.aseq key) 0x08 0x05 .fatal 0 ea)) ∧
         (ea.toNat % 2 ^ 30 + 4096 * count ≤ c.ctype.sliceSize → ∀ v i, i = (if v then .tval n a else .tinv n a) →
           ∃ t, exec i s = .next t ∧ t.cell? key = some { c with a := c.a.retire 4 } ∧ t.mem = s.mem ∧
             (∀ k, t.tagC k = s.tagC k) ∧
             (∀ k, t.tagV k = if l / 4096 ≤ k / 4096 ∧ k / 4096 < l / 4096 + count then v else s.tagV k)))) ∧
     (CellIssues s key c [d, a] → s.pathCode (.aseq key) ea 1 false = 0 →
       (ea.toNat % 4096 ≠ 0 → exec (.tread d a) s = .next (s.raiseTrap (.aseq key) 0x0C 0x03 .fatal 0 0)) ∧
       (ea.toNat / 2 ^ 60 = 3 → ea.toNat % 4096 = 0 → c.gone = false →
         exec (.tread d a) s = .next (s.setCell key { c with a := (c.a.setReg d
           (if s.tagV (sliceLoc (unitKey c.slot c.unit) (ea.toNat % 2 ^ 30)) then 1 else 0)).retire 4 })))) ∧
  (∀ (d a : BitVec 5) (n : BitVec 12) (s : State) (key : Nat) (c : Cell), 1 ≤ n.toNat → n.toNat ≤ 256 → c.declared ≤ 256 →
     let al : Nat := if 8 ≤ n.toNat then 8 else if 4 ≤ n.toNat then 4 else if 2 ≤ n.toNat then 2 else 1
     let free (b : Nat) : Prop := b % al = 0 ∧ b + n.toNat ≤ c.declared ∧ ∀ k, k < n.toNat → c.banks.getLsbD (b + k) = false
     let held := (List.range 256).countP (fun k => c.banks.getLsbD k)
     (CellIssues s key c [d] →
       (c.ctype ≠ .matrix → exec (.accalloc d n) s = .next (s.raiseTrap (.aseq key) 0x04 0 .fatal (BitVec.ofNat 64 0xE0) 0)) ∧
       (c.ctype = .matrix → c.declared < held + n.toNat →
         exec (.accalloc d n) s = .next (s.raiseTrap (.aseq key) 0x0D 0x01 .fatal 0 0)) ∧
       (c.ctype = .matrix → held + n.toNat ≤ c.declared → (∀ b, ¬free b) →
         exec (.accalloc d n) s = .next (s.raiseTrap (.aseq key) 0x0D 0x02 .fatal 0 0)) ∧
       (∀ b, c.ctype = .matrix → held + n.toNat ≤ c.declared → free b → (∀ b', b' < b → ¬free b') →
         ∃ e, exec (.accalloc d n) s = .next (s.setCell key e) ∧ e.a = (c.a.setReg d (BitVec.ofNat 64 b)).retire 4 ∧
           (∀ k, k < 256 → e.banks.getLsbD k = (c.banks.getLsbD k || (decide (b ≤ k) && decide (k < b + n.toNat)))) ∧
           (∀ k, e.elems.getD k 0 = if 512 * b ≤ k ∧ k < 512 * (b + n.toNat) then 0 else c.elems.getD k 0) ∧
           (∀ t, e.tiles.find? t = if b / 8 ≤ t ∧ t ≤ (b + n.toNat - 1) / 8 then none else c.tiles.find? t) ∧
           e.cmds = c.cmds ∧ e.lq = c.lq ∧ e.cc = c.cc)) ∧
     (CellIssues s key c [a] → c.ctype = .matrix →
       let b := (c.a.reg a).toNat
       let ok := b + n.toNat ≤ c.declared ∧ ∀ k, k < n.toNat → c.banks.getLsbD (b + k) = true
       let named := ∃ x ∈ c.cmds, ∃ t ∈ x.tiles, b / 8 ≤ t ∧ t ≤ (b + n.toNat - 1) / 8
       (¬ok → exec (.accfree a n) s = .next (s.raiseTrap (.aseq key) 0x0D 0x03 .fatal 0 0)) ∧
       (ok → named → exec (.accfree a n) s = .next s) ∧
       (ok → ¬named → ∃ e, exec (.accfree a n) s = .next (s.setCell key e) ∧ e.a = c.a.retire 4 ∧ e.elems = c.elems ∧
         e.tiles = c.tiles ∧ e.cmds = c.cmds ∧
         (∀ k, k < 256 → e.banks.getLsbD k = (c.banks.getLsbD k && !(decide (b ≤ k) && decide (k < b + n.toNat)))))))

/-! ## Engine commands -/

/-- An engine command of a core without its unit takes the unit-absent fault, and enters no queue (03 R49). A matrix form with
faults takes the lowest code of those that apply, and enters its queue when none applies (09 R197, R204, Table 9-2). -/
def Obligations.MatrixCommandsIssue : Prop :=
  (∀ (i : Instr) (u : EngineUnit) (s : State), engineUnit i = some u →
     let info : Word := BitVec.ofNat 64 (16 * i.opcode.1 + i.opcode.2)
     (∀ key c, CellIssues s key c i.captured → u.on c.ctype = false →
       exec i s = .next (s.raiseTrap (.aseq key) 0x04 0 .fatal info 0)) ∧
     (∀ k, CoreIssues s k i.captured → exec i s = .next (s.raiseTrap (.core k) 0x04 0 .fatal info 0))) ∧
  (∀ (i : Instr) (s : State) (key : Nat) (c : Cell), engineUnit i = some .matrix → CellIssues s key c i.captured →
     c.ctype = .matrix →
     (∀ code, matrixFault i c code → (∀ k, k < code → ¬matrixFault i c k) →
       exec i s = .next (s.raiseTrap (.aseq key) 0x0D code .fatal 0 0)) ∧
     ((∀ code, ¬matrixFault i c code) → IssuesOrWaits s key c i .matrix c.mdi))

/-- The codes of a region descriptor, the lowest of those that apply; a command with several regions has the lowest code of
any, and counts that disagree have code 0x05 (11 R237, R238, R260). A vector or table command checks the descriptors and
counts of its regions at issue, and enters its queue when they pass (11 R238, R241, R246, R260; 12 R271). A gather or sort
command checks its regions at issue, and enters its queue when they pass (14 R291); that the counts of topk's results are
judged whatever K is, before the start, is log 92. A copy command enters its queue on any cell, and a link command once its
regions pass their checks against the size of the issuing cell's slice (13 R276, R279; 15 R302; 11 R238). -/
def Obligations.RegionCommandsIssue : Prop :=
  ((∀ (size : Nat) (v : Word) (eb : Nat), eb = 1 ∨ eb = 2 ∨ eb = 4 ∨ eb = 8 →
     let off : Int := (v.toNat % 2 ^ 24 : Nat)
     let count := v.toNat / 2 ^ 40 % 2 ^ 16
     let stride : Int := ((v.extractLsb' 24 16).toInt)
     let at_ (e : Nat) : Int := off + e * stride * eb
     let code := regionsCode size [(v, 2 * eb)] true
     (2 ^ 56 ≤ v.toNat → code = 0x01) ∧
     (v.toNat < 2 ^ 56 → count = 0 → code = 0x02) ∧
     (v.toNat < 2 ^ 56 → count ≠ 0 → (∃ e, e < count ∧ (at_ e < 0 ∨ (size : Int) < at_ e + eb)) → code = 0x03) ∧
     (v.toNat < 2 ^ 56 → count ≠ 0 → (∀ e, e < count → 0 ≤ at_ e ∧ at_ e + eb ≤ (size : Int)) →
       code = if v.toNat % 2 ^ 24 % eb = 0 then 0 else 0x04)) ∧
   (∀ (size : Nat) (rs : List (Word × Nat)) (ok : Bool),
     let code := regionsCode size rs ok
     (code = 0 ↔ ok = true ∧ ∀ p ∈ rs, regionsCode size [p] true = 0) ∧
     (∀ p ∈ rs, regionsCode size [p] true ≠ 0 → code ≤ regionsCode size [p] true) ∧ (ok = false → code ≤ 0x05) ∧
     (code ≠ 0 → (code = 0x05 ∧ ok = false) ∨ ∃ p ∈ rs, regionsCode size [p] true = code))) ∧
  (∀ (i : Instr) (u : EngineUnit) (s : State) (key : Nat) (c : Cell), engineUnit i = some u → u = .vector ∨ u = .table →
     CellIssues s key c i.captured → c.ctype = .vector →
     let code := regionsCode 0x400000 (commandRegions i c).1 (commandRegions i c).2
     (code ≠ 0 → exec i s = .next (s.raiseTrap (.aseq key) 0x0E code .fatal 0 0)) ∧
     (code = 0 → IssuesOrWaits s key c i u c.mdi)) ∧
  (∀ (i : Instr) (s : State) (key : Nat) (c : Cell), engineUnit i = some .gather → CellIssues s key c i.captured →
     c.ctype = .gather →
     let code := regionsCode 0x400000 (commandRegions i c).1 (commandRegions i c).2
     (code ≠ 0 → exec i s = .next (s.raiseTrap (.aseq key) 0x0E code .fatal 0 0)) ∧
     (code = 0 → IssuesOrWaits s key c i .gather c.mdi)) ∧
  (∀ (i : Instr) (s : State) (key : Nat) (c : Cell), CellIssues s key c i.captured →
     let size := if c.ctype = .matrix then 0x600000 else 0x400000
     let code := regionsCode size (commandRegions i c).1 (commandRegions i c).2
     (engineUnit i = some .copy → IssuesOrWaits s key c i .copy c.mdi) ∧
     (engineUnit i = some .link → code ≠ 0 → exec i s = .next (s.raiseTrap (.aseq key) 0x0E code .fatal 0 0)) ∧
     (engineUnit i = some .link → code = 0 → IssuesOrWaits s key c i .link c.mdi))

/-- The mask commands move MDI at issue: mpush one up unless eight levels are in use, mpop one down, and minv and mpop fault
on an empty stack (11 R254, R255, R260). bmz waits for the mask commands before it and branches when the top level is empty or
poisoned, which takes one cycle more (11 R257). -/
def Obligations.MaskCommands : Prop :=
  (∀ (s : State) (key : Nat) (c : Cell) (e : EngineFlags) (sA : BitVec 5), c.ctype = .vector →
     (CellIssues s key c [sA] →
       let code := regionsCode 0x400000 [(c.a.reg sA, 2)] true
       (code ≠ 0 → exec (.mpush e sA) s = .next (s.raiseTrap (.aseq key) 0x0E code .fatal 0 0)) ∧
       (code = 0 → c.mdi = 8 → exec (.mpush e sA) s = .next (s.raiseTrap (.aseq key) 0x0E 0x07 .fatal 0 0)) ∧
       (code = 0 → c.mdi < 8 → IssuesOrWaits s key c (.mpush e sA) .vector (c.mdi + 1))) ∧
     (CellIssues s key c [] → ∀ i m, (i = .minv e ∧ m = c.mdi) ∨ (i = .minvShort ∧ m = c.mdi) ∨
         (i = .mpop e ∧ m = c.mdi - 1) ∨ (i = .mpopShort ∧ m = c.mdi - 1) →
       (c.mdi = 0 → exec i s = .next (s.raiseTrap (.aseq key) 0x0E 0x08 .fatal 0 0)) ∧
       (c.mdi ≠ 0 → IssuesOrWaits s key c i .vector m))) ∧
  (∀ (off : BitVec 17) (s : State) (key : Nat) (c : Cell), CellIssues s key c [] → c.ctype = .vector →
     let m := c.mask (c.mdi - 1)
     (c.mskBusy = true → exec (.bmz off) s = .next s) ∧
     (c.mskBusy = false → c.mdi ≠ 0 → m.any = false ∨ m.psn = true → exec (.bmz off) s = .next (s.setCell key { c with
       a := { c.a with pos := c.a.pos.transfer (BitVec.ofInt 64 (c.a.pos.pc.toNat + 2 * off.toInt)), busy := 1 } })) ∧
     (c.mskBusy = false → c.mdi = 0 ∨ (m.any = true ∧ m.psn = false) →
       exec (.bmz off) s = .next (s.setCell key { c with a := c.a.retire 8 })))

/-- A waiting command starts once it is ready: it becomes active, and one that a check at its start fails becomes active and
failed without a change to memory, tags or marks, and with nothing to release (08 R180 to R182, R185; 10 R224). A command of
the table engine waits for its tables (23 R432); an acquire at die scope invalidates the die's read-only cache (06 R127, 07
R147). What keeps a waiting command waiting: an earlier command of its queue that waits or is suspended, or an earlier command
with a conflicting range (08 R180, R182; 09 R214). A stamped command starts on its stamp with no slip when it is ready and its
operands have arrived, an elastic one else later with its slip counted in SCHMISS, and a timed one that cannot start on its
stamp takes time fault 0x01 and then waits as elastic (16 R318, R319, R320, R446). Which operands have arrived, and for which
an elastic command waits past its stamp, is log 4. A tagged command claims the next tile that it touches when V is as its use
needs and no claim is held, in one step that leaves V; else it waits (08 R185, Table 8-5). -/
def Obligations.EngineCommandsStart : Prop :=
  (∀ (s : State) (key id : Nat) (c : Cell) (x : Cmd), s.cell? key = some c → c.cmd? id = some x → x.state = .queued →
     s.startsRun key c = true → (x.queue = 2 → s.rdymap0.getLsbD 2 = true) → c.ready (s.rangesOf key c) x = true →
     let f := engineForm s key c x
     let e := x.instr.flags
     let late := (slotUse x.instr).isSome
     let acq := if late && e.acq then s.rangeObjects key x.table f.ranges false else x.acqObjs
     let rel := if late && e.rel then s.rangeObjects key x.table f.ranges true else x.relObjs
     let slot := if x.queue = 4 then c.freeSlot else x.slot
     let started : Cmd := { x with state := .active, ranges := f.ranges, acqObjs := acq, startAt := none, fault := none }
     (x.startAt = none →
       (∀ code, s.startStatus key x f acq = some code → exec (.engineCommandStart key id) s =
         .next (s.setCmd key { started with relObjs := [], failed := some code, slot })) ∧
       (s.startStatus key x f acq = none → exec (.engineCommandStart key id) s = .next
         ((if f.deferred = true ∨ acq = [] then f.start.s else f.start.s.acquireScope (.aseq key) e.scope.toNat).setCmd key
         { started with relObjs := rel, aux := f.start.x.aux, slot := if x.queue = 5 then f.start.x.slot else slot }))) ∧
     (∀ t, x.startAt = some t → exec (.engineCommandStart key id) s = .next s)) ∧
  (∀ (s : State) (key id : Nat) (c : Cell) (x y : Cmd), s.cell? key = some c → c.cmd? id = some x → y ∈ c.cmds → y.id < x.id →
     (y.queue = x.queue ∧ (y.state = .queued ∨ y.state = .suspended)) ∨
       (slotUse x.instr = none ∧ slotUse y.instr = none ∧ ∃ a ∈ x.ranges, ∃ b ∈ y.ranges, a.tagged = false ∧ b.tagged = false ∧
         (a.write = true ∨ b.write = true) ∧ a.translated = b.translated ∧ a.len ≠ 0 ∧ b.len ≠ 0 ∧
         a.name < b.name + b.len ∧ b.name < a.name + a.len) →
     exec (.engineCommandStart key id) s = .next s) ∧
  (∀ (s : State) (key id : Nat) (c : Cell) (x : Cmd) (at_ : Word), s.cell? key = some c → c.cmd? id = some x →
     x.state = .queued → s.startsRun key c = true → (x.queue = 2 → s.rdymap0.getLsbD 2 = true) → x.startAt = some at_ →
     let ready := c.ready (s.rangesOf key c) x
     let slip := (s.now - at_).toNat
     let miss : Word := BitVec.ofNat 64 (min (c.schmiss.toNat / 2 ^ 32 + 1) (2 ^ 32 - 1) * 2 ^ 32 +
       min (c.schmiss.toNat % 2 ^ 32 + slip % 2 ^ 32) (2 ^ 32 - 1))
     (2 ^ 63 ≤ slip → exec (.stampStart key id) s = .next s) ∧
     (slip = 0 → ready = true → s.operandsArrived key c x = true → x.elastic = true ∧ x.fault = none ∨ x.elastic = false →
       exec (.stampStart key id) s = .next ((s.setCell key c).startCmd key c x)) ∧
     (x.elastic = true → ready = false ∨ (slip = 0 ∧ s.operandsArrived key c x = false) ∨ s.tilesArrived key c x = false →
       exec (.stampStart key id) s = .next s) ∧
     (0 < slip → slip < 2 ^ 32 → ready = true → s.tilesArrived key c x = true → x.elastic = true → x.fault = none →
       exec (.stampStart key id) s = .next ((s.setCell key { c with schmiss := miss }).startCmd key { c with schmiss := miss } x)) ∧
     (slip < 2 ^ 63 → ready = false ∨ slip ≠ 0 ∨ s.operandsArrived key c x = false → x.elastic = false → c.trap = none →
       exec (.stampStart key id) s = .next ((s.setCmd key { x with elastic := true, fault := some (0, at_) }).raiseTrap (.aseq key)
         0x0F 0x01 .replayable s.now (stampValue x.instr x.vals) true))) ∧
  (∀ (s : State) (key id : Nat) (r : Running) (t l : Nat) (w : Bool), s.running? key id = some r → r.x.failed = none →
     r.x.sent = false → r.x.prog < r.f.units → unitBy r.x r.f ≠ .held → r.x.wants (r.f.spans r.x.prog) = some (t, w) →
     s.tileLoc key t = some l →
     (s.tagC l = false → s.tagV l = !w → ∃ u, exec (.tagWait key id) s = .next u ∧ u.mem = s.mem ∧
       u.cmd? key id = some { r.x with claims := r.x.claims ++ [t] } ∧ u.tagC l = true ∧ (∀ k, u.tagV k = s.tagV k) ∧
       (∀ k, k / 4096 ≠ l / 4096 → u.tagC k = s.tagC k)) ∧
     (s.tagC l = true ∨ s.tagV l = w → exec (.tagWait key id) s = .next s))

/-- A command commits its units one by one: a unit whose writes are performed counts, and its tiles make their final changes;
one with mirrored writes counts once they are acknowledged, and its progress words come with it (13 R280, R286; 22 R420). A
unit that fails marks the command failed, and a replayable translation fault in a unit changes nothing but suspends the
command and stops its cell once (09 R213, 18 R347). A completion increments the counter that it names, failed or not; a failed
one adds to NERR, sets ERR and records its code, major and minor if none is recorded, and a successful one increments RELSEQ
of what it releases and changes no other byte. A command whose release fails has failed, and corrects its record first (07
R166; 08 R170, R171; 13 R284). A drain reports Sat of its tile, failed or not (02 R42, 10 R223; for a failed command the
model's reading, log 94). An object without its mark comes before one whose count is poisoned, which gives status 0x01, by log
27. -/
def Obligations.EngineCommandsWorkAndComplete : Prop :=
  ((∀ (s : State) (key id : Nat) (r : Running) (by_ : UnitBy) (i : Instr), s.running? key id = some r →
     by_ = .commit ∧ i = .granuleCommit key id ∨ by_ = .check ∧ i = .drainCheckResolve key id →
     (r.x.sent = true → unitBy r.x r.f = by_ → s.mirrorsOf key id = false → exec i s =
       .next (s.countUnit key r.f { r.x with aux := r.x.ahead, ahead := [] })) ∧
     (r.x.sent = true → s.mirrorsOf key id = true → exec i s = .next s) ∧
     (∀ w, r.due by_ = true → r.f.unit r.x.prog = .ok w → exec i s = .next
       (if w.s.mirrorsOf key w.x.id then w.s.setCmd key { w.x with sent := true, aux := r.x.aux, ahead := w.x.aux }
         else w.s.countUnit key r.f w.x)) ∧
     (∀ n, r.due by_ = true → r.f.unit r.x.prog = .fail n →
       exec i s = .next ((r.f.failing n).setCmd key { r.x with failed := some n })) ∧
     (∀ o a code, r.due by_ = true → r.f.unit r.x.prog = .fault o a code → exec i s = .next s ∧
       (r.x.queue ≠ 5 → o < 16 →
         let u := s.setCmd key { r.x with state := .suspended, fault := some (o, a) }
         exec (.translationReply (.aseq key) true id) s = .next (if r.c.trap = none then
           u.raiseTrap (.aseq key) 0x09 code .replayable (BitVec.ofNat 64 (r.x.queue + o * 2 ^ 16)) a true else u)))) ∧
   (∀ (s : State) (key : Nat) (f : Form) (x : Cmd), ∃ u y, s.countUnit key f x = u.setCmd key y ∧ u.mem = s.mem ∧ u.cells = s.cells ∧
     y.prog = x.prog + 1 ∧ y.sent = false ∧ y.failed = x.failed ∧ y.claims = x.claims ∧
     y.state = (if f.checked = true ∧ x.prog + 2 = f.units then .withheld else .active) ∧
     (f.spans = (fun _ => []) → u = s ∧ y.passed = x.passed) ∧
     (∀ t w l, f.checked = false → spansTiles (f.spans x.prog) = [(t, w)] → x.passed.contains t = false →
       f.laterTile (x.prog + 1) t = false → s.tileLoc key t = some l →
       y.passed = x.passed ++ [t] ∧ u.tagV l = w ∧ u.tagC l = false ∧
       (∀ k, k / 4096 ≠ l / 4096 → u.tagV k = s.tagV k ∧ u.tagC k = s.tagC k)) ∧
     (∀ t, f.checked = false → (∀ w, (t, w) ∈ spansTiles (f.spans x.prog) → f.laterTile (x.prog + 1) t = true) →
       (t ∈ y.passed ↔ t ∈ x.passed)))) ∧
  (∀ (s : State) (key id : Nat) (r : Running), s.running? key id = some r → s.completeDue key id = true →
     let e := r.x.instr.flags
     let n := e.cnt
     let completes (u : State) (failed : Option Nat) : Prop := ∀ c, u.cell? key = some c →
       let w := (c.cswOf n).toNat
       let sat := c.drainSat r.x.instr r.x.dtile
       ∃ t d, exec (.engineCommandComplete key id) s = .next t ∧ t.cell? key = some d ∧ d.cmd? id = none ∧
         (failed ≠ none ∨ r.x.relObjs = [] → t.mem = u.mem) ∧
         (failed = none → ∀ a, (∀ o ∈ r.x.relObjs, ∀ l, u.objectLoc (.aseq key) o = some l → a < l ∨ l + 8 ≤ a) →
           readByte t.mem a = readByte u.mem a) ∧
         (failed = none → r.x.relObjs.Nodup → (∀ o ∈ r.x.relObjs, ∀ p ∈ r.x.relObjs, ∀ l m, o ≠ p →
             u.objectLoc (.aseq key) o = some l → u.objectLoc (.aseq key) p = some m → l + 8 ≤ m ∨ m + 8 ≤ l) →
           ∀ o ∈ r.x.relObjs, ∀ l, u.objectLoc (.aseq key) o = some l → readLE t.mem l 8 = (readLE u.mem l 8 + 1) % 2 ^ 64) ∧
         (e.ce = false → d.cc = c.cc ∧ d.csw = c.csw) ∧
         (e.ce = true → (d.ccOf n).toNat = min ((c.ccOf n).toNat + 1) (2 ^ 32 - 1)) ∧
         (e.ce = true → failed = none → (c.ccOf n).toNat + 1 < 2 ^ 32 → d.cswOf n =
           c.cswOf n ||| BitVec.ofNat 64 (4 * sat.toNat + 8 * r.x.corr.toNat)) ∧
         (∀ code, e.ce = true → failed = some code → 0 < code → code < 256 → (c.ccOf n).toNat + 1 < 2 ^ 32 →
           let v := (d.cswOf n).toNat
           v % 2 = 1 ∧ v / 2 ^ 16 % 2 ^ 16 = min (w / 2 ^ 16 % 2 ^ 16 + 1) (2 ^ 16 - 1) ∧ (sat = true → v / 4 % 2 = 1) ∧
           (w / 2 ^ 56 ≠ 0 → v / 2 ^ 56 = w / 2 ^ 56) ∧
           (w / 2 ^ 32 = 0 → v / 2 ^ 56 = code ∧ v / 2 ^ 51 % 32 = r.x.instr.opcode.1 ∧ v / 2 ^ 47 % 16 = r.x.instr.opcode.2))
     (r.x.failed ≠ none → completes s r.x.failed) ∧
     (r.x.failed = none → s.objectsCode key r.x.relObjs = 0 → completes s none) ∧
     (∀ m, r.x.failed = none → s.objectsCode key r.x.relObjs = m → m ≠ 0 →
       let u := (r.f.failing m).setCmd key { r.x with failed := some m }
       (u.mirrorsOf key id = true → exec (.engineCommandComplete key id) s = .next u) ∧
       (u.mirrorsOf key id = false → completes u (some m))) ∧
     (∀ os, let lost := ∃ o ∈ os, s.objectMarked key o = false
       let bad := ∃ o ∈ os, ∃ l, s.objectLoc (.aseq key) o = some l ∧ s.poisoned l 8 = true
       (lost → s.objectsCode key os = 7) ∧ (¬lost → bad → s.objectsCode key os = 1) ∧ (¬lost → ¬bad → s.objectsCode key os = 0)))

/-- The one unit of mxclr zeroes its tile, and that of mxmv copies the elements within M and N, transposed under TR, with
every source element read first; no other tile changes (09 R210, Table 9-8). mxcks resolves its check: a clean tile changes
nothing, a corrected one has its element written and CORR noted, and any other outcome fails the command and changes no
element (10 R228, Table 10-4). -/
def Obligations.TileFormsAndChecks : Prop :=
  (∀ (s : State) (key id : Nat) (c : Cell) (x : Cmd) (e : EngineFlags) (tr : Bool) (tm : BitVec 2) (sD sT : BitVec 5),
     s.cell? key = some c → c.cmd? id = some x → x.state = .active → x.prog = 0 → x.failed = none → x.sent = false →
     s.mirrorsOf key id = false → s.enginesRun key c = true →
     let v := val x.vals 0
     let dst := v.toNat % 32
     let src := v.toNat / 2 ^ 8 % 32
     let m := v.toNat / 2 ^ 16 % 64 + 1
     let n := v.toNat / 2 ^ 24 % 64 + 1
     (x.instr = .mxclr e tm sD sT → ∃ t d, exec (.granuleCommit key id) s = .next t ∧ t.cell? key = some d ∧ t.mem = s.mem ∧
       d.cmd? id = some { x with prog := 1 } ∧ (∀ b i j, b < 32 → i < 64 → j < 64 → d.acc b i j = if b = dst then 0 else c.acc b i j) ∧
       (∀ b, d.tile b = if b = dst then Tile.clear else c.tile b)) ∧
     (x.instr = .mxmv e tr tm sD sT → c.poisonElems = [] → ∃ t d, exec (.granuleCommit key id) s = .next t ∧
       t.cell? key = some d ∧ t.mem = s.mem ∧ d.cmd? id = some { x with prog := 1 } ∧
       (∀ b i j, b < 32 → i < 64 → j < 64 → d.acc b i j = if b = dst ∧ i < m ∧ j < n then
         (if tr then c.acc src j i else c.acc src i j) else c.acc b i j) ∧
       d.tile dst = { Tile.clear with sat := (c.tile dst).sat || (c.tile src).sat, partialK := (c.tile dst).partialK } ∧
       (∀ b, b ≠ dst → d.tile b = c.tile b))) ∧
  (∀ (s : State) (key id : Nat) (c : Cell) (x : Cmd) (e : EngineFlags) (sD : BitVec 5), s.cell? key = some c → c.cmd? id = some x →
     x.state = .active → x.prog = 0 → x.failed = none → x.sent = false → s.mirrorsOf key id = false → s.enginesRun key c = true →
     x.instr = .mxcks e sD →
     c.poisonElems = [] →
     let dst := (val x.vals 0).toNat % 32
     let outcome := c.check dst (x.aux.getD 0 0)
     (outcome = .clean → ∃ t d, exec (.drainCheckResolve key id) s = .next t ∧ t.cell? key = some d ∧ t.mem = s.mem ∧
       d.elems = c.elems ∧ d.cmd? id = some { x with prog := 1 }) ∧
     (∀ i j v, outcome = .corrected i j v → i < 64 → j < 64 → ∃ t d, exec (.drainCheckResolve key id) s = .next t ∧
       t.cell? key = some d ∧ t.mem = s.mem ∧ d.cmd? id = some { x with prog := 1, corr := true } ∧
       (∀ b p q, p < 64 → q < 64 → d.acc b p q = if b = dst ∧ p = i ∧ q = j then v else c.acc b p q)) ∧
     (∀ code, outcome = .fails code → ∃ t d, exec (.drainCheckResolve key id) s = .next t ∧ t.cell? key = some d ∧ t.mem = s.mem ∧
       d.elems = c.elems ∧ d.cmd? id = some { x with failed := some code }))

/-- The sum of a granule's terms is exact: of finite terms it is their sum, a zero of it is -0 only when every term is -0, and
it is NaN when a term is (02 R37, R38). The operand elements of a granule are those of its format in the bytes read, row by
row, an MX-FP4 element with the scale of its block; a row or column of an implicit convolution is that of the padded image (09
R206, Table 9-7; 10 R236). A granule of mxmm, mxmma or mxcv adds, to every element within M and N and, under CK, to those of
the checksum row and column 63, the exact sum of the products of its row and its column: rounded to FP32, added and rounded
again, or added and saturated to INT32, which Sat notes. The elements of an mxmma source are rounded to BF16. No other element
changes, memory is left alone, and CV stays only where both have checksums (02 R37, R41; 09 R205 to R210; 10 R225, R236). A
row of mxld replaces the elements of its row of the tile, or is added to them in FP32 or, saturating, in INT32; CV is cleared
(09 R210, Table 9-8). The epilogue of an element: copied under OFMT 7, clamped where INT has no parameter and no function and
an integer format, and otherwise taken as FP32, scaled and biased in one rounding, put through its function and rounded once
to its output format, in the mode of RM with the draw of its site and position (02 R34; 10 R222, R223; 12 R264). A unit of
mxdrn writes the elements of its row, in order, at its place in the destination, and with statistics the record of its row;
one of mxdrs writes the record alone. No element changes (10 R223, R224). -/
def Obligations.MatrixResults : Prop :=
  ((∀ (ts : List FV) (k : Int), ts ≠ [] → k ≤ 0 → (∀ v ∈ ts, ∃ neg m e, v = .fin neg m e ∧ k ≤ e) →
     ∃ neg m e, sumFV ts = .fin neg m e ∧ k ≤ e ∧
       scaled neg m e k = (ts.map (fun v => match v with
         | .fin neg m e => scaled neg m e k
         | _ => 0)).sum ∧
       (m = 0 → (neg = true ↔ ∀ v ∈ ts, v.isZero = true ∧ v.sign = true))) ∧
   (∀ ts : List FV, FV.nan ∈ ts → sumFV ts = .nan)) ∧
  ((∀ (s : State) (key opnd fmt k g m stride : Nat) (base x : Word) (isB : Bool) (rows : Nat → List Byte) (sc : Nat → Byte), fmt < 7 →
     let size (n : Nat) : Nat := if fmt ≤ 1 then 2 * n else if fmt = 6 then (n + 1) / 2 else n
     let n := min 32 (k - 32 * g)
     (∀ i, i < m → s.engRead key opnd (base.toNat + i * stride + size (32 * g)) (size n) = .ok (rows i)) →
     (fmt = 6 → ∀ i, i < m → s.engRead key (opnd + 2) (x.toNat + i * ((k + 31) / 32) + g) 1 = .ok [sc i]) →
     ∃ A, s.readOperand key opnd fmt k g m stride base x isB = .ok A ∧ A.length = m ∧
       ∀ i, i < m → A.getD i [] = (List.range n).map (fun q =>
         let b (j : Nat) : Nat := ((rows i).getD j 0).toNat
         match fmt with
         | 0 => FV.ofBits bf16 (b (2 * q) + 256 * b (2 * q + 1))
         | 1 => FV.ofBits fp16 (b (2 * q) + 256 * b (2 * q + 1))
         | 2 => FV.ofBits e4m3 (b q)
         | 3 => FV.ofBits e5m2 (b q)
         | 4 => FV.ofBits (if isB then e5m2 else e4m3) (b q)
         | 5 => FV.ofInt (if b q < 128 then (b q : Int) else (b q : Int) - 256)
         | _ => mxValue (sc i).toNat (b (q / 2) / 16 ^ (q % 2) % 16))) ∧
   (∀ (d : BitVec 512) (v : MxVals) (i rr ss cc : Nat), 0 < shpC d → cc < shpC d → ss < shpS d →
     let p := (v.s.toNat % 2 ^ 32) + i
     let iy : Int := ((p / shpOW d * shpStrideH d + rr * shpDilH d : Nat) : Int) - (shpPadT d : Nat)
     let ix : Int := ((p % shpOW d * shpStrideW d + ss * shpDilW d : Nat) : Int) - (shpPadL d : Nat)
     convAddress d v i ((rr * shpS d + ss) * shpC d + cc) = if 0 ≤ iy ∧ iy < shpH d ∧ 0 ≤ ix ∧ ix < shpW d then
       some (v.a.toNat + iy.toNat * shpRowP d + ix.toNat * shpPixP d + cc * shpEb d) else none) ∧
   (∀ (s : State) (key : Nat) (d : BitVec 512) (v : MxVals) (i g len : Nat) (bs : Nat → List Byte),
     (∀ q a, q < len → convAddress d v i (32 * g + q) = some a → s.engRead key 1 a (shpEb d) = .ok (bs q)) →
     s.convRow key d v i g len = .ok ((List.range len).map (fun q => elementValue (shpFmt d) false 0
       (if (convAddress d v i (32 * g + q)).isSome then leValue (bs q) else shpPadV d))))) ∧
  (∀ (s : State) (key id : Nat) (r : Running) (e : EngineFlags) (fmt : BitVec 3) (k2 : BitVec 2) (ck new zs : Bool) (tm : BitVec 2)
     (sA sB sS sD sT sXA sXB : BitVec 5) (A B : List (List FV)), s.running? key id = some r → r.due .commit = true →
     r.c.poisonElems = [] →
     let v := val r.x.vals
     let f (w : Word) (hi lo : Nat) : Nat := w.toNat / 2 ^ lo % 2 ^ (hi + 1 - lo)
     let g := r.x.prog
     let takes (t m n k fmt : Nat) (ck : Bool) : Prop :=
       let sums (M : List (List FV)) : List FV :=
         (List.range (min 32 (k - 32 * g))).map (fun q => sumFV (M.map (·.getD q (.fin false 0 0))))
       let sum (i j : Nat) : FV := sumFV (List.zipWith FV.mul (if i < m then A.getD i [] else sums A) (if j < n then B.getD j [] else sums B))
       let total (i j : Nat) : Int := (r.c.acc t i j).toInt + (sum i j).intOf
       let inE (i j : Nat) : Prop := (i < m ∨ (ck = true ∧ i = 63)) ∧ (j < n ∨ (ck = true ∧ j = 63))
       ∃ u d, exec (.granuleCommit key id) s = .next u ∧ u.mem = s.mem ∧ u.cell? key = some d ∧
         (d.tile t).cv = (ck && (r.c.tile t).cv) ∧
         ((d.tile t).sat = true ↔ (r.c.tile t).sat = true ∨ (fmt = 5 ∧ ∃ i j, inE i j ∧ ¬(-(2 ^ 31) ≤ total i j ∧ total i j < 2 ^ 31))) ∧
         (∀ i j, i < 64 → j < 64 → inE i j → d.acc t i j = if fmt = 5 then BitVec.ofInt 32 (max (-(2 ^ 31)) (min (2 ^ 31 - 1) (total i j)))
           else roundFP32 .rne ((ofFP32 (r.c.acc t i j)).add .rne (ofFP32 (roundFP32 .rne (sum i j))))) ∧
         (∀ b i j, b < 32 → i < 64 → j < 64 → b ≠ t ∨ ¬inE i j → d.acc b i j = r.c.acc b i j)
     (r.x.instr = .mxmm e fmt ck new zs tm sA sB sS sD sT sXA sXB →
       let m := f (v 3) 21 16 + 1
       let n := f (v 3) 29 24 + 1
       s.readOperand key 1 fmt.toNat (f (v 3) 47 32) g m (f (v 2) 31 0) (v 0) (v 5) false = .ok A →
       s.readOperand key 2 fmt.toNat (f (v 3) 47 32) g n (f (v 2) 63 32) (v 1) (v 6) true = .ok B → (ck = true → m ≤ 63 ∧ n ≤ 63) →
       takes (f (v 3) 4 0) m n (f (v 3) 47 32) fmt.toNat ck) ∧
     (r.x.instr = .mxmma e new zs tm sB sS sD sT →
       let m := f (v 2) 21 16 + 1
       let n := f (v 2) 29 24 + 1
       let k := f (v 2) 47 32
       A = (List.range m).map (fun i => (List.range (min 32 (k - 32 * g))).map (fun q =>
         FV.ofBits bf16 (roundTo bf16 .rne false (ofFP32 (r.c.acc (f (v 2) 12 8) i (32 * g + q)))).bits)) →
       s.readOperand key 2 0 k g n (f (v 1) 63 32) (v 0) 0 true = .ok B → takes (f (v 2) 4 0) m n k 0 false) ∧
     (r.x.instr = .mxcv e k2 ck new zs tm sA sB sS sD sT →
       let d := wordsSlot r.x.aux
       let m := f (v 3) 21 16 + 1
       let n := f (v 3) 29 24 + 1
       let k := f (v 3) 47 32
       A.length = m → (∀ i, i < m → s.convRow key d (cvVals r.x.vals) i g (min 32 (k - 32 * g)) = .ok (A.getD i [])) →
       s.readOperand key 2 (shpFmt d) k g n (f (v 2) 63 32) (v 1) 0 true = .ok B → (ck = true → m ≤ 63 ∧ n ≤ 63) →
       takes (f (v 3) 4 0) m n k (shpFmt d) ck)) ∧
  (∀ (s : State) (key id : Nat) (r : Running) (e : EngineFlags) (accum i32 : Bool) (tm : BitVec 2) (sA sS sD sT : BitVec 5) (bs : List Byte),
     s.running? key id = some r → r.due .commit = true → r.c.poisonElems = [] → r.x.instr = .mxld e accum i32 tm sA sS sD sT →
     let v := val r.x.vals
     let t := (v 2).toNat % 32
     let n := (v 2).toNat / 2 ^ 24 % 64 + 1
     let i := r.x.prog
     s.engRead key 1 ((v 0).toNat + i * ((v 1).toNat % 2 ^ 32)) (4 * n) = .ok bs →
     let new (j : Nat) : BitVec 32 := BitVec.ofNat 32 (leValue ((bs.drop (4 * j)).take 4))
     ∃ u d, exec (.granuleCommit key id) s = .next u ∧ u.mem = s.mem ∧ u.cell? key = some d ∧ (d.tile t).cv = false ∧
       (∀ j, j < n → d.acc t i j = if accum = false then new j
         else if i32 then BitVec.ofInt 32 (max (-(2 ^ 31)) (min (2 ^ 31 - 1) ((r.c.acc t i j).toInt + (new j).toInt)))
         else roundFP32 .rne ((ofFP32 (r.c.acc t i j)).add .rne (ofFP32 (new j)))) ∧
       (∀ b p j, b < 32 → p < 64 → j < 64 → b ≠ t ∨ p ≠ i ∨ n ≤ j → d.acc b p j = r.c.acc b p j)) ∧
  ((∀ (d : BitVec 512) (tblver : Word) (seed : BitVec 32) (pos : Nat) (ps : List Byte) (i j : Nat) (x : BitVec 32),
     let f (hi lo : Nat) : Nat := d.toNat / 2 ^ lo % 2 ^ (hi + 1 - lo)
     let o := f 3 0
     let int : Bool := d.getLsbD 8
     let params : Bool := f 10 9 != 0 || f 12 11 != 0
     let plain : Bool := int && !params && f 23 16 == 0
     let out := epilogueElem d tblver seed pos ps i j x
     (o = 7 → out.bits = x.toNat) ∧
     (o = 5 → plain = true → out.bits = (BitVec.ofInt 8 (max (-128) (min 127 x.toInt))).toNat) ∧
     (o = 6 → plain = true → out.bits = x.toNat) ∧
     (o < 7 → o < 5 ∨ plain = false →
       let p (n : Nat) : FV := FV.ofBits fp32 (leValue ((ps.drop (4 * n)).take 4))
       let v0 := if int then ofFP32 (roundFP32 .rne (FV.ofInt x.toInt)) else ofFP32 x
       let sc := if f 10 9 = 1 then p i else if f 10 9 = 2 then p j else .fin false 1 0
       let bi := if f 12 11 = 1 then p (64 + i) else if f 12 11 = 2 then p (64 + j) else .fin false 0 0
       let v1 := if params then ofFP32 (roundFP32 .rne ((v0.mul sc).add .rne bi)) else v0
       let v2 := if f 23 16 = 0 then v1 else ofFP32 (roundFP32 .rne (tableValue tblver (f 23 16) v1))
       let mode : Mode := match f 6 4 with
         | 0 => .rne
         | 1 => .rtz
         | 2 => .rup
         | 3 => .rdn
         | _ => .rsr (rndh (seed ^^^ d.extractLsb' 32 32) (BitVec.ofNat 32 (pos + 64 * i + j)))
       let rounded (fm : Fmt) : Nat := (roundTo fm mode (d.getLsbD 7) v2).bits
       out.v = v2 ∧ out.bits = match o with
         | 0 => rounded fp32
         | 1 => rounded bf16
         | 2 => rounded fp16
         | 3 => rounded e4m3
         | 4 => rounded e5m2
         | 5 => (BitVec.ofInt 8 (v2.toInt mode 8)).toNat
         | _ => (BitVec.ofInt 32 (v2.toInt mode 32)).toNat)) ∧
   (statsRecord 1 [] = 0 ∧ ∀ (vs : List FV) (v : FV),
     let old (k : Nat) : FV := FV.ofBits fp32 (statsRecord 1 vs / 2 ^ (32 * k) % 2 ^ 32)
     statsRecord 1 (vs ++ [v]) = (roundFP32 .rne ((old 0).add .rne v)).toNat +
       (roundFP32 .rne ((v.mul v).add .rne (old 1))).toNat * 2 ^ 32) ∧
   (∀ (v : FV) (vs : List FV), statsRecord 2 (v :: vs) =
     (roundFP32 .rne (vs.foldl FV.max v)).toNat + (roundFP32 .rne (vs.foldl FV.min v)).toNat * 2 ^ 32)) ∧
  (∀ (s : State) (key id : Nat) (r : Running) (e : EngineFlags) (k : BitVec 2) (ck : Bool) (tm : BitVec 2) (sA sB sS sD sT : BitVec 5)
     (ps : List Byte) (ls rs : List (Option Nat × Nat)), s.running? key id = some r → r.due .commit = true → r.c.poisonElems = [] →
     let v := val r.x.vals
     let d := wordsSlot (r.x.aux.drop 1)
     let f (w : Word) (hi lo : Nat) : Nat := w.toNat / 2 ^ lo % 2 ^ (hi + 1 - lo)
     let o := d.toNat % 16
     let eb := if o = 1 ∨ o = 2 then 2 else if o = 3 ∨ o = 4 ∨ o = 5 then 1 else 4
     let stm := d.toNat / 2 ^ 13 % 4
     let i := r.x.prog
     let out (pos t j : Nat) : OutElem := epilogueElem d s.tblver (s.seedOf key) pos ps i j (r.c.acc t i j)
     let stats (pos t n : Nat) : List Byte := leBytes 8 (statsRecord stm ((List.range n).map (fun j => (out pos t j).v)))
     let leaves (u : State) : Prop := ∃ t c, exec (.granuleCommit key id) s = .next t ∧ t.mem = u.mem ∧ t.cell? key = some c ∧ c.elems = r.c.elems
     (if d.toNat / 2 ^ 9 % 4 ≠ 0 ∨ d.toNat / 2 ^ 11 % 4 ≠ 0 then s.engRead key 7 (descParam d).toNat 512 = .ok ps else ps = []) →
     (r.x.instr = .mxdrn e k ck tm sA sB sS sD sT →
       let n := f (v 3) 29 24 + 1
       let t := f (v 3) 4 0
       let row := (v 0).toNat + i * f (v 2) 31 0
       let u := s.engWrite key r.x.id row ls ((List.range n).flatMap (fun j => leBytes eb (out (f (v 2) 63 32) t j).bits))
       s.engDest key 5 row (n * eb) = .ok ls →
       (stm = 0 → leaves u) ∧
       (stm ≠ 0 → s.engDest key 6 ((v 1).toNat + 8 * i) 8 = .ok rs →
         leaves (u.engWrite key r.x.id ((v 1).toNat + 8 * i) rs (stats (f (v 2) 63 32) t n)))) ∧
     (r.x.instr = .mxdrs e k ck tm sB sD sT → stm ≠ 0 → s.engDest key 6 ((v 0).toNat + 8 * i) 8 = .ok rs →
       leaves (s.engWrite key r.x.id ((v 0).toNat + 8 * i) rs (stats 0 (f (v 1) 4 0) (f (v 1) 29 24 + 1)))))

/-- Op of the element forms of the vector unit, on the values that the elements stand for: floating point exact and rounded
once in the mode of RM with the draw of the element, integers modulo 2^w or saturated (02 R33, R34; 11 R245, R249 to R251,
Tables 11-6 and 11-7). Elements lie in the own slice at the offset, stride and size of their region, MX-FP4 codes two to a
byte, the lower half first; a group of an element form writes the results of those of its 64 indices that the mask of the
command enables, and no byte else; vrsc scales the elements of each row by its own B and C, and conversions from and to MX-FP4
take blocks of 32 with one scale (02 R28, R29; 11 R237 to R242, R248, R251, R252, R256). vrsc here has rows that end with
their group; a row that goes on waits in the command (log 91). A row form passes over its elements in groups and carries its
partial row in the command; a row gives the running sums, extremes or prefixes of its enabled elements, and the sums of vred
and vdot are taken in granules of 32, each exact, rounded and then added (11 R241, R242, R252, R253). mpush fills the slot
above the current level with the enabled indices whose predicate is not zero, minv complements the top level within the level
below it, mpop clears the poison of the slot that it leaves; ANY says that a bit is set, and other slots stay (11 R254 to
R256). tfn and tfnx give the function of each element, of tfnx that of the product and sum rounded to FP32, rounded once; tver
writes TBLVER, and tvchk fails with 0x18 where a version asked for is not there. Special operands have the results of Table
12-2 in every version, and exp2 of integers and recip and log2 of powers of two are exact in version 1; the functions of other
versions are free values (12 R265 to R268, R272, Table 12-2). -/
def Obligations.VectorResults : Prop :=
  ((∀ (fl : EngineFlags) (rm : BitVec 3) (f : BitVec 2) (um bias : Bool) (d1 d2 d3 d4 d5 : BitVec 5) (seed : BitVec 32) (aux : Word)
       (k a b c : Nat),
     let fm : Fmt := match f.toNat with
       | 0 => fp32
       | 1 => bf16
       | 2 => fp16
       | _ => fp64
     let A := FV.ofBits fm a
     let B := FV.ofBits fm b
     let C := FV.ofBits fm c
     let mode : Mode := match rm.toNat with
       | 0 => .rne
       | 1 => .rtz
       | 2 => .rup
       | 3 => .rdn
       | _ => .rsr (rndh (seed ^^^ BitVec.ofNat 32 (aux.toNat % 2 ^ 32)) (BitVec.ofNat 32 (aux.toNat / 2 ^ 32 % 2 ^ 16 * 65536 + k)))
     let out (i : Instr) : Nat := (vop i seed aux bias k a b c).bits
     let rnd (v : FV) (sticky : Bool) : Nat := (roundTo fm mode false v sticky).bits
     let sign (n : Nat) : Nat := n / 2 ^ (fm.width - 1) % 2
     let mag := a % 2 ^ (fm.width - 1)
     out (.vadd fl rm f um d1 d2 d3 d4) = rnd (A.add mode B) false ∧
     out (.vsub fl rm f um d1 d2 d3 d4) = rnd (A.add mode B.neg) false ∧
     out (.vmul fl rm f um d1 d2 d3 d4) = rnd (A.mul B) false ∧
     out (.vdiv fl rm f um d1 d2 d3 d4) = rnd (A.div B).1 (A.div B).2 ∧
     out (.vfma fl rm f um d1 d2 d3 d4 d5) = rnd ((A.mul B).add mode C) false ∧
     out (.vsqrt fl rm f um d1 d2 d3) = rnd A.sqrt.1 A.sqrt.2 ∧
     out (.vmin fl f um d1 d2 d3) = (roundTo fm .rne false (A.min B)).bits ∧
     out (.vmax fl f um d1 d2 d3) = (roundTo fm .rne false (A.max B)).bits ∧
     out (.vsgn fl f 0 um d1 d2 d3) = mag ∧
     out (.vsgn fl f 1 um d1 d2 d3) = mag + (1 - sign a) * 2 ^ (fm.width - 1) ∧
     out (.vsgn fl f 2 um d1 d2 d3) = mag + sign b * 2 ^ (fm.width - 1) ∧
     (∀ p ∈ [((0 : BitVec 3), A.eq B), (1, !A.eq B), (2, A.lt B), (3, A.le B), (4, B.lt A), (5, B.le A), (6, A.isNaN || B.isNaN)],
       out (.vcmp fl p.1 f um d1 d2 d3) = if p.2 then 1 else 0) ∧
     out (.vrsc fl rm f um d1 d2 d3 d4 d5) =
       (let p := A.mul (FV.ofBits fp32 b)
        rnd (if bias then p.add mode (FV.ofBits fp32 c) else p) false)) ∧
   (∀ (fl : EngineFlags) (iw sat : BitVec 2) (um bias : Bool) (d1 d2 d3 d4 : BitVec 5) (seed : BitVec 32) (aux : Word) (k a b c w : Nat),
     w = 8 * 2 ^ iw.toNat → a < 2 ^ w → b < 2 ^ w →
     let X := BitVec.ofNat w a
     let Y := BitVec.ofNat w b
     let out (i : Instr) : Nat := (vop i seed aux bias k a b c).bits
     let hi : Int := 2 ^ (w - 1) - 1
     let clamp (v : Int) : Nat := (BitVec.ofInt w (max (-(2 ^ (w - 1))) (min hi v))).toNat
     let test (p : Bool) : Nat := if p then 1 else 0
     (sat = 0 → out (.viadd fl iw sat um d1 d2 d3) = (X + Y).toNat ∧ out (.visub fl iw sat um d1 d2 d3) = (X - Y).toNat ∧
       out (.vimul fl 0 iw sat um d1 d2 d3) = (X * Y).toNat) ∧
     (sat = 1 → out (.viadd fl iw sat um d1 d2 d3) = clamp (X.toInt + Y.toInt) ∧
       out (.visub fl iw sat um d1 d2 d3) = clamp (X.toInt - Y.toInt) ∧ out (.vimul fl 0 iw sat um d1 d2 d3) = clamp (X.toInt * Y.toInt)) ∧
     (sat = 2 → out (.viadd fl iw sat um d1 d2 d3) = min (a + b) (2 ^ w - 1) ∧ out (.visub fl iw sat um d1 d2 d3) = a - b ∧
       out (.vimul fl 0 iw sat um d1 d2 d3) = min (a * b) (2 ^ w - 1)) ∧
     out (.vimul fl 1 iw sat um d1 d2 d3) = (BitVec.ofInt w (X.toInt * Y.toInt / 2 ^ w)).toNat ∧
     out (.vimul fl 2 iw sat um d1 d2 d3) = a * b / 2 ^ w ∧
     (∀ p ∈ [((0 : BitVec 3), X &&& Y), (1, X ||| Y), (2, X ^^^ Y), (3, X &&& ~~~Y), (4, if X.slt Y then X else Y),
         (5, if X.slt Y then Y else X), (6, if X.ult Y then X else Y), (7, if X.ult Y then Y else X)],
       out (.vilog fl p.1 iw um d1 d2 d3) = p.2.toNat) ∧
     (∀ p ∈ [((0 : BitVec 3), X <<< (b % w)), (1, X >>> (b % w)), (2, X.sshiftRight (b % w))],
       out (.vishf fl p.1 iw um d1 d2 d3) = p.2.toNat) ∧
     (∀ p ∈ [((0 : BitVec 3), X == Y), (1, X != Y), (2, X.slt Y), (3, X.ult Y), (4, X.sle Y), (5, X.ule Y)],
       out (.vicmp fl p.1 iw um d1 d2 d3) = test p.2) ∧
     out (.vsel fl iw um d1 d2 d3 d4) = (if c = 0 then b else a) ∧ out (.vbcast fl iw um d1 d2) = a) ∧
   (∀ (df sf : Nat) (mode : Mode) (sat : Bool) (x : Nat), df < 9 → sf < 9 →
     let width (f : Nat) : Nat := if f = 6 then 8 else if f = 7 then 32 else 64
     let fm (f : Nat) : Fmt := match f with
       | 0 => fp32
       | 1 => bf16
       | 2 => fp16
       | 3 => fp64
       | 4 => e4m3
       | _ => e5m2
     let int := (BitVec.ofNat (width sf) x).toInt
     (cvtElem df sf mode sat x).bits = if df < 6 then
         (roundTo (fm df) mode sat (if sf < 6 then FV.ofBits (fm sf) x else FV.ofInt int)).bits
       else if sf < 6 then (BitVec.ofInt (width df) ((FV.ofBits (fm sf) x).toInt mode (width df))).toNat
       else (BitVec.ofInt (width df) int).toNat)) ∧
  ((∀ (s : State) (key eb2 e : Nat) (v : Word) (bs : List Byte), 0 < eb2 →
     let r := regionOf v eb2
     let stride := (BitVec.ofNat 16 (v.toNat / 2 ^ 24)).toInt
     let at_ := 0x3000000000000000 + (if r.count ≤ 1 then v.toNat % 2 ^ 24 else if eb2 = 1 then v.toNat % 2 ^ 24 + e / 2
       else ((v.toNat % 2 ^ 24 : Nat) + e * stride * ((eb2 + 1) / 2 : Nat) : Int).toNat)
     r.count = v.toNat / 2 ^ 40 % 2 ^ 16 ∧ r.addr e = at_ ∧
     (s.engRead key 0 at_ ((eb2 + 1) / 2) = .ok bs →
       readElem s key r e = .ok (if eb2 ≠ 1 then leValue bs else if e % 2 = 0 then leValue bs % 16 else leValue bs / 16))) ∧
   (∀ (s : State) (key id : Nat) (r : Running) (a b c : List Nat) (u : State), s.running? key id = some r → r.due .commit = true →
     engineUnit r.x.instr = some .vector →
     let i := r.x.instr
     let g := vregs i r.x.vals
     let d := VRegs.reg g.d
     let q := r.x.prog
     let n := min 64 (d.count - 64 * q)
     let aux := vaux i r.x.vals
     let seed := s.seedOf key
     let on (e : Nat) : Bool := vum i || r.x.maskLevel == 0 || (r.c.mask (r.x.maskLevel - 1)).bits.getLsbD e
     let leaves : Prop := ∃ t, exec (.granuleCommit key id) s = .next t ∧ t.mem = u.mem
     let results (f : Nat → Nat) : List (Nat × List Byte) :=
       ((List.range n).filter (fun j => on (64 * q + j))).map (fun j => (d.addr (64 * q + j), leBytes d.eb (f j)))
     let op (j : Nat) : Nat := (vop i seed aux g.c.isSome (64 * q + j) (a.getD j 0) (b.getD j 0) (c.getD j 0)).bits
     readElems s key (VRegs.reg g.a) (groupOf d.count q) = .ok a →
     (isRowForm i = false → (∀ e rm df um sat p1 p2 sf p3 p4, i = .vcvt e rm df um sat p1 p2 sf p3 p4 → df ≠ 9 ∧ sf ≠ 9) →
       readOpt s key (g.b.map VRegs.reg) (groupOf d.count q) = .ok b → readOpt s key (g.c.map VRegs.reg) (groupOf d.count q) = .ok c →
       writeGroup s key r.x.id 0 (results op) = .ok u → leaves) ∧
     (∀ e rm f um p1 p2 p3 p4 p5, i = .vrsc e rm f um p1 p2 p3 p4 p5 →
       let l := if aux.toNat / 2 ^ 48 = 0 then d.count else aux.toNat / 2 ^ 48
       r.x.aux = [] → 0 < l → d.count % l = 0 → 64 % l = 0 ∨ (d.count ≤ 64 ∧ q = 0) →
       readOpt s key (g.b.map VRegs.reg) ((groupOf d.count q).map (· / l)) = .ok b →
       readOpt s key (g.c.map VRegs.reg) ((groupOf d.count q).map (· / l)) = .ok c →
       writeGroup s key r.x.id 0 (results op) = .ok u → leaves) ∧
     (∀ e rm (df : BitVec 4) um sat p1 p2 (sf : BitVec 5) p3 p4, i = .vcvt e rm df um sat p1 p2 sf p3 p4 →
       (sf = 9 → um = true → readOpt s key (g.c.map VRegs.reg) ((groupOf d.count q).map (· / 32)) = .ok c →
         writeGroup s key r.x.id 0 (results (fun j => (roundTo (vfmt df.toNat) (elemMode rm.toNat seed aux (64 * q + j)) sat
           (mxValue (c.getD j 0) (a.getD j 0))).bits)) = .ok u → leaves) ∧
       (df = 9 → sf ≠ 9 → ∀ cr, g.c = some cr →
         let vals := a.map (fun x => if 6 ≤ sf.toNat then FV.ofInt (signedOf (intWidth sf.toNat) x) else FV.ofBits (vfmt sf.toNat) x)
         let z (k : Nat) := mxQuantise (fun j => elemMode rm.toNat seed aux (64 * q + 32 * k + j)) ((vals.drop (32 * k)).take 32)
         let block (k : Nat) : List (Nat × List Byte) := if n ≤ 32 * k then [] else
           [(d.addr (64 * q + 32 * k), packNibbles (z k).2), ((VRegs.reg cr).addr (2 * q + k), leBytes 1 (z k).1)]
         writeGroup s key r.x.id 0 (block 0 ++ block 1) = .ok u → leaves)))) ∧
  ((∀ (s : State) (key id : Nat) (r : Running) (f : Nat) (a b : List Nat) (u : State), s.running? key id = some r →
     r.due .commit = true → rowFmt r.x.instr = some f →
     let i := r.x.instr
     let g := vregs i r.x.vals
     let ra := VRegs.reg g.a
     let es := groupOf ra.count r.x.prog
     let aux := vaux i r.x.vals
     let l := if aux.toNat / 2 ^ 48 = 0 then ra.count else aux.toNat / 2 ^ 48
     let on (e : Nat) : Bool := vum i || r.x.maskLevel == 0 || (r.c.mask (r.x.maskLevel - 1)).bits.getLsbD e
     let fold := (es.zip (a.zip b)).foldl (fun acc p =>
       let y := rowElem i (accFmt f) f l acc.1 p.1 (on p.1) p.2.1 p.2.2
       (y.1, acc.2 ++ y.2)) (RowState.ofWords r.x.aux, [])
     readElems s key ra es = .ok a →
     (match g.b with
      | some q => readElems s key (VRegs.reg q) (es.map (fun e => if (VRegs.reg q).count = ra.count then e else e % l)) = .ok b
      | none => b = es.map (fun _ => 0)) →
     writeGroup s key r.x.id 0 (fold.2.map (fun o => ((VRegs.reg g.d).addr o.1, leBytes (VRegs.reg g.d).eb o.2.bits))) = .ok u →
     u.mirrorsOf key id = false → ∃ t y, exec (.granuleCommit key id) s = .next t ∧ t.mem = u.mem ∧ t.cmd? key id = some y ∧
       y.aux = fold.1.toWords) ∧
   (∀ r : RowState, r.p.bits < 2 ^ 64 → r.q.bits < 2 ^ 64 → (∀ t ∈ r.terms, t.1 < 2 ^ 64 ∧ t.2 < 2 ^ 64) →
     RowState.ofWords r.toWords = r) ∧
   (∀ (fl : EngineFlags) (um : Bool) (f2 op : BitVec 2) (x1 x2 x3 x4 : BitVec 5) (i : Instr) (l row : Nat) (r0 : RowState)
       (vs : List (Bool × Nat × Nat)), vs.length = l → 0 < l →
     let src := f2.toNat
     let fa := if src = 3 then fp64 else fp32
     let val (x : Nat) : FV := FV.ofBits (vfmt src) x
     let rnd (v : FV) : Nat := (roundTo fa .rne false v).bits
     let acc (x : Nat) : FV := FV.ofBits fa x
     let out : List (Nat × Nat) := ((((List.range l).zip vs).foldl (fun st p =>
       let y := rowElem i (accFmt src) src l st.1 (row * l + p.1) p.2.1 p.2.2.1 p.2.2.2
       (y.1, st.2 ++ y.2)) (r0, [])).2).map (fun o => (o.1, o.2.bits))
     let fold (z : FV) (g : FV → FV → FV) (n : Nat) : Nat :=
       (((vs.take n).filter (·.1)).map (·.2.1)).foldl (fun p a => rnd (g (acc p) (val a))) (rnd z)
     let zero : FV := .fin false 0 0
     let granules (term : Nat × Nat → FV) : Nat := (List.range ((l + 31) / 32)).foldl (fun p k =>
       rnd ((acc p).add .rne (acc (rnd (sumFV (((((vs.drop (32 * k)).take 32).filter (·.1)).map (·.2)).map term)))))) (rnd zero)
     (i = .vred fl f2 op um x1 x2 x3 → out = [(row, match op.toNat with
       | 0 => granules (fun t => val t.1)
       | 1 => fold (.inf true) FV.max l
       | 2 => fold (.inf false) FV.min l
       | _ => fold zero (fun p a => p.max a.abs) l)]) ∧
     (i = .vdot fl f2 um x1 x2 x3 x4 → out = [(row, granules (fun t => (val t.1).mul (val t.2)))]) ∧
     (i = .vrst fl f2 op um x1 x2 x3 → out = [(2 * row, if op = 1 then fold (.inf true) FV.max l else fold zero (FV.add .rne) l),
       (2 * row + 1, if op = 1 then fold (.inf false) FV.min l else fold zero (fun p a => (a.mul a).add .rne p) l)]) ∧
     (i = .vscan fl f2 op um x1 x2 x3 → out = (List.range l).map (fun j => (row * l + j, match op.toNat with
       | 0 => fold zero (FV.add .rne) (j + 1)
       | 1 => fold zero (FV.add .rne) j
       | 2 => fold (.inf true) FV.max (j + 1)
       | _ => fold (.inf false) FV.min (j + 1)))))) ∧
  (∀ (s : State) (key id : Nat) (r : Running) (e : EngineFlags) (sA : BitVec 5) (bs : List Nat), s.running? key id = some r →
     r.due .commit = true →
     let below (k j : Nat) : Bool := k == 0 || (r.c.mask (k - 1)).bits.getLsbD j
     let puts (k : Nat) (m : MaskSlot → Prop) : Prop := ∃ t d, exec (.granuleCommit key id) s = .next t ∧ t.mem = s.mem ∧
       t.cell? key = some d ∧ m (d.mask k) ∧ ∀ j, j < 8 → j ≠ k → d.mask j = r.c.mask j
     let region := regionOf (val r.x.vals 0) 2
     (r.x.instr = .mpush e sA → r.x.maskLevel < 8 → readElems s key region (List.range region.count) = .ok bs →
       puts r.x.maskLevel (fun m => m.psn = false ∧ (m.any = true ↔ m.bits ≠ 0) ∧
         ∀ j, j < 65536 → m.bits.getLsbD j = (below r.x.maskLevel j && decide (j < region.count) && bs.getD j 0 != 0))) ∧
     (r.x.instr = .minv e ∨ r.x.instr = .minvShort → 0 < r.x.maskLevel → r.x.maskLevel ≤ 8 →
       puts (r.x.maskLevel - 1) (fun m => m.psn = false ∧ (m.any = true ↔ m.bits ≠ 0) ∧ ∀ j, j < 65536 →
         m.bits.getLsbD j = (!(r.c.mask (r.x.maskLevel - 1)).bits.getLsbD j && below (r.x.maskLevel - 1) j))) ∧
     (r.x.instr = .mpop e ∨ r.x.instr = .mpopShort → 0 < r.x.maskLevel → r.x.maskLevel ≤ 8 →
       puts (r.x.maskLevel - 1) (fun m => m = { r.c.mask (r.x.maskLevel - 1) with psn := false }))) ∧
  ((∀ (s : State) (key id : Nat) (r : Running) (e : EngineFlags) (fn : BitVec 4) (f : BitVec 2) (sr : Bool) (sD sA sB sC sE : BitVec 5)
       (a b c : List Nat) (u : State), s.running? key id = some r → r.due .commit = true →
     let v := val r.x.vals
     let fm : Fmt := match f.toNat with
       | 0 => fp32
       | 1 => bf16
       | 2 => fp16
       | _ => fp64
     let reg (k : Nat) : Region := regionOf (v k) (if f = 0 then 8 else if f = 3 then 16 else 4)
     let q := r.x.prog
     let n := min 64 ((reg 0).count - 64 * q)
     let mode (aux : Word) (j : Nat) : Mode := if sr then .rsr (rndh (s.seedOf key ^^^ BitVec.ofNat 32 (aux.toNat % 2 ^ 32))
       (BitVec.ofNat 32 (aux.toNat / 2 ^ 32 % 2 ^ 16 * 65536 + (64 * q + j)))) else .rne
     let results (aux : Word) (x : Nat → FV) : List (Nat × List Byte) := (List.range n).map (fun j => ((reg 0).addr (64 * q + j),
       leBytes (reg 0).eb (roundTo fm (mode aux j) false (tableValue s.tblver fn.toNat (x j))).bits))
     let leaves (u : State) : Prop := ∃ t, exec (.granuleCommit key id) s = .next t ∧ t.mem = u.mem
     (r.x.instr = .tfn e fn f sr sD sA sE → readElems s key (reg 1) (groupOf (reg 0).count q) = .ok a →
       writeGroup s key r.x.id 0 (results (v 2) (fun j => FV.ofBits fm (a.getD j 0))) = .ok u → leaves u) ∧
     (r.x.instr = .tfnx e fn f sr sD sA sB sC sE → readElems s key (reg 1) (groupOf (reg 0).count q) = .ok a →
       readElems s key (reg 2) (groupOf (reg 0).count q) = .ok b → readElems s key (reg 3) (groupOf (reg 0).count q) = .ok c →
       writeGroup s key r.x.id 0 (results (v 4) (fun j => ofFP32 (roundFP32 .rne
         (((FV.ofBits fm (a.getD j 0)).mul (FV.ofBits fm (b.getD j 0))).add .rne (FV.ofBits fm (c.getD j 0)))))) = .ok u → leaves u) ∧
     (r.x.instr = .tver e sD → writeGroup s key r.x.id 0 [((regionOf (v 0) 16).addr 0, leBytes 8 s.tblver.toNat)] = .ok u → leaves u) ∧
     (r.x.instr = .tvchk e sA → ∀ x, readElem s key (regionOf (v 0) 16) 0 = .ok x → x < 2 ^ 64 →
       let field (w k : Nat) : Nat := w / 2 ^ (4 * k) % 16
       let missing : Prop := x / 2 ^ 48 ≠ 0 ∨ ∃ k, k < 12 ∧ field x k ≠ 0 ∧ field x k ≠ field s.tblver.toNat k
       (missing → exec (.granuleCommit key id) s = .next (s.setCmd key { r.x with failed := some 0x18 })) ∧ (¬missing → leaves s))) ∧
   (∀ (ver : Word) (m : Nat) (e : Int), 0 < m →
     let zero (n : Bool) : FV := .fin n 0 0
     let one (n : Bool) : FV := .fin n 1 0
     (∀ p ∈ [(1, FV.inf false, zero false, one false, one false), (2, .inf false, zero false, one false, one false),
         (3, .inf false, .nan, .inf true, .inf true), (4, zero false, zero true, .inf false, .inf true),
         (5, zero false, .nan, .inf false, .inf true), (6, one false, zero false, .fin false 1 (-1), .fin false 1 (-1)),
         (7, one false, one true, zero false, zero true), (8, .inf false, zero true, zero false, zero true),
         (9, .inf false, zero true, zero false, zero true), (10, .inf false, zero true, zero false, zero true),
         (11, .nan, .nan, zero false, zero true), (12, .nan, .nan, one false, one false)],
       tableValue ver p.1 .nan = .nan ∧ tableValue ver p.1 (.inf false) = p.2.1 ∧ tableValue ver p.1 (.inf true) = p.2.2.1 ∧
       tableValue ver p.1 (.fin false 0 e) = p.2.2.2.1 ∧ tableValue ver p.1 (.fin true 0 e) = p.2.2.2.2) ∧
     tableValue ver 3 (.fin true m e) = .nan ∧ tableValue ver 5 (.fin true m e) = .nan) ∧
   (∀ (ver : Word), (∀ k, k < 12 → ver.toNat / 2 ^ (4 * k) % 16 = 1) →
     (∀ n : Int, -1000 ≤ n → n ≤ 1000 → n ≠ 0 → (tableValue ver 2 (FV.ofInt n)).eq (.fin false 1 n) = true) ∧
     (∀ (neg : Bool) (e : Int), (tableValue ver 4 (.fin neg 1 e)).eq (.fin neg 1 (-e)) = true) ∧
     (∀ e : Int, (tableValue ver 3 (.fin false 1 e)).eq (FV.ofInt e) = true)))

/-- A granule of a copy is 256 bytes of the job, cut at its rows; its unit reads them from the source, or forms them from the
fill pattern, and writes them to each destination, of a multicast to every target, and carries the CRC-64 on, most significant
bit first. The last unit writes the record with the bytes, the code and the CRC; that of a failed copy has the bytes of the
granules made (13 R279 to R281, R284, Table 13-4). Bytes that an engine command writes land at their places and nowhere else,
bytes that it reads are those of their places, and the elements of a group that adjoin are written as one run (06 R132; 11
R242; 22 R416). -/
def Obligations.CopyResults : Prop :=
  ((∀ (j : CopyJob) (g : Nat),
     (j.granule g).flatMap (fun p => (List.range p.2.2).map (fun t => (p.1, p.2.1 + t))) =
       (List.range (min 256 (j.nb - 256 * g))).map (fun b => ((256 * g + b) / j.rowB, (256 * g + b) % j.rowB)) ∧
     ∀ p ∈ j.granule g, 0 < p.2.2 ∧ p.2.1 + p.2.2 ≤ j.rowB) ∧
   (∀ (c : Word) (bs : List Byte), crc64 c bs = (bs.flatMap (fun b => (List.range 8).map (fun k => b.getLsbD (7 - k)))).foldl
     (fun (c : Word) (bit : Bool) => if c.getLsbD 63 != bit then (c <<< 1) ^^^ 0x42F0E1EBA9EA3693#64 else c <<< 1) c) ∧
   (∀ (e : EngineFlags) (crc : Bool) (tm : BitVec 2) (x1 x2 x3 x4 x5 x6 x7 : BitVec 5) (vs : List Word),
     let v (k : Nat) : Nat := (val vs k).toNat
     let targets (m a stride : Nat) : List (Nat × Nat) := (List.range (m / 2 ^ 16 % 2 ^ 9)).map (fun k =>
       let cell := m % 2 ^ 9 + k * (m / 2 ^ 32 % 2 ^ 9)
       ((if 448 ≤ cell then combOfCell 448 0 else combOfCell cell 0) + a % 2 ^ 30, stride))
     let job (i : Instr) (src : Option (Nat × Nat)) (dests : List (Nat × Nat)) (nrow rowB : Nat) (rec_ : Option Nat) : Prop :=
       let j := copyJob i vs
       j.src = src ∧ j.dests = dests ∧ j.nrow = nrow ∧ j.rowB = rowB ∧ j.rec_.map BitVec.toNat = rec_
     let record (r : BitVec 5) (k : Nat) : Option Nat := if r = 0 then none else some (v k)
     job (.cpy e crc tm x1 x2 x3 x4 x5) (some (v 1, 0)) [(v 0, 0)] 1 (v 2 % 2 ^ 40) (record x5 4) ∧
     job (.cpy2 e crc tm x1 x2 x3 x4 x5 x6) (some (v 1, v 3 % 2 ^ 32)) [(v 0, v 3 / 2 ^ 32)] (v 2 / 2 ^ 24 % 2 ^ 24) (v 2 % 2 ^ 24)
       (record x6 5) ∧
     job (.cfill e crc tm x1 x2 x3 x4 x5) none [(v 0, 0)] 1 (v 1 % 2 ^ 40) (record x5 4) ∧
     job (.cpym e crc tm x1 x2 x3 x4 x5 x6) (some (v 1, 0)) (targets (v 4) (v 0) 0) 1 (v 2 % 2 ^ 40) (record x6 5) ∧
     job (.cpym2 e crc tm x1 x2 x3 x4 x5 x6 x7) (some (v 1, v 3 % 2 ^ 32)) (targets (v 5) (v 0) (v 3 / 2 ^ 32)) (v 2 / 2 ^ 24 % 2 ^ 24)
       (v 2 % 2 ^ 24) (record x7 6) ∧
     job (.ccrc e crc tm x1 x2 x3 x4) (some (v 0, 0)) [] 1 (v 1 % 2 ^ 40) (record x4 3)) ∧
   (∀ (s : State) (key id : Nat) (r : Running) (bs : List (List Byte)) (ls : List (List (Option Nat × Nat))) (ps : List (Option Nat × Nat)),
     s.running? key id = some r → r.due .commit = true → engineUnit r.x.instr = some .copy →
     let j := copyJob r.x.instr r.x.vals
     let g := r.x.prog
     let pieces := j.granule g
     let data : List Byte := match j.src with
       | some _ => bs.flatten
       | none => (List.range (min 256 (j.nb - 256 * g))).map (fun b => j.pattern.extractLsb' (8 * ((256 * g + b) % 8)) 8)
     let targets := j.dests.flatMap (fun q => pieces.map (fun p => (q.1 + p.1 * q.2 + p.2.1, p)))
     let moved := (targets.zip ls).foldl (fun u t =>
       u.engWrite key r.x.id t.1.1 t.2 ((data.drop (t.1.2.1 * j.rowB + t.1.2.2.1 - 256 * g)).take t.1.2.2.2)) s
     let aux : List Word := if j.crc then [crc64 (r.x.aux.getD 0 0) data] else r.x.aux
     (g < (j.nb + 255) / 256 →
       (∀ q, j.src = some q → Eng.all (pieces.map (fun p => s.engRead key 1 (q.1 + p.1 * q.2 + p.2.1) p.2.2)) = .ok bs) →
       Eng.all (targets.map (fun t => s.engDest key 2 t.1 t.2.2.2)) = .ok ls →
       ∃ t y, exec (.granuleCommit key id) s = .next t ∧ t.mem = moved.mem ∧ t.cmd? key id = some y ∧
         (moved.mirrorsOf key id = false → y.prog = g + 1 ∧ y.aux = aux) ∧
         (moved.mirrorsOf key id = true → y.prog = g ∧ y.aux = r.x.aux ∧ y.ahead = aux)) ∧
     (∀ a : Word, (j.nb + 255) / 256 ≤ g → j.rec_ = some a → s.engDest key 3 a.toNat 16 = .ok ps →
       ∃ t y, exec (.granuleCommit key id) s = .next t ∧ t.cmd? key id = some y ∧ y.failed = s.releaseFails key r.x ∧
         t.mem = (s.engWrite key r.x.id a.toNat ps (leBytes 8 (j.nb + ((s.releaseFails key r.x).getD 0) * 2 ^ 56) ++
           leBytes 8 (r.x.aux.getD 0 0).toNat)).mem) ∧
     (∀ n, r.f.unit g = .fail n → ∃ t y, exec (.granuleCommit key id) s = .next t ∧ t.cmd? key id = some y ∧ y.failed = some n ∧
       (j.rec_ = none → t.mem = s.mem) ∧
       (∀ a, j.rec_ = some a → s.engDest key 3 a.toNat 16 = .ok ps → t.mem = (s.engWrite key r.x.id a.toNat ps
         (leBytes 8 (min j.nb (256 * g) + n * 2 ^ 56) ++ leBytes 8 (r.x.aux.getD 0 0).toNat)).mem)))) ∧
  ((∀ (s : State) (key id addr : Nat) (ls : List (Option Nat × Nat)) (bs : List Byte),
     let u := s.engWrite key id addr ls bs
     (∀ l j, j < bs.length → placeAt ls j = some l → (∀ i, i < bs.length → placeAt ls i = some l → i = j) →
       readByte u.mem l = bs.getD j 0) ∧
     (∀ l, (∀ j, j < bs.length → placeAt ls j ≠ some l) → readByte u.mem l = readByte s.mem l)) ∧
   (∀ (s : State) (key opnd addr len : Nat) (ls : List (Option Nat × Nat)), s.engSpan key opnd addr len .read = .ok ls →
     (s.placesPoisoned ls = true → s.engRead key opnd addr len = .fail 1) ∧
     (s.placesPoisoned ls = false → addr / 2 ^ 60 % 16 ≠ 2 → ∃ bs, s.engRead key opnd addr len = .ok bs ∧
       bs.length = (ls.map (·.2)).sum ∧ ∀ j, j < bs.length → bs.getD j 0 = match placeAt ls j with
         | some l => readByte s.mem l
         | none => 0)) ∧
   (∀ (s : State) (key id opnd : Nat) (ws : List (Nat × List Byte)) (ls : List (List (Option Nat × Nat))),
     Eng.all ((writeRuns ws).map (fun w => s.engDest key opnd w.1 w.2.length)) = .ok ls →
     writeGroup s key id opnd ws = .ok (((writeRuns ws).zip ls).foldl (fun u p => u.engWrite key id p.1.1 p.2 p.1.2) s)) ∧
   (∀ (a n eb : Nat) (f : Nat → List Byte), 0 < n → 0 < eb → (∀ k, (f k).length = eb) →
     writeRuns ((List.range n).map (fun k => (a + k * eb, f k))) = [(a, (List.range n).flatMap f)]) ∧
   (∀ (a n eb gap : Nat) (f : Nat → List Byte), 0 < n → eb < gap → (∀ k, (f k).length = eb) →
     writeRuns ((List.range n).map (fun k => (a + k * gap, f k))) = (List.range n).map (fun k => (a + k * gap, f k))))

/-- A row of gth is the row of the table that its index names, zeros for a negative one; sct combines the elements of a row
with those of the table, each in one atomic, and skips a negative index; a bag of gred combines the rows of its indices in
order from the identity of its operation (14 R292, Table 14-2). topk and psort write the first K pairs of a row in their
order, psort the others after them in the order of the row; gscan writes the prefixes of a row and the first index that
reaches each threshold, in place with a stride of 0 each element reading the output before it; ghist counts each element in
its bin; rndh draws from its key and counter (14 R294, R296). lred combines each element of its source with that of its target
in one atomic (08 R188; 15 R303). -/
def Obligations.GatherAndLinkResults : Prop :=
  ((∀ (s : State) (key id : Nat) (r : Running) (e : EngineFlags) (op : BitVec 3) (f : BitVec 4) (sD sA sB sC sE sO : BitVec 5)
       (i : Int) (bs : List Byte) (u : State) (ls : List (Option Nat × Nat)), s.running? key id = some r → r.due .commit = true →
       r.x.instr.flags = e → (e.tag = true → 0 < r.x.prog) →
     let v (k : Nat) : Nat := (val r.x.vals k).toNat
     let row := if e.tag then r.x.prog - 1 else r.x.prog
     let idx := regionOf (val r.x.vals 1) 8
     let base := v 0 % 2 ^ 24
     let rowB := v 3 % 2 ^ 17
     let tableRow (k : Nat) : Nat := v 2 + k * (v 4 / 2 ^ 32)
     let leaves (u : State) : Prop := ∃ t, exec (.granuleCommit key id) s = .next t ∧ t.mem = u.mem
     (readInts s key idx [row] = .ok [i] →
       (r.x.instr = .gth e sD sA sB sC sE →
         (if i < 0 then bs = List.replicate rowB 0 else s.engRead key 1 (tableRow i.toNat) rowB = .ok bs) →
         writeGroup s key r.x.id 0 [(0x3000000000000000 + (base + row * rowB), bs)] = .ok u → leaves u) ∧
       (r.x.instr = .sct e op f sD sA sB sC sE → i < 0 → leaves s) ∧
       (r.x.instr = .sct e op f sD sA sB sC sE → 0 ≤ i → s.engRead key 0 (0x3000000000000000 + (base + row * rowB)) rowB = .ok bs →
         s.engSpan key 1 (tableRow i.toNat) rowB .atomic = .ok ls → (∀ p ∈ ls, ∀ l, p.1 = some l → s.hitsObject l p.2 = false) →
         s.placesPoisoned ls = false → leaves (s.engWrite key r.x.id (tableRow i.toNat) ls (elemBytes f.toNat
           (List.zipWith (combOp f.toNat op.toNat) (rowElems f.toNat (s.readPlaces ls)) (rowElems f.toNat bs)))))) ∧
     (∀ (lo hi : Int) (is : List Int) (rows : List (List Byte)), r.x.instr = .gred e op f sD sA sB sC sE sO →
       readInts s key (regionOf (val r.x.vals 5) 8) [row, row + 1] = .ok [lo, hi] → 0 ≤ lo → lo ≤ hi →
       readInts s key idx ((List.range (hi - lo).toNat).map (lo.toNat + ·)) = .ok is →
       Eng.all ((is.filter (fun i => decide (0 ≤ i))).map (fun i => s.engRead key 1 (tableRow i.toNat) rowB)) = .ok rows →
       let fa := if f = 1 then 0 else f.toNat
       let wide (x : Nat) : Nat := if f = 1 then (roundTo fp32 .rne false (FV.ofBits bf16 x)).bits else x
       let bag := rows.foldl (fun acc bs => List.zipWith (fun a x => combOp fa op.toNat a (wide x)) acc (rowElems f.toNat bs))
         (List.replicate (rowB / fmtEb f.toNat) (bagId f.toNat op.toNat))
       writeGroup s key r.x.id 0 [(0x3000000000000000 + (base + row * (if f = 1 then 2 * rowB else rowB)), elemBytes fa bag)] = .ok u →
       leaves u)) ∧
   (∀ (f old v w : Nat), f < 9 → w = (if f = 6 then 8 else if f = 7 then 32 else 64) →
     let fm := vfmt f
     let x := FV.ofBits fm old
     let y := FV.ofBits fm v
     let X := BitVec.ofNat w old
     let Y := BitVec.ofNat w v
     let rnd (z : FV) : Nat := (roundTo fm .rne false z).bits
     combOp f 0 old v = v ∧
     (f < 6 → combOp f 1 old v = rnd (x.add .rne y) ∧ combOp f 2 old v = rnd (x.max y) ∧ combOp f 3 old v = rnd (x.min y)) ∧
     (6 ≤ f → old < 2 ^ w → v < 2 ^ w → combOp f 1 old v = (X + Y).toNat ∧
       combOp f 2 old v = (if X.slt Y then Y else X).toNat ∧ combOp f 3 old v = (if Y.slt X then Y else X).toNat) ∧
     (let fa := if f = 1 then 0 else f
      bagId f 1 = 0 ∧
      (f < 6 → FV.ofBits (vfmt fa) (bagId f 2) = .inf true ∨ f = 4) ∧ (f < 6 → FV.ofBits (vfmt fa) (bagId f 3) = .inf false ∨ f = 4) ∧
      (6 ≤ f → bagId f 2 = 2 ^ (w - 1) ∧ bagId f 3 = 2 ^ (w - 1) - 1)))) ∧
  ((∀ (f k : Nat) (up : Bool) (ps : List Ranked), f < 9 → k ≤ ps.length →
     (∀ p q : Ranked, let w := intWidth f
       let lt (a b : Nat) : Bool := if 6 ≤ f then (BitVec.ofNat w a).slt (BitVec.ofNat w b)
         else let x := FV.ofBits (vfmt f) a; let y := FV.ofBits (vfmt f) b; !x.isNaN && (y.isNaN || x.lt y)
       ranksBefore f up p q = if lt p.key q.key then up else if lt q.key p.key then !up else decide (p.gidx < q.gidx)) ∧
     ∃ sorted : List Ranked, sorted.Perm ps ∧ sorted.Pairwise (fun p q => ranksBefore f up q p = false) ∧
       rankedOut f up false k ps = sorted.take k ∧ (rankedOut f up true k ps).Perm ps ∧
       rankedOut f up true k ps = sorted.take k ++ (rankedOut f up true k ps).drop k ∧
       List.Sublist ((rankedOut f up true k ps).drop k) ps) ∧
   (∀ (f : Nat) (exc : Bool) (vs : List Nat) (j : Nat), j < vs.length →
     let pre (n : Nat) : Nat := (vs.take n).foldl (addIn f) 0
     let at_ (n : Nat) : Nat × Nat := (scanRow f exc true vs).getD n (0, 0)
     (scanRow f exc false vs).getD j (0, 0) = (pre (if exc then j else j + 1), pre (j + 1)) ∧
     (j = 0 → at_ 0 = (scanRow f exc false vs).getD 0 (0, 0)) ∧
     (0 < j → at_ j = (let p := addIn f (at_ (j - 1)).2 (at_ (j - 1)).1
       (if exc then (at_ (j - 1)).2 else p, p)))) ∧
   (∀ (s : State) (key id : Nat) (r : Running) (e : EngineFlags) (up exc clamp accum seed : Bool) (f : BitVec 4) (sD sA sB sC sE : BitVec 5)
       (a g : List Nat) (u u0 : State), s.running? key id = some r → r.due .commit = true →
     let v := val r.x.vals
     let eb2 := vfmtEb2 f.toNat
     let row := r.x.prog
     let ra := regionOf (v 1) eb2
     let l := if (v 4).toNat / 2 ^ 48 = 0 then ra.count else (v 4).toNat / 2 ^ 48
     let es := (List.range l).map (row * l + ·)
     let k := (v 4).toNat / 2 ^ 32 % 2 ^ 16
     let leaves (u : State) : Prop := ∃ t, exec (.granuleCommit key id) s = .next t ∧ t.mem = u.mem
     let put (reg : Region) (k0 : Nat) (xs : List Nat) : List (Nat × List Byte) :=
       (List.range xs.length).map (fun j => (reg.addr (k0 + j), leBytes reg.eb (xs.getD j 0)))
     let rb := regionOf (v 2) 8
     (∀ whole : Bool, r.x.instr = (if whole then .psort e up f sD sA sB sC sE else .topk e up f sD sA sB sC sE) →
       readElems s key ra es = .ok a →
       (if sC = 0 then g = (List.range l).map (fun j => ((v 4).toNat % 2 ^ 32 + j) % 2 ^ 32)
        else readElems s key (regionOf (v 3) 8) es = .ok g) →
       let out := rankedOut f.toNat up whole k (List.zipWith Ranked.mk a g)
       let at_ := row * (if whole then l else k)
       writeGroup s key r.x.id 0 (put (regionOf (v 0) eb2) at_ (out.map (·.key)) ++
         (if sB = 0 then [] else put rb at_ (out.map (·.gidx)))) = .ok u → leaves u) ∧
     (r.x.instr = .gscan e exc f sD sA sB sC sE → 
       readElems s key ra es = .ok a →
       (if sC = 0 then g = [] else readElems s key (regionOf (v 3) eb2) (List.range (regionOf (v 3) eb2).count) = .ok g) →
       let out := scanRow f.toNat exc (sD ≠ 0 && v 0 == v 1 && ra.stride == 0) a
       let found := g.map (fun t => out.findIdx (fun o => reaches f.toNat o.2 t))
       writeGroup s key r.x.id 0 ((if sD = 0 then [] else put (regionOf (v 0) eb2) (row * l) (out.map (·.1))) ++
         (if sB = 0 then [] else put rb (row * g.length) found)) = .ok u → leaves u) ∧
     (r.x.instr = .ghist e clamp accum f sD sA →
       let d := regionOf (v 0) 8
       let bin (x : Nat) : Option Nat :=
         let i := (BitVec.ofNat (intWidth f.toNat) x).toInt
         let i := if clamp then max 0 (min i ((d.count : Int) - 1)) else i
         if 0 ≤ i ∧ i < d.count then some i.toNat else none
       (if row = 0 ∧ accum = false then
         writeGroup s key r.x.id 0 ((List.range d.count).map (fun i => (d.addr i, leBytes 4 0))) = .ok u0 else u0 = s) →
       readElems s key ra (groupOf ra.count row) = .ok a →
       let hit := (List.range d.count).filter (fun b => a.any (fun x => bin x == some b))
       readElems u0 key d hit = .ok g →
       writeGroup u0 key r.x.id 0 ((hit.zip g).map (fun p =>
         (d.addr p.1, leBytes 4 (min (p.2 + a.countP (fun x => (bin x).any (fun b => d.addr b == d.addr p.1))) (2 ^ 32 - 1))))) = .ok u → leaves u) ∧
     (r.x.instr = .rndh e seed f sD sA sB →
       let d := regionOf (v 0) 8
       let draw (j : Nat) : BitVec 32 := rndh (BitVec.ofNat 32 (v 1).toNat ^^^ (if seed then s.seedOf key else 0))
         (BitVec.ofNat 32 ((v 2).toNat + j))
       writeGroup s key r.x.id 0 ((groupOf d.count row).map (fun j => (d.addr j, leBytes 4 (if f = 7 then (draw j).toNat
         else (roundTo fp32 .rne false (.fin false ((draw j).toNat / 2 ^ 8) (-24))).bits)))) = .ok u → leaves u))) ∧
  (∀ (s : State) (key id : Nat) (r : Running) (e : EngineFlags) (op : BitVec 3) (w : BitVec 2) (sD sA : BitVec 5) (y : Nat)
     (ls : List (Option Nat × Nat)), s.running? key id = some r → r.due .commit = true → r.x.instr = .lred e op w sD sA →
     let size := 2 ^ w.toNat
     let at_ := (val r.x.vals 0).toNat + r.x.prog * size
     let old := leValue (s.readPlaces ls)
     let n := 8 * size
     let X := BitVec.ofNat n old
     let Y := BitVec.ofNat n y
     let new : BitVec n := match op.toNat with
       | 0 => X + Y
       | 1 => X &&& Y
       | 2 => X ||| Y
       | 3 => X ^^^ Y
       | 4 => if X.slt Y then X else Y
       | 5 => if X.slt Y then Y else X
       | 6 => if X.ult Y then X else Y
       | _ => if X.ult Y then Y else X
     readElem s key (regionOf (val r.x.vals 1) (2 * size)) r.x.prog = .ok y → s.engSpan key 0 at_ size .atomic = .ok ls →
     old < 2 ^ n → y < 2 ^ n →
     ((∃ p ∈ ls, ∃ l, p.1 = some l ∧ s.hitsObject l p.2 = true) → r.f.unit r.x.prog = .fail 5) ∧
     ((∀ p ∈ ls, ∀ l, p.1 = some l → s.hitsObject l p.2 = false) → s.placesPoisoned ls = true → r.f.unit r.x.prog = .fail 1) ∧
     ((∀ p ∈ ls, ∀ l, p.1 = some l → s.hitsObject l p.2 = false) → s.placesPoisoned ls = false →
       ∃ t, exec (.granuleCommit key id) s = .next t ∧ t.mem = (s.engWrite key r.x.id at_ ls (leBytes size new.toNat)).mem))

/-- A contribution reaches its lane: the failures that leave the lane as it is, and the arrival that joins its rank to a lane
whose set is not yet full; one aimed at a cell that has exited is discarded without completing (08 R173; 15 R305, R307). The
procedure of a waggle line (15 R308, R309): the first digest of a step sets the line, a later one of another step or
expectation is refused and leaves it, a different digest sets MISM, and the last ends the step with its status. A digest
arrives: a step of one lwag ends at once, and the line holds the step and the digest (15 R308, R309). -/
def Obligations.LinkArrivals : Prop :=
  (∀ (s : State) (key id : Nat) (r : Running) (e : EngineFlags) (fmt : BitVec 2) (sA sB : BitVec 5) (g : Gang),
     s.running? key id = some r → r.x.instr = .lord e fmt sA sB → e.tag = false → r.x.failed = none → r.x.sent = false → r.x.prog = 0 →
     s.gang? (gangOfCell key) = some g →
     let v := val r.x.vals 1
     let src := linkRegion r.x.instr (val r.x.vals 0)
     let tk := lordTarget key v
     let fails (n : Nat) : Prop := exec (.lordArrival key id) s = .next (s.setCmd key { r.x with failed := some n })
     (g.ncells ≤ lordCell v → fails 0x1F) ∧
     (∀ c, lordCell v < g.ncells → s.cell? tk = some c → c.gone = true → exec (.lordArrival key id) s =
       .next ((s.dropClaims key r.x).modCell key (fun c => { c with cmds := c.cmds.filter (fun y => y.id ≠ id) }))) ∧
     (∀ c, lordCell v < g.ncells → s.cell? tk = some c → c.gone = false →
       let l := c.lane (lordLane v)
       (l.opened = false → exec (.lordArrival key id) s = .next s) ∧
       (l.opened = true → l.fmt ≠ fmt.toNat ∨ l.count ≠ src.count ∨ l.rows ≤ lordRank v → fails 0x1F) ∧
       (l.opened = true → l.fmt = fmt.toNat → l.count = src.count → lordRank v < l.rows → lordRank v ∈ l.arrived → fails 0x20) ∧
       (∀ vs u, l.opened = true → l.fmt = fmt.toNat → l.count = src.count → lordRank v < l.rows → lordRank v ∉ l.arrived →
         readElems s key src (List.range src.count) = .ok vs →
         (let st := linkRegion r.x.instr l.staging
          writeGroup s tk r.x.id 0 ((List.range src.count).zipWith
           (fun j x => (st.addr (lordRank v * l.count + j), leBytes st.eb x)) vs) = .ok u) →
         exec (.lordArrival key id) s = .next ((u.joinLane tk (lordLane v) (lordRank v) false).setCmd key { r.x with prog := 1 })))) ∧
  (∀ (line expect step nexp d : Nat), line < 2 ^ 106 → step < 2 ^ 32 → d < 2 ^ 64 → 0 < nexp → nexp ≤ 448 →
     line / 2 ^ 96 % 2 ^ 9 < 448 → (line / 2 ^ 96 % 2 ^ 9 = 0 → line / 2 ^ 105 = 0) →
     let dig := line % 2 ^ 64
     let held := line / 2 ^ 64 % 2 ^ 32
     let narr := line / 2 ^ 96 % 2 ^ 9
     let mism := line / 2 ^ 105
     let packed (step dig narr mism : Nat) : Nat := dig + 2 ^ 64 * step + 2 ^ 96 * narr + 2 ^ 105 * mism
     let r := wagArrive line expect step nexp d
     (narr = 0 → nexp = 1 → r = .take (packed step d 0 0) 0 (some 0)) ∧
     (narr = 0 → 1 < nexp → r = .take (packed step d 1 0) nexp none) ∧
     (narr ≠ 0 → held ≠ step ∨ nexp ≠ expect → r = .reject 0x1F) ∧
     (narr ≠ 0 → held = step → nexp = expect → narr + 1 ≠ expect →
       r = .take (packed step dig (narr + 1) (if d = dig then mism else 1)) expect none) ∧
     (narr ≠ 0 → held = step → nexp = expect → narr + 1 = expect →
       r = .take (packed step dig 0 0) 0 (some (if d = dig ∧ mism = 0 then 0 else 0x1E)))) ∧
  (∀ (s : State) (key id loc n : Nat) (r : Running) (e : EngineFlags) (sA sB sC sE : BitVec 5) (rest : List (Option Nat × Nat)),
     s.running? key id = some r → r.x.instr = .lwag e sA sB sC sE → e.tag = false → r.x.failed = none → r.x.sent = false → r.x.prog = 1 →
     r.x.queue = 5 → s.engSpan key 0 (val r.x.vals 2).toNat 64 .write = .ok ((some loc, n) :: rest) → s.poisoned loc 64 = false →
     (s.marked loc = true → exec (.waggleArrival key id) s = .next (s.setCmd key { r.x with failed := some 5 })) ∧
     (s.marked loc = false → (∀ k, k < 64 → readByte s.mem (loc + k) = 0) → wagNexp (val r.x.vals 3) = 1 →
       ∃ t x, exec (.waggleArrival key id) s = .next t ∧ SameOutside s t loc 64 ∧ t.cmd? key id = some x ∧ x.prog = 3 ∧
         x.failed = none ∧ readLE t.mem loc 64 = (val r.x.aux 0).toNat + 2 ^ 64 * wagStep (val r.x.vals 3)))

/-! ## Time and work of cells -/

/-- Reads of time give the cycle, the cycle since B, PHYSID, SCHMISS and DNDF; in a deterministic partition those that expose
time or placement read 0 and set DNDF; a control core has rdcyc alone (16 R316, R321, R322). twait stalls until B + S[A]; one
that issues after it goes on with its slip counted, or in the timed mode takes time fault 0x02; when the target comes the
A-seq goes on. A control core takes time fault 0x05 (16 R320, R321, R324; a target on the issue cycle itself has not passed,
and the form retires at once, log 14). -/
def Obligations.GangTime : Prop :=
  (∀ (d : BitVec 5) (s : State),
     (∀ (i : Instr) (v : Word) (exposes : Bool) (key : Nat) (c : Cell) (g : Gang), CellIssues s key c [d] →
       s.gang? (gangOfCell key) = some g →
       (i = .rdcyc d ∧ v = s.now ∧ exposes = true) ∨ (i = .rdgcyc d ∧ v = s.now - g.base ∧ exposes = true) ∨
         (i = .rdtinf d 0 ∧ v = BitVec.ofNat 64 (2 ^ 11 * c.slot + 2 ^ 5 * c.unit) ∧ exposes = true) ∨
         (i = .rdtinf d 1 ∧ v = c.schmiss ∧ exposes = true) ∨
         (i = .rdtinf d 2 ∧ v = BitVec.ofNat 64 c.dndf.toNat ∧ exposes = false) →
       let hide := exposes && (s.part (partOfCell key)).layout.det
       ∃ t, exec i s = .next t ∧ t.mem = s.mem ∧
         t.cell? key = some { c with a := (c.a.setReg d (if hide then 0 else v)).retire 4, dndf := c.dndf || hide }) ∧
     (∀ (key : Nat) (c : Cell), CellIssues s key c [d] → ∃ t, exec (.rdtinf d 3) s = .next t ∧ t.mem = s.mem ∧
       t.cell? key = some { c with a := (c.a.setReg d (BitVec.ofNat 64 c.dndf.toNat)).retire 4, dndf := false }) ∧
     (∀ (k : Nat), CoreIssues s k [d] →
       (s.det (.core k) = false → exec (.rdcyc d) s = .next (s.setASeq (.core k) (((s.core k).a.setReg d s.now).retire 4))) ∧
       (s.det (.core k) = true → ∃ t, exec (.rdcyc d) s = .next t ∧ t.mem = s.mem ∧
         t.core k = { s.core k with a := ((s.core k).a.setReg d 0).retire 4, dndf := true }) ∧
       exec (.rdgcyc d) s = .next (s.raiseTrap (.core k) 0x0F 0x05 .fatal s.now 0) ∧
       (∀ sel, exec (.rdtinf d sel) s = .next (s.raiseTrap (.core k) 0x0F 0x05 .fatal s.now 0)))) ∧
  (∀ (a t : BitVec 5) (s : State) (key : Nat) (c : Cell) (g : Gang), s.gang? (gangOfCell key) = some g →
     let target := g.base + c.a.reg a
     let slip := (s.now - target).toNat
     (CellIssues s key c [a] →
       (2 ^ 63 ≤ slip → exec (.twait a t) s = .next (s.setCell key { c with until_ := some target })) ∧
       (0 < slip → slip < 2 ^ 63 → t = 1 → c.asElastic = false → exec (.twait a t) s = .next
         ((s.setCell key { c with asElastic := true }).raiseTrap (.aseq key) 0x0F 0x02 .replayable s.now (c.a.reg a))) ∧
       (slip = 0 →
         exec (.twait a t) s = .next (s.setCell key { c with a := c.a.retire 4, asElastic := false })) ∧
       (0 < slip → slip < 2 ^ 32 → t ≠ 1 ∨ c.asElastic = true → exec (.twait a t) s = .next (s.setCell key { c with
         a := c.a.retire 4, asElastic := false
         schmiss := BitVec.ofNat 64 (min (c.schmiss.toNat / 2 ^ 32 + 1) (2 ^ 32 - 1) * 2 ^ 32 +
           min (c.schmiss.toNat % 2 ^ 32 + slip) (2 ^ 32 - 1)) }))) ∧
     (∀ u, s.cell? key = some c → s.cellRuns key c = true → c.until_ = some u →
       ((s.now - u).toNat < 2 ^ 63 → ∃ v, exec (.twaitExpiry key) s = .next v ∧ v.mem = s.mem ∧
         v.cell? key = some { c with until_ := none, a := c.a.retire 4, asElastic := false, phase := s.now }) ∧
       (2 ^ 63 ≤ (s.now - u).toNat → exec (.twaitExpiry key) s = .next s)) ∧
     (∀ k, CoreIssues s k [a] →
       exec (.twait a t) s = .next (s.raiseTrap (.core k) 0x0F 0x05 .fatal s.now ((s.core k).a.reg a)) ∧
       exec (.realign a t) s = .next (s.raiseTrap (.core k) 0x0F 0x05 .fatal s.now ((s.core k).a.reg a))))

/-- The first words of a gang issue on its base cycle, and not before, on a derated cell too (16 R315; its own cycles are
counted from there, log 99). A realign takes its cell to a stall; once every cell that has not exited has arrived with one
target and mode, the gang resumes on B + target if the notice of the last arrival comes in time, and B becomes that cycle; an
elastic one resumes late with its slip counted, on the cycle of the notice; in the timed mode every cell then takes time fault
0x03 and waits no longer. With a resume the pending steps of the links between the gang's dies take effect (15 R312; 16 R320,
R323; which ports those links have is log 13). Cells with different targets or modes are fatal time fault 0x04 (16 R320), on
the first cell (log 21). A prediction raises PEND to the step above the link's, and at the last step takes the link down
instead, with a fabric event in every partition; a package link takes the link to the neighbour down with it (15 R312; 22
R420; which ports are package links, log 95). -/
def Obligations.GangsStartAndRealign : Prop :=
  (∀ (s : State) (gk : Nat) (g : Gang), s.gang? gk = some g → g.state = .starting → (s.part (partOfGang gk)).live = true →
     ((s.now - g.startsAt).toNat < 2 ^ 63 → ∃ t, exec (.gangBaseCycle gk) s = .next t ∧
       t.gang? gk = some { g with state := .resident } ∧ t.mem = s.mem ∧ t.cells = s.cells.map (fun p =>
         if gangOfCell p.1 = gk ∧ p.2.gone = false then (p.1, { p.2 with phase := s.now }) else p) ∧
       ∀ key c, gangOfCell key = gk → c.gone = false → t.cell? key = some c → t.clocked key = true) ∧
     (2 ^ 63 ≤ (s.now - g.startsAt).toNat → exec (.gangBaseCycle gk) s = .next s)) ∧
  ((∀ (a t : BitVec 5) (s : State) (key : Nat) (c : Cell), CellIssues s key c [a] → exec (.realign a t) s =
     .next (s.setCell key { c with waiting := some (.realign (c.a.reg a) (decide (t = 1) && !c.asElastic) s.now) })) ∧
   (∀ (s : State) (gk : Nat) (g : Gang) (target : Word) (timed : Bool) (at_ : Nat × Cell → Word) (last : Nat × Cell),
     s.gang? gk = some g → g.state = .resident →
     (∀ p ∈ s.gangCells gk, p.2.gone = false → p.2.waiting = some (.realign target timed (at_ p)) ∧ s.cellRuns p.1 p.2 = true) →
     last ∈ s.gangCells gk → last.2.gone = false →
     (∀ p ∈ s.gangCells gk, p.2.gone = false → (at_ last - at_ p).toNat < 2 ^ 62) →
     let goal := g.base + target
     let step := s.gangStep gk
     let notice : Word := at_ last + BitVec.ofNat 64 (if step = 0 then 96 else if step = 1 then 112 else 144)
     let on_ (cycle : Word) (miss : Word → Word) : Prop := ((s.now - cycle).toNat < 2 ^ 63 →
         ∃ u, exec (.realignResume gk) s = .next u ∧ u.mem = s.mem ∧ u.gang? gk = some { g with base := cycle } ∧
           (∀ n ∈ s.gangLinks gk, (u.lnkst.getD n 0).toNat % 4 = (s.lnkst.getD n 0).toNat / 16 % 4) ∧
           (∀ n, n ∉ s.gangLinks gk → u.lnkst.find? n = s.lnkst.find? n) ∧
           u.cells = s.cells.map (fun p => if gangOfCell p.1 = gk ∧ p.2.gone = false then (p.1, { p.2 with
             waiting := none, a := p.2.a.retire 4, asElastic := false, phase := s.now, schmiss := miss p.2.schmiss }) else p)) ∧
       (2 ^ 63 ≤ (s.now - cycle).toNat → exec (.realignResume gk) s = .next s)
     ((goal - notice).toNat < 2 ^ 63 → on_ goal (fun w => w)) ∧
     (2 ^ 63 ≤ (goal - notice).toNat → timed = false → (notice - goal).toNat < 2 ^ 32 → on_ notice (fun w =>
       BitVec.ofNat 64 (min (w.toNat / 2 ^ 32 + 1) (2 ^ 32 - 1) * 2 ^ 32 +
         min (w.toNat % 2 ^ 32 + (notice - goal).toNat) (2 ^ 32 - 1)))) ∧
     (2 ^ 63 ≤ (goal - notice).toNat → timed = true → (s.now - notice).toNat < 2 ^ 63 →
       ∃ u, exec (.realignResume gk) s = .next u ∧ u.mem = s.mem ∧ u.gang? gk = some g ∧
         ∀ p ∈ s.gangCells gk, p.2.gone = false → s.cell? p.1 = some p.2 → ∃ d t, u.cell? p.1 = some d ∧ d.a = p.2.a ∧ d.waiting = none ∧
           d.asElastic = true ∧ d.trap = some t ∧ t.record.kind = 0x0F ∧ t.record.code = 3 ∧ t.record.addr = target)) ∧
   (∀ (s : State) (gk : Nat) (g : Gang) (p q : Nat × Cell) (t t' at_ at' : Word) (m m' : Bool), s.gang? gk = some g → g.state = .resident →
     (∀ x ∈ s.gangCells gk, s.cell? x.1 = some x.2 ∧
       (x.2.gone = false → s.cellRuns x.1 x.2 = true ∧ ∃ t m a, x.2.waiting = some (.realign t m a))) →
     p ∈ s.gangCells gk → q ∈ s.gangCells gk → p.2.gone = false → q.2.gone = false → p.2.waiting = some (.realign t m at_) →
     q.2.waiting = some (.realign t' m' at') → t ≠ t' ∨ m ≠ m' →
     ∃ u r d v, exec (.realignResume gk) s = .next u ∧ u.mem = s.mem ∧ u.gang? gk = some { g with state := .stopped } ∧
       (s.gangCells gk).find? (fun x => !x.2.gone) = some r ∧ u.cell? r.1 = some d ∧ d.trap = some v ∧ v.record.kind = 0x0F ∧
       v.record.code = 4 ∧ v.record.cls = .fatal ∧ (∀ w n a, r.2.waiting = some (.realign w n a) → v.record.addr = w))) ∧
  (∀ (s : State) (link : Nat), link < 256 →
     let w := s.lnkst.getD link 0
     (w.getLsbD 6 = true → exec (.eyeMarginPrediction link) s = .next s) ∧
     (w.getLsbD 6 = false → ∃ t, exec (.eyeMarginPrediction link) s = .next t ∧
       (w.toNat % 4 < 2 → t = { s with lnkst := s.lnkst.insert link (t.lnkst.getD link 0) } ∧
         (t.lnkst.getD link 0).toNat / 16 % 4 = w.toNat % 4 + 1 ∧
         (∀ b, b ≠ 4 → b ≠ 5 → (t.lnkst.getD link 0).getLsbD b = w.getLsbD b)) ∧
       (2 ≤ w.toNat % 4 → t.lnkst = s.lnkst.insert link (w ||| 0x40) ∧ t.mem = s.mem ∧
         (t.packageUp = true ↔ s.packageUp = true ∧ ¬((link / 8 = 27 ∨ link / 8 = 28) ∧ link % 8 < 6)) ∧
         ∃ r : TrapRecord, r.kind = 0x12 ∧ r.code = 0 ∧ r.cls = .event ∧ r.info.toNat = w.toNat % 4 ∧ r.cyc = s.now ∧ r.addr.toNat = link ∧
           t.records = s.records ++ ((List.range 8).filter (fun p => (s.part p).formed)).map (fun p => (p, r)))))

/-- tnext gives the coordinates of the cell's next tile, PERM's last dimension varying fastest, and all ones in S[D] and zeros
after its last (17 R341, R342, R345). The coordinates of a linear tile: within a nest of positive extents whose PERM names
each dimension once, they lie below the extents, and the tile number is their mixed-radix value, the last dimension of PERM
the least (17 R341). tinfo reads what the dispatcher gave the cell; gbar waits for the fence, then for every cell of the gang
that has not exited, and all go on together; a cell that is stopped then goes on when it runs again, and the others do not
wait for it (17 R345, 18 R347). -/
def Obligations.TileWork : Prop :=
  (∀ (i : Instr) (d : BitVec 5) (size : Nat) (s : State) (key : Nat) (c : Cell) (g : Gang),
     (i = .tnext d ∧ size = 4) ∨ (i = .tnextShort d ∧ size = 2) → d.toNat ≤ 26 →
     CellIssues s key c [d, d + 1, d + 2, d + 3, d + 4, d + 5] → s.gang? (gangOfCell key) = some g →
     ∃ q : ASeq, (∀ r : BitVec 5, r.toNat < d.toNat ∨ d.toNat + 6 ≤ r.toNat → q.reg r = c.a.reg r) ∧ q.pos = c.a.pos ∧ q.mb = c.a.mb ∧
       q.out = c.a.out ∧
       (c.walk.toNat < c.count → exec i s = .next (s.setCell key { c with walk := c.walk + 1, a := q.retire size }) ∧
         ∀ k, k < 6 → d.toNat + k ≠ 0 → q.reg (d + BitVec.ofNat 5 k) =
           BitVec.ofNat 64 ((tileCoords g.nest.extents g.nest.perm (c.first + c.walk.toNat)).getD k 0)) ∧
       (c.count ≤ c.walk.toNat → exec i s = .next (s.setCell key { c with a := q.retire size }) ∧
         ∀ k, k < 6 → d.toNat + k ≠ 0 → q.reg (d + BitVec.ofNat 5 k) = if k = 0 then BitVec.ofNat 64 (2 ^ 64 - 1) else 0)) ∧
  (∀ (ext perm : List Nat) (l : Nat), perm.length ≤ 6 → perm.Nodup → (∀ d ∈ perm, d < 6 ∧ 0 < ext.getD d 1) →
     l < (perm.map (fun d => ext.getD d 1)).foldl (· * ·) 1 →
     let cs := tileCoords ext perm l
     (∀ d ∈ perm, cs.getD d 0 < ext.getD d 1) ∧ (∀ d, d ∉ perm → cs.getD d 0 = 0) ∧
     perm.foldl (fun n d => n * ext.getD d 1 + cs.getD d 0) 0 = l) ∧
  ((∀ (d sel : BitVec 5) (s : State) (key : Nat) (c : Cell) (g : Gang), CellIssues s key c [d] →
     s.gang? (gangOfCell key) = some g → sel.toNat < 8 →
     let v := [c.count, c.first, g.nest.total, c.r, c.nR, c.walk.toNat, key % 512, g.ncells].getD sel.toNat 0
     exec (.tinfo d sel) s = .next (s.setCell key { c with a := (c.a.setReg d (BitVec.ofNat 64 v)).retire 4 })) ∧
   (∀ (s : State) (key : Nat) (c : Cell), CellIssues s key c [] →
     (c.a.out = [] → c.cmds = [] → exec .gbar s = .next (s.setCell key { c with waiting := some (.gbar false) })) ∧
     (c.a.out ≠ [] ∨ c.cmds ≠ [] → exec .gbar s = .next s)) ∧
   (∀ (s : State) (gk : Nat),
     let here (p : Nat × Cell) : Prop := gangOfCell p.1 = gk ∧ p.2.gone = false
     let passed (p : Nat × Cell) : Nat × Cell := (p.1, { p.2 with waiting := none, bars := p.2.bars + 1, a := p.2.a.retire 4 })
     ((∃ p ∈ s.cells, here p) → (∀ p ∈ s.cells, here p → p.2.waiting = some (.gbar false)) →
       exec (.gbarRelease gk) s = .next { s with cells := s.cells.map (fun p => if gangOfCell p.1 = gk ∧ p.2.gone = false then
         (if s.cellRuns p.1 p.2 = true then passed p else (p.1, { p.2 with waiting := some (.gbar true) })) else p) }) ∧
     (∀ q ∈ s.cells, here q → q.2.waiting = some (.gbar true) → s.cellRuns q.1 q.2 = true →
       exec (.gbarRelease gk) s = .next { s with cells := s.cells.map (fun p =>
         if gangOfCell p.1 = gk ∧ p.2.gone = false ∧ p.2.waiting = some (.gbar true) ∧ s.cellRuns p.1 p.2 = true then passed p else p) }) ∧
     ((∃ p ∈ s.cells, here p ∧ p.2.waiting ≠ some (.gbar false)) →
       (∀ p ∈ s.cells, gangOfCell p.1 = gk → p.2.waiting = some (.gbar true) → s.cellRuns p.1 p.2 = false) →
       exec (.gbarRelease gk) s = .next s)))

/-! ## Launches -/

/-- klaunch, sxin and sxout enter a command on the scoreboard and give its handle; their descriptor and wait list are checked
first, a launch beyond its share takes stream fault 0x02, and a partition without a free entry makes them wait. A handle names
the latest command that has had it, among the last 32,767 (17 R335, R336, R345). That ADDR of fault 0x01 holds the first
invalid handle is log 40, and that of fault 0x02 the descriptor log 93. swait stalls until its command completes and gives its
status; evget gives the event of the oldest command that is not consumed, waiting for it, and evget.nb gives 0 instead of
waiting. A status and an event that are given acquire what the command wrote, so that the read-only cache of the control die
is invalidated (06 R127; 07 R147, R167; 17 R336, R340, R345). lcancel completes a command that has not completed with status
0x01, or discards its gang with that status, and does nothing to one that has; a handle out of the last 32,767 takes stream
fault 0x01 (17 R333, R345). -/
def Obligations.LaunchProgramForms : Prop :=
  (∀ (i : Instr) (kind : StreamKind) (d a b : BitVec 5) (s : State) (k l : Nat) (x : Launch),
     (i = .klaunch d a b ∧ kind = .klaunch) ∨ (i = .sxin d a b ∧ kind = .sxin) ∨ (i = .sxout d a b ∧ kind = .sxout) →
     CoreIssues s k [d, a, b] → k < 16 → (s.core k).launch = some l → s.launches.find? l = some x →
     let q := (s.core k).a
     let desc := q.reg a
     let w := (q.reg b).toNat
     let waits := [w / 2 ^ 48, w / 2 ^ 32 % 2 ^ 16, w / 2 ^ 16 % 2 ^ 16, w % 2 ^ 16].filter (· ≠ 0)
     let fault (code : Nat) (addr : Word) : Prop := exec i s = .next (s.raiseTrap (.core k) 0x10 code .fatal 0 addr)
     let open_ := x.cmds.countP (fun c => !c.consumed)
     let share := (s.part x.part).layout.scoreboard
     (desc.toNat % 64 ≠ 0 ∨ 2 ^ 60 ≤ desc.toNat → fault 0x03 desc) ∧
     (desc.toNat % 64 = 0 → desc.toNat < 2 ^ 60 →
       (∀ pre h post, waits = pre ++ h :: post → (∀ j ∈ pre, x.handleOk j = true) → x.handleOk h = false →
         fault 0x01 (BitVec.ofNat 64 h)) ∧
       ((∀ h ∈ waits, x.handleOk h = true) →
         (share ≤ open_ → fault 0x02 desc) ∧
         (open_ < share → share ≤ s.entriesUsed x.part → exec i s = .next s) ∧
         (open_ < share → s.entriesUsed x.part < share → ∃ t y c, exec i s = .next t ∧ t.mem = s.mem ∧
           t.core k = { s.core k with a := (q.setReg d (BitVec.ofNat 64 (x.issued % 65535 + 1))).retire 4 } ∧
           t.launches.find? l = some y ∧ y.issued = x.issued + 1 ∧ y.cmds.getLast? = some c ∧
           c.handle = x.issued % 65535 + 1 ∧ c.number = x.issued + 1 ∧ c.kind = kind ∧ c.desc = desc ∧
           c.waits = waits.map x.numberOf ∧ c.status = none ∧ c.consumed = false))) ∧
     (∀ h, x.handleOk h = true → handleAt (x.numberOf h) = h ∧ 0 < x.numberOf h ∧ x.numberOf h ≤ x.issued ∧
       x.issued < x.numberOf h + 32767)) ∧
  (∀ (d a : BitVec 5) (s : State) (k l : Nat) (x : Launch), k < 16 → (s.core k).launch = some l → s.launches.find? l = some x →
     let q := (s.core k).a
     let h := (q.reg a).toNat
     let give (d : BitVec 5) (v : Nat) : State := s.setCore k { s.core k with a := (q.setReg d (BitVec.ofNat 64 v)).retire 4 }
     let cache := s.roCache.filter (fun x => x.1 / 2 ^ 48 ≠ 0)
     (CoreIssues s k [d, a] →
       (x.handleOk h = false → exec (.swait d a) s = .next (s.raiseTrap (.core k) 0x10 0x01 .fatal 0 (q.reg a))) ∧
       (x.handleOk h = true → x.statusOf (x.numberOf h) = none → exec (.swait d a) s = .next s) ∧
       (∀ st, x.handleOk h = true → x.statusOf (x.numberOf h) = some st →
         exec (.swait d a) s = .next { give d st with roCache := cache })) ∧
     (CoreIssues s k [d] →
       ((∀ c ∈ x.cmds, c.consumed = true) → exec (.evget d) s = .next (give d 0) ∧ exec (.evgetNb d) s = .next (give d 0)) ∧
       (∀ pre c post, x.cmds = pre ++ c :: post → (∀ y ∈ pre, y.consumed = true) → c.consumed = false →
         (c.status = none → exec (.evget d) s = .next s ∧ exec (.evgetNb d) s = .next (give d 0)) ∧
         (∀ st i, c.status = some st → i = .evget d ∨ i = .evgetNb d → ∃ t y, exec i s = .next t ∧ t.mem = s.mem ∧
           t.roCache = cache ∧ t.core k = (give d (2 ^ 63 + 2 ^ 24 * (match c.kind with | .klaunch => 0 | .sxin => 1 | .sxout => 2) + 2 ^ 16 * st +
             c.handle)).core k ∧
           t.launches.find? l = some y ∧ y.cmds = pre ++ { c with consumed := true } :: post)))) ∧
  (∀ (a : BitVec 5) (s : State) (k l : Nat) (x : Launch), k < 16 → (s.core k).launch = some l → s.launches.find? l = some x →
     CoreIssues s k [a] →
     let q := (s.core k).a
     let h := (q.reg a).toNat
     let u := s.setCore k { s.core k with a := q.retire 4 }
     (x.handleOk h = false → exec (.lcancel a) s = .next (s.raiseTrap (.core k) 0x10 0x01 .fatal 0 (q.reg a))) ∧
     (x.handleOk h = true → (∀ c ∈ x.cmds, c.handle = h → c.status ≠ none) → exec (.lcancel a) s = .next u) ∧
     (∀ c, x.handleOk h = true → x.cmds = [c] → c.handle = h → c.status = none → c.gang = none →
       ∃ t y, exec (.lcancel a) s = .next t ∧ t.mem = s.mem ∧ t.cores = u.cores ∧ t.launches.find? l = some y ∧
         y.cmds = [{ c with status := some 1 }]) ∧
     (∀ c g gg, x.handleOk h = true → x.cmds = [c] → c.handle = h → c.status = none → c.gang = some g → s.gang? g = some gg →
       exec (.lcancel a) s = .next (u.discardGang g 1)))

/-- A klaunch waits while a command that it names has not completed; a failed wait completes it with status 0x08, a status of
the checks completes it with that, a replayable fault makes it wait for a ptupd with one record for a page, and a valid kernel
waits to be placed. A kernel that waits for units which have retired completes with status 0x02 (01 R21; 17 R336 to R339):
that it does so while it waits is log 109. PC and ENG of the record are log 38. A waiting kernel is placed: its gang has the
lowest free GID, begins 144 cycles later, and its cells stand on the units in the dispatcher's order, with logical indices
from 0 on, at the entries of their roles; the read-only caches of their dies are invalidated (06 R127; 16 R315; 17 R338, R342;
18 R359). -/
def Obligations.KernelsAndGangs : Prop :=
  (∀ (s : State) (l h : Nat) (x : Launch) (c : StreamCmd), s.launches.find? l = some x → s.launchCmd? l h = some c → c.kind = .klaunch →
     c.gang = none → (s.part x.part).live = true → s.rdymap0.getLsbD 5 = true →
     let old := (s.part x.part).changes
     let i : Instr := .kernelEligible l h
     let to_ (t : State) (f : StreamCmd → StreamCmd) : Prop := t.mem = s.mem ∧ t.cells = s.cells ∧ t.cores = s.cores ∧
       ∃ y, t.launches.find? l = some y ∧ y.cmds = x.cmds.map (fun d => if d.handle = h ∧ d.done = false
         then f { d with eligibleAt := some (d.eligibleAt.getD s.now) } else d)
     let done (st : Nat) : Prop := ∃ t, exec i s = .next t ∧ t.records = s.records ∧ to_ t (fun d => { d with status := some st, gang := none })
     ((∃ k ∈ c.waits, x.statusOf k = none) → exec i s = .next s) ∧
     (∀ page, c.blocked = some (page, old) → exec i s = .next s) ∧
     ((∀ k ∈ c.waits, x.statusOf k ≠ none) → (∀ page, c.blocked ≠ some (page, old)) →
       (c.kernel = none → (∃ k ∈ c.waits, ∃ st, st ≠ 0 ∧ x.statusOf k = some st) → done 8) ∧
       (∀ kn, c.kernel = some kn → (∀ k ∈ c.waits, x.statusOf k = some 0) → s.unitsShort x kn.cl kn.timed kn.roles = true → done 2) ∧
       (∀ kn, c.kernel = some kn → s.unitsShort x kn.cl kn.timed kn.roles = false → exec i s = .next s) ∧
       (c.kernel = none → (∀ k ∈ c.waits, x.statusOf k = some 0) →
         let u := s.modCmd l h (fun d => { d with eligibleAt := some (d.eligibleAt.getD s.now) })
         (∀ st, u.readKernel x c.desc = .status st → done st) ∧
         (∀ kn, u.readKernel x c.desc = .kernel kn → ∃ t, exec i s = .next t ∧ t.records = s.records ∧
           to_ t (fun d => { d with kernel := some kn, blocked := none })) ∧
         (∀ code ad, u.readKernel x c.desc = .waits code ad → ∃ t, exec i s = .next t ∧
           to_ t (fun d => { d with blocked := some (ad.toNat / 4096, old) }) ∧
           (∀ n, c.blocked = some (ad.toNat / 4096, n) → t.records = s.records) ∧
           ((∀ n, c.blocked ≠ some (ad.toNat / 4096, n)) → ∃ r : TrapRecord, t.records = s.records ++ [(x.part, r)] ∧ r.kind = 0x09 ∧
             r.code = code ∧ r.cls = .replayable ∧ r.cc = true ∧ r.eng = true ∧ r.seq = x.seq ∧ r.addr = ad))))) ∧
  (∀ (s : State) (l h gid : Nat) (x : Launch) (c : StreamCmd) (kn : Kernel) (us : List Nat), s.dispatchDue l h = true →
     s.launches.find? l = some x → s.launchCmd? l h = some c → c.kernel = some kn → s.unitsFor x kn = some us →
     gid < 1024 → s.gang? (x.part * 1024 + gid) = none → (∀ g, g < gid → s.gang? (x.part * 1024 + g) ≠ none) →
     let gk := x.part * 1024 + gid
     ∃ t g, exec (.gangDispatch l h) s = .next t ∧ t.gang? gk = some g ∧ g.state = .starting ∧ g.base = s.now + 144 ∧
       g.startsAt = s.now + 144 ∧ g.launch = some l ∧ g.handle = c.handle ∧ g.timed = kn.timed ∧ g.nest = kn.nest ∧
       g.gnum = kn.gnum ∧ g.ncells = (kn.roles.map (·.count)).foldl (· + ·) 0 ∧
       (∀ r j, kn.roles = [r] → j < r.count → r.count ≤ 448 → ∃ e, t.cell? (gk * 512 + j) = some e ∧ e.ctype = r.ctype ∧
         e.slot = us.getD j 0 / 32 ∧ e.unit = us.getD j 0 % 32 ∧ e.r = j ∧ e.nR = r.count ∧ e.a.pos = Pos.entry r.aEntry ∧
         e.x.pos = Pos.entry r.xEntry ∧ (∀ n, e.a.reg n = 0) ∧ e.cmds = [] ∧ e.banks = 0 ∧ e.declared = r.acc ∧
         (∀ p ∈ t.roCache, p.1 / 2 ^ 48 ≠ us.getD j 0 / 32)))

/-- A stream transfer whose waits have completed reads its descriptor, then copies its bytes in ascending order, at most to
the end of a line of either side in one step, and completes with status 0x00 when all are written; a failed wait completes it
with status 0x08, and a descriptor with an uncorrectable error with 0x07 (17 R336, R338, R339, Table 17-6). -/
def Obligations.StreamTransfersCopy : Prop :=
  ∀ (s : State) (l h : Nat) (x : Launch) (c : StreamCmd), s.launches.find? l = some x → s.launchCmd? l h = some c → c.kind ≠ .klaunch →
    (s.part x.part).live = true → s.rdymap0.getLsbD 5 = true →
    let to_ (t : State) (f : StreamCmd → StreamCmd) : Prop := ∃ y, t.launches.find? l = some y ∧
      y.cmds = x.cmds.map (fun d => if d.handle = h ∧ d.done = false then f d else d)
    let fresh := ∀ page, c.blocked ≠ some (page, (s.part x.part).changes)
    let allOk := ∀ k ∈ c.waits, x.statusOf k = some 0
    ((∃ k ∈ c.waits, x.statusOf k = none) → exec (.streamTransfer l h) s = .next s) ∧
    ((∀ k ∈ c.waits, x.statusOf k ≠ none) → (∃ k ∈ c.waits, x.statusOf k ≠ some 0) → fresh → c.xfer = none →
      ∃ t, exec (.streamTransfer l h) s = .next t ∧ t.mem = s.mem ∧ to_ t (fun d => { d with status := some 8, gang := none })) ∧
    (∀ bs, allOk → fresh → c.xfer = none → s.streamBytes x c.desc 64 = .ok bs → ∃ t, exec (.streamTransfer l h) s = .next t ∧
      t.mem = s.mem ∧ to_ t (fun d => match parseStream c.kind bs with
        | some v => { d with xfer := some v, blocked := none }
        | none => { d with status := some 6, gang := none })) ∧
    (∀ ls, allOk → fresh → c.xfer = none → s.streamSpan x c.desc 64 .read = .places ls → s.placesPoisoned ls = true →
      ∃ t, exec (.streamTransfer l h) s = .next t ∧ t.mem = s.mem ∧ to_ t (fun d => { d with status := some 7, gang := none })) ∧
    (∀ src dst len a b n, allOk → fresh → c.xfer = some (src, dst, len) → c.moved < len →
      n = min (len - c.moved) (min (64 - (src.toNat + c.moved) % 64) (64 - (dst.toNat + c.moved) % 64)) →
      isMirrored (dst + BitVec.ofNat 64 c.moved) = false →
      s.streamSpan x (src + BitVec.ofNat 64 c.moved) n .read = .places [(some a, n)] →
      s.streamSpan x (dst + BitVec.ofNat 64 c.moved) n .write = .places [(some b, n)] →
      s.placesPoisoned [(some a, n)] = false → s.partialPoison b n = false → s.hitsObject b n = false →
      ∃ t, exec (.streamTransfer l h) s = .next t ∧ SameOutside s t b n ∧
        (∀ k, k < n → readByte t.mem (b + k) = readByte s.mem (a + k)) ∧
        to_ t (fun d => { d with moved := d.moved + n, blocked := none })) ∧
    (∀ src dst len, c.xfer = some (src, dst, len) → c.moved = len →
      (∀ w ∈ (s.part x.part).mirrorOut, w.owner ≠ .stream l h) →
      ∃ t, exec (.streamCompletion l h) s = .next t ∧ t.mem = s.mem ∧ to_ t (fun d => { d with status := some 0, gang := none }))

/-- A host's write of TAIL or of a cancel reaches the queue's control line, and the device sees it: TAIL moves, and more
records than the ring holds is a queue error that clears EN and interrupts the queue's port. A cancel names what the ring
holds up to TAIL of the control line, and what an earlier one has named stays cancelled (17 R328, R329, R333; log 43). The
cancel is stated for a queue without a running launch that it names. A launch starts on the lowest free core of its partition:
HEAD moves past its record, and the core runs at user level at the record's entry with the mailboxes of its arguments and zero
registers (17 R328, R330, R331; 04 R72). The time from which a head record ages is kept while it is ready, from the first
cycle in which it is; nothing else changes (17 R330). A launch completes once its program has ended and all its commands have
completed: its record is written with its status, and the launch is gone; before that nothing happens (17 R332). -/
def Obligations.WorkQueues : Prop :=
  (∀ (s : State) (n l : Nat) (v : BitVec 32),
     let w := s.wq n
     let q := s.queue n
     (s.queueSpan n (-128) 4 .read = some [(some l, 4)] → s.partialPoison l 4 = false → w.getLsbD 63 = true →
       ∃ t, exec (.wqTailWrite n v) s = .next t ∧ readLE t.mem l 4 = v.toNat ∧ SameOutside s t l 4 ∧
         t.queue n = { q with tail := v } ∧
         ((v - q.head).toNat ≤ wqRing w → t.wq n = w ∧ t.interrupts = s.interrupts) ∧
         (wqRing w < (v - q.head).toNat → t.wq n = w &&& ~~~(1#64 <<< 63) ∧ t.interrupts =
           { port := w.getLsbD 56, vector := 4 * (w.toNat / 2 ^ 57 % 8) + 1, data := BitVec.ofNat 64 n } :: s.interrupts)) ∧
     (s.queueSpan n (-112) 8 .read = some [(some l, 8)] → s.partialPoison l 8 = false →
       (∀ p ∈ s.launches, p.2.queue = n → serialGE v.toNat p.2.seq.toNat 32 = false) →
       ∃ t, exec (.wqCancel n v) s = .next t ∧ readLE t.mem l 8 = v.toNat + 2 ^ 32 ∧ SameOutside s t l 8 ∧
         (let u := s.writePlaces [(some l, 8)] (leBytes 8 (v.toNat + 2 ^ 32))
          let tail := ((u.controlLine n).map (·.1)).getD q.tail
          t.queue n = { q with cseq := v, cvalid := true, cancels :=
            if 0 < (tail - q.head).toNat ∧ (tail - q.head).toNat ≤ wqRing w ∧ (v, tail) ∉ q.cancels then q.cancels ++ [(v, tail)]
            else q.cancels }) ∧ t.launches = s.launches) ∧
     (s.queueSpan n (-128) 4 .read = none → exec (.wqTailWrite n v) s = .next s) ∧
     (s.queueSpan n (-112) 8 .read = none → exec (.wqCancel n v) s = .next s)) ∧
  (∀ (s : State) (p n k r l : Nat) (ls : List (Option Nat × Nat)), s.launchDue p = true → s.nextQueue p = some n →
     wqPart (s.wq n) = p → s.record n (s.queue n).head = some r → s.headCancelled n = false →
     (s.part p).wpol = 0 → crecOk (recCrec r) = true → recordOk r = true → s.freeCore p = some k → k < 16 →
     s.portSpan p (wqPort (s.wq n)) (recArgs r) 128 .read = some ls → s.placesPoisoned ls = false →
     s.queueSpan n (-64) 4 .write = some [(some l, 4)] → s.partialPoison l 4 = false → s.heldByFault p = false →
     ∃ t x, exec (.launchStart p) s = .next t ∧ (t.queue n).head = (s.queue n).head + 1 ∧
       readLE t.mem l 4 = ((s.queue n).head + 1).toNat ∧ SameOutside s t l 4 ∧
       t.launches.find? s.nextLaunch = some x ∧ x.part = p ∧ x.queue = n ∧ x.seq = BitVec.ofNat 32 (r / 2 ^ 256) ∧
       x.core = some k ∧ x.cmds = [] ∧ x.band = s.queueBand n ∧
       (t.core k).priv = .user ∧ (t.core k).running = true ∧ (t.core k).launch = some s.nextLaunch ∧
       (t.core k).a.pos = Pos.entry (BitVec.ofNat 64 (r / 2 ^ 448 % 2 ^ 64)) ∧ (∀ d, (t.core k).a.reg d = 0) ∧
       (∀ j (h : j < 16), (t.core k).a.mb[j] = BitVec.ofNat 64 (leValue (((s.readPlaces ls).drop (8 * j)).take 8)))) ∧
  (∀ (s : State), ∃ t, exec .launchAgeing s = .next t ∧ t = { s with queues := t.queues } ∧
     ∀ n, (t.queue n).head = (s.queue n).head ∧ (t.queue n).tail = (s.queue n).tail ∧
       (n ∈ s.wqcfg.map (·.1) → s.headReady n = true →
         (t.queue n).readySince = some ((s.queue n).readySince.getD s.now)) ∧
       (n ∈ s.wqcfg.map (·.1) → s.headReady n = false → (t.queue n).readySince = none) ∧
       (n ∉ s.wqcfg.map (·.1) → t.queue n = s.queue n)) ∧
  (∀ (s : State) (l a b : Nat) (x : Launch), s.launches.find? l = some x →
     ((x.ended = none ∨ ∃ c ∈ x.cmds, c.status = none) → exec (.launchCompletion l) s = .next s) ∧
     (∀ st code, x.ended = some (st, code) → (∀ c ∈ x.cmds, c.status ≠ none) → (s.part x.part).formed = true →
       (∀ y ∈ s.stays, y.launch ≠ some l) →
       s.portSpan x.part x.port (x.crec + 64) 64 .write = some [(some b, 64)] →
       s.portSpan x.part x.port x.crec 64 .write = some [(some a, 64)] → a + 64 ≤ b ∨ b + 64 ≤ a → st < 256 →
       ∃ t, exec (.launchCompletion l) s = .next t ∧ t.launches = s.launches.remove l ∧
         (∀ c, (c < a ∨ a + 64 ≤ c) → (c < b ∨ b + 64 ≤ c) → readByte t.mem c = readByte s.mem c) ∧
         (let v := readLE t.mem a 64
          v % 2 = 1 ∧ v / 2 % 2 = x.dndf.toNat ∧ v / 2 ^ 56 % 2 ^ 8 = st ∧ v / 2 ^ 128 % 2 ^ 32 = x.seq.toNat ∧
          v / 2 ^ 112 % 2 ^ 16 = (if st = 2 then code.toNat else 0) ∧ v / 2 ^ 160 % 2 ^ 32 = x.nkern.toNat ∧
          v / 2 ^ 192 % 2 ^ 64 = x.wear.toNat)))

/-! ## Traps -/

/-- Forms out of their place: a supervisor form on a cell or at user level, and wset below root level, is a privilege fault; a
form of launch programs on a cell, and a form of cells on a control core, finds its unit absent (00 R10; 03 R49; 18 R346,
R355). -/
def Obligations.FormsTrapOutOfPlace : Prop :=
  ∀ (i : Instr) (s : State) (ag : Agent) (q : ASeq), s.focus = ag → (∀ k, ag ≠ .xseq k) → s.issuing ag = true →
    s.aseq? ag = some q → q.out = [] →
    (∀ m, supervisorMinor i = some m → (∀ k, ag = .core k → (s.core k).priv = .user) →
      exec i s = .next (s.raiseTrap ag 0x01 0 .fatal (BitVec.ofNat 64 (16 * 0x1D + m)) 0)) ∧
    (∀ k d a b, i = .wset d a b → ag = .core k → (s.core k).priv = .supervisor →
      exec i s = .next (s.raiseTrap ag 0x01 0 .fatal (BitVec.ofNat 64 (16 * 0x1D + 0xD)) 0)) ∧
    (∀ m key, launchMinor i = some m → ag = .aseq key →
      exec i s = .next (s.raiseTrap ag 0x04 0 .fatal (BitVec.ofNat 64 (16 * 0x1C + m)) 0)) ∧
    (∀ major minor short k, cellForm i = some (major, minor, short) → ag = .core k →
      exec i s = .next (s.raiseTrap ag 0x04 0 .fatal (BitVec.ofNat 64 (512 * short.toNat + 16 * major + minor)) 0))

/-- Taking a trap at user level: its record, of this cycle, waits for the end of the cycle; the sequencers keep their
positions; a replayable trap stops its cell or core, a fatal one its whole gang or its launch program. At the end of the cycle
the records are delivered by GID, then by cell, control cores last; a record with room enters the ring at TAIL with the layout
of its table, and TAIL counts it (18 R347 to R350, Table 18-3; the order of records of one cell is that of detection, log 3; a
later trap of a cell takes the place of an earlier one in its frame, log 28). -/
def Obligations.TrapsAreRecorded : Prop :=
  (∀ (s : State) (ag : Agent) (kind code : Nat) (cls : TrapClass) (info addr : Word) (eng : Bool), s.agentPriv ag = .user →
    let t := s.raiseTrap ag kind code cls info addr eng
    ∃ r, t.records = s.records ++ [(s.agentPart ag, r)] ∧ t.mem = s.mem ∧ t.partitions = s.partitions ∧
      r.kind = kind ∧ r.code = code ∧ r.cls = cls ∧ r.info = info ∧ r.addr = addr ∧ r.eng = eng ∧ r.cyc = s.now ∧
      (∀ key c g, ag = .aseq key ∨ ag = .xseq key → s.cell? key = some c → s.gang? (gangOfCell key) = some g →
        r.cc = false ∧ (r.sq = true ↔ ag = .xseq key) ∧ r.cell = key % 512 ∧ r.gid = key / 512 % 1024 ∧ r.queue = g.queue ∧
        r.seq = g.seq ∧ r.pc = (if cls = .event then 0 else if ag = .xseq key then c.x.pos.pc else c.a.pos.pc) ∧
        t.cell? key = some { c with trap := if cls = .event then c.trap else some { record := r, held := false } } ∧
        t.gang? (gangOfCell key) = some { g with state := if cls = .fatal then .stopped else g.state }) ∧
      (∀ k, ag = .core k → k < 16 →
        r.cc = true ∧ r.sq = false ∧ r.cell = k ∧ r.pc = (if cls = .event then 0 else (s.core k).a.pos.pc) ∧
        (cls = .replayable → t.core k = { s.core k with trap := some { record := r, held := false } }) ∧
        (cls = .fatal → (t.core k).running = false ∧ (t.core k).launch = none) ∧ (cls = .event → t.core k = s.core k))) ∧
  (∀ (s : State) (p : Nat) (r : TrapRecord) (l : Nat),
    let pt := s.part p
    let occ := (pt.tqtail - pt.tqhead).toNat
    p < 8 → r.kind < 256 → r.code < 256 → r.cell < 512 → r.gid < 1024 → r.queue < 2 ^ 16 → pt.tqcfg.getLsbD 63 = true →
    (r.cls = .fatal ∧ occ ≤ 255 ∨ r.cls ≠ .fatal ∧ occ ≤ 251 ∧ pt.heldRecords = []) →
    s.deviceSpan p (BitVec.ofNat 64 (pt.tqcfg.toNat / 2 ^ 14 % 2 ^ 34 * 2 ^ 14 + 64 * (pt.tqtail.toNat % 256))) 64 .write =
      some [(some l, 64)] →
    let t := s.deliver p r
    let w (k : Nat) : Nat := readLE t.mem (l + 8 * k) 8
    (t.part p).tqtail = pt.tqtail + 1 ∧ SameOutside s t l 64 ∧ t.cells = s.cells ∧ t.cores = s.cores ∧
      w 0 = 1 + 16 * r.eng.toNat + 32 * r.sq.toNat + 64 * (match r.cls with | .replayable => 0 | .fatal => 1 | .event => 2) +
        2 ^ 8 * r.kind + 2 ^ 16 * r.code ∧ w 1 = 0 ∧
      w 2 % 2 ^ 32 = pt.tqtail.toNat ∧ w 2 / 2 ^ 54 = 2 * r.cell + r.cc.toNat ∧
      w 3 = r.gid + 2 ^ 16 * r.queue + 2 ^ 32 * r.seq.toNat ∧ w 4 = r.info.toNat ∧ w 5 = r.cyc.toNat ∧ w 6 = r.pc.toNat ∧
      w 7 = r.addr.toNat) ∧
  (∀ (s : State), ∃ l : List (Nat × TrapRecord),
    l.Pairwise (fun a b => a.2.rank ≤ b.2.rank) ∧ (∀ n, l.filter (fun a => a.2.rank = n) = s.records.filter (fun a => a.2.rank = n)) ∧
    s.deliverAll = l.foldl (fun u a => if (u.part a.1).formed then u.deliver a.1 a.2 else u) { s with records := [] } ∧
    (∀ r : TrapRecord, r.rank = if r.cc then 2 ^ 20 + r.cell else r.gid * 512 + r.cell))

/-- A record without room: a replayable or event record is held, and its cell's trap with it; a fatal record stops the
partition, latches PFATAL and interrupts both ports, and so does a record whose entry cannot be written. A trap of the
supervisor stops the partition; one of root stops every partition and the package (18 R347, R351, R352, Table 18-4; 23 R425,
R429). -/
def Obligations.TrapsWithoutRoom : Prop :=
  (∀ (s : State) (p : Nat) (r : TrapRecord),
    let pt := s.part p
    let free := 256 - (pt.tqtail - pt.tqhead).toNat
    let t := s.deliver p r
    let stops (cause : Nat) : Prop := t.mem = s.mem ∧ (t.part p).tqtail = pt.tqtail ∧ (pt.stopped = true → t = s) ∧
      (pt.stopped = false → (t.part p).stopped = true ∧
        (t.part p).pfatal = BitVec.ofNat 64 (2 ^ 63 + 2 ^ 61 * cause + 2 ^ 58 * p + 2 ^ 48 * r.kind + 2 ^ 40 * r.code + 2 ^ 30 * r.gid +
          2 ^ 21 * r.cell + 2 ^ 20 * r.cc.toNat) ∧
        t.interrupts = { port := true, vector := 4 * p, data := 0 } :: { port := false, vector := 4 * p, data := 0 } :: s.interrupts)
    p < 8 → r.kind < 256 → r.code < 256 → r.cell < 512 → r.gid < 1024 →
    (r.cls ≠ .fatal → free ≤ 4 ∨ pt.tqcfg.getLsbD 63 = false ∨ pt.heldRecords ≠ [] →
      t.mem = s.mem ∧ (t.part p).tqtail = pt.tqtail ∧ (t.part p).heldRecords = pt.heldRecords ++ [r] ∧
      (r.cls = .event → t.cells = s.cells ∧ t.cores = s.cores) ∧
      (r.cls = .replayable →
        (∀ c, r.cc = false → s.cell? (cellKey (p * 1024 + r.gid) r.cell) = some c → c.trap = some { record := r, held := false } →
          t.cell? (cellKey (p * 1024 + r.gid) r.cell) = some { c with trap := some { record := r, held := true } }) ∧
        (r.cc = true → r.cell < 16 → (s.core r.cell).trap = some { record := r, held := false } →
          t.core r.cell = { s.core r.cell with trap := some { record := r, held := true } }))) ∧
    (r.cls = .fatal → free = 0 ∨ pt.tqcfg.getLsbD 63 = false → stops 1) ∧
    (pt.tqcfg.getLsbD 63 = true → (r.cls = .fatal ∧ free ≠ 0 ∨ r.cls ≠ .fatal ∧ 4 < free ∧ pt.heldRecords = []) →
      s.deviceSpan p (BitVec.ofNat 64 (pt.tqcfg.toNat / 2 ^ 14 % 2 ^ 34 * 2 ^ 14 + 64 * (pt.tqtail.toNat % 256))) 64 .write = none →
      stops 3)) ∧
  (∀ (s : State) (k kind code : Nat) (cls : TrapClass) (info addr : Word) (eng : Bool),
    let p := s.agentPart (.core k)
    let t := s.raiseTrap (.core k) kind code cls info addr eng
    let latch (cause n : Nat) : Word :=
      BitVec.ofNat 64 (2 ^ 63 + 2 ^ 61 * cause + 2 ^ 58 * n + 2 ^ 48 * kind + 2 ^ 40 * code + 2 ^ 21 * k + 2 ^ 20)
    p < 8 → k < 16 → kind < 256 → code < 256 → (s.part p).stopped = false →
    ((s.core k).priv = .supervisor → t.mem = s.mem ∧ t.records = s.records ∧
      (t.part p).stopped = true ∧ (t.part p).pfatal = latch 2 p ∧
      t.interrupts = { port := true, vector := 4 * p, data := 0 } :: { port := false, vector := 4 * p, data := 0 } :: s.interrupts) ∧
    ((s.core k).priv = .root → t.pkgstat = s.pkgstat ||| 1 ∧ t.mem = s.mem ∧ t.records = s.records ∧
      (∀ n, n < 8 → (s.part n).formed = true → (t.part n).stopped = true ∧ ((s.part n).stopped = false → (t.part n).pfatal = latch 0 n)) ∧
      (∀ n, n < 8 → (s.part n).formed = false → t.part n = s.part n) ∧
      (∃ l, t.interrupts = { port := true, vector := 32, data := 0 } :: { port := false, vector := 32, data := 0 } :: (l ++ s.interrupts) ∧
        (∀ i, i ∈ l ↔ ∃ n port, n < 8 ∧ (s.part n).formed = true ∧ (s.part n).stopped = false ∧
          i = { port := port, vector := 4 * n, data := 0 }))))

/-- tret: a target of no live context is code 0x01, one that is not stopped on a trap or whose record is held 0x02, one whose
gang does not stand in its cells 0x03, and a fatal trap 0x04 except for tret.kill. tret and tret.emu clear the trap and resume
the suspended commands, and both sequencers fetch again; tret.emu issues the instruction of the EMU words in place of the
stored word, with the Q and N of the stored word, or is code 0x05. tret.kill discards the gang, whose klaunch completes with
status 0x05: at once, or after its exchange, or after the accesses, releases and xfers that it has issued are performed (06
R136; 07 R168; 18 R356, R359, R361, R368; 20 R398). -/
def Obligations.TrapReturnsResume : Prop :=
  ∀ (d a : BitVec 5) (s : State) (k : Nat), SupervisorIssues s k [d, a] →
    let v := ((s.core k).a.reg a).toNat
    let p := ((s.core k).part).getD 0
    let all (code : Nat) : Prop := ∀ i, i = .tret d a ∨ i = .tretEmu d a ∨ i = .tretKill d a →
      exec i s = .next (s.gives k d (BitVec.ofNat 64 code))
    (2 ^ 26 ≤ v → v / 2 ^ 31 ≠ 1 → all 1) ∧
    (∀ gid ci, v = gid * 2 ^ 16 + ci → gid < 1024 → ci < 512 →
      let g := p * 1024 + gid
      let key := g * 512 + ci
      (s.gang? g = none → all 1) ∧
      (∀ gg c, s.gang? g = some gg → s.cell? key = some c →
        (c.gone = true → all 1) ∧
        (c.gone = false → c.trap = none ∨ (∃ t, c.trap = some t ∧ t.held = true) → all 2) ∧
        (∀ t, c.gone = false → c.trap = some t → t.held = false →
          let stands := gg.state = .resident ∨ gg.state = .halting ∨ gg.state = .stopped
          let pa := { c.a.pos with buf := [] }
          let px := { c.x.pos with buf := [] }
          let resumed (pa px : Pos) (el : Bool) (o : Host.Outcome State Fault Refusal) : Prop := ∃ u e, o = .next u ∧
            u.cell? key = some e ∧ u.mem = s.mem ∧ e.trap = none ∧ e.a = { c.a with pos := pa } ∧ e.x = { c.x with pos := px } ∧
            e.asElastic = el ∧ e.until_ = none ∧ (c.waiting = some (.gbar false) → e.waiting = some (.gbar false)) ∧
            ((∀ b, c.waiting ≠ some (.gbar b)) → e.waiting = none) ∧
            e.cmds = c.cmds.map (fun x => if x.state = .suspended then { x with state := .active, fault := none } else x) ∧
            (u.core k) = ((s.gives k d 0).core k)
          (¬stands → all 3) ∧
          (stands → t.record.cls = .fatal → exec (.tret d a) s = .next (s.gives k d 4) ∧ exec (.tretEmu d a) s = .next (s.gives k d 4)) ∧
          (stands → t.record.cls ≠ .fatal →
            resumed { pa with emu := none } { px with emu := none } c.asElastic (exec (.tret d a) s) ∧
            (emulatedInstr c.emuCtl c.emu = none → exec (.tretEmu d a) s = .next (s.gives k d 5)) ∧
            (∀ i, emulatedInstr c.emuCtl c.emu = some i →
              (∀ (j : Instr), c.emuCtl.getLsbD 8 = false → s.fetch (.aseq key) { pa with emu := none } false = .word j →
                resumed { pa with emu := some { instr := i, last := pa.pc + BitVec.ofNat 64 j.lastWord, next := pa.pc + BitVec.ofNat 64 j.size } }
                  px false (exec (.tretEmu d a) s)) ∧
              (∀ (j : Instr), c.emuCtl.getLsbD 8 = true → s.fetch (.xseq key) { px with emu := none } true = .word j →
                resumed pa { px with emu := some { instr := i, last := px.pc + BitVec.ofNat 64 j.lastWord, next := px.pc + BitVec.ofNat 64 j.size } }
                  c.asElastic (exec (.tretEmu d a) s)))) ∧
          (stands → ∃ u, exec (.tretKill d a) s = .next u ∧ u.core k = (s.gives k d 0).core k ∧
            (s.inSwap g = true → ∃ h, u.gang? g = some h ∧ h.doomed = some 5) ∧
            (s.inSwap g = false → s.unperformed g = true →
              ∃ h, u.gang? g = some h ∧ h.doomed = some 5 ∧ h.state = .stopped) ∧
            (s.inSwap g = false → s.unperformed g = false → (∀ x ∈ u.gangs, x.1 ≠ g) ∧
              (∀ l ll, s.gangLaunch g gg = some l → s.launches.find? l = some ll → ∃ m, u.launches.find? l = some m ∧
                m.nkern = ll.nkern ∧ m.cmds = ll.cmds.map (fun x => if x.handle = gg.handle ∧ x.done = false
                  then { x with status := some 5, gang := none } else x))))))) ∧
    (∀ j, v = 2 ^ 31 + j → j < 16 →
      let x := s.core j
      (x.part ≠ some p ∨ x.trap = none → all 1) ∧
      (∀ t, x.part = some p → x.trap = some t →
        (t.held = true → all 2) ∧
        (t.held = false → t.record.cls ≠ .fatal → exec (.tretEmu d a) s = .next (s.gives k d 5) ∧
          ∃ u, exec (.tret d a) s = .next u ∧ u.mem = s.mem ∧ u.core k = (s.gives k d 0).core k ∧
            u.core j = { x with trap := none, a := { x.a with pos := { x.a.pos with emu := none, buf := [] } } }) ∧
        (t.held = false → ∃ u, exec (.tretKill d a) s = .next u ∧ u.mem = s.mem ∧ u.core k = (s.gives k d 0).core k ∧
          (u.core j).running = false ∧ (u.core j).launch = none)))

/-! ## System registers and translation -/

/-- rdsr gives the register or frame word that a number names: a register of the issuer's own partition, 0 for what is
unassigned or malformed, and a privilege fault for another partition's below root level; a word of a cell that is not stopped
on a trap is 0. MARGIN of a trained port's LNKST is a free value (log 13); OUTST and DOWN of MIRST show the outstanding writes
and the link (22 R420; a register of each partition, log 32). tqwait waits until TAIL differs from HEAD and gives TAIL; a read
of TAIL acquires the records below it, so that the read-only cache of the control die is invalidated (06 R127; 17 R327; 18
R350, R353, R357, R358, Table 18-8). Registers and queues of others are log 87, frames outside stopped cells log 89. -/
def Obligations.SystemRegistersAreRead : Prop :=
  ∀ (d a : BitVec 5) (s : State) (k : Nat),
    let v := ((s.core k).a.reg a).toNat
    let p := ((s.core k).part).getD 0
    let gives (x : Word) : Prop := exec (.rdsr d a) s = .next (s.gives k d x)
    let acquired (t : State) : State := { t with roCache := t.roCache.filter (fun x => x.1 / 2 ^ 48 ≠ 0) }
    (SupervisorIssues s k [d, a] →
      (∀ n idx, v = n * 2 ^ 56 + idx → n < 8 → idx < 2 ^ 16 →
        let pt := s.part n
        let queue := 0x1000 ≤ idx ∧ idx < 0x2000
        ((s.core k).priv = .supervisor → n ≠ p ∨ (queue ∧ (s.wq (idx - 0x1000)).toNat / 2 ^ 57 % 8 ≠ p) →
          exec (.rdsr d a) s = .next (s.raiseTrap (.core k) 0x01 0 .fatal (BitVec.ofNat 64 0x1D2) 0)) ∧
        ((s.core k).priv = .root ∨ (n = p ∧ (queue → (s.wq (idx - 0x1000)).toNat / 2 ^ 57 % 8 = p)) →
          (idx < 0x20 → gives ((s.mix idx).setWidth 64)) ∧
          (0x20 ≤ idx → idx < 0x40 → gives ((s.avail (idx - 0x20)).setWidth 64)) ∧
          (∀ e ∈ [(0x40, s.mixgen.setWidth 64), (0x41, pt.cpscan), (0x42, pt.dremap), (0x43, pt.cktol),
              (0x44, if pt.layout.test then pt.errinj.setWidth 64 else 0), (0x45, pt.fpxthr), (0x46, s.tblver), (0x47, pt.pfatal),
              (0x48, pt.tqcfg), (0x49, pt.tqhead.setWidth 64), (0x4B, pt.plimit),
              (0x2000, pt.tgen), (0x2001, BitVec.ofNat 64 (pt.layout.cap + pt.entries.length % 2 ^ 32 * 2 ^ 32)),
              (0x2100, pt.wpol.setWidth 64), (0x2101, pt.wqtab), (0x2200, s.cethr), (0x2201, s.mirst n)],
            idx = e.1 → gives e.2) ∧
          (idx = 0x4A → exec (.rdsr d a) s = .next (acquired (s.gives k d (pt.tqtail.setWidth 64)))) ∧
          (0x100 ≤ idx → idx < 0x200 → gives (s.readLink (idx - 0x100)) ∧
            (∀ j, j < 24 ∨ 32 ≤ j → (s.readLink (idx - 0x100)).getLsbD j = (s.lnkst.getD (idx - 0x100) 0).getLsbD j) ∧
            ((s.lnkst.getD (idx - 0x100) 0).getLsbD 7 = false → s.readLink (idx - 0x100) = s.lnkst.getD (idx - 0x100) 0)) ∧
          (s.mirst n).toNat / 2 ^ 32 = pt.mirrorOut.length % 2 ^ 32 ∧ (s.mirst n).getLsbD 1 = !s.packageUp ∧
            (s.mirst n).getLsbD 0 = pt.mirst.getLsbD 0 ∧ (s.mirst n).toNat / 2 ^ 8 % 2 ^ 24 = pt.mirst.toNat / 2 ^ 8 % 2 ^ 24 ∧
          (queue → gives (s.wq (idx - 0x1000))) ∧
          ((0x4C ≤ idx ∧ idx < 0x100) ∨ (0x200 ≤ idx ∧ idx < 0x1000) ∨ (0x2002 ≤ idx ∧ idx < 0x2100) ∨
            (0x2102 ≤ idx ∧ idx < 0x2200) ∨ 0x2202 ≤ idx → gives 0))) ∧
      (2 ^ 61 ≤ v ∨ (v < 2 ^ 60 ∧ (v / 2 ^ 59 ≠ 0 ∨ v / 2 ^ 16 % 2 ^ 40 ≠ 0)) ∨
        (2 ^ 60 ≤ v ∧ (v / 2 ^ 50 % 2 ^ 10 ≠ 0 ∨ v / 2 ^ 39 % 2 ≠ 0 ∨ v / 2 ^ 13 % 2 ^ 17 ≠ 0)) → gives 0) ∧
      (∀ gid ci w, v = 2 ^ 60 + gid * 2 ^ 40 + ci * 2 ^ 30 + w → gid < 1024 → ci < 512 → w < 2 ^ 13 →
        let key := (p * 1024 + gid) * 512 + ci
        ((∀ c, s.cell? key = some c → c.gone = true ∨ c.trap = none) → gives 0) ∧
        (∀ c, s.cell? key = some c → c.gone = false → c.trap.isSome = true → c.a.pos.levels.length ≤ 6 → c.x.pos.levels.length ≤ 6 →
          (w = 0x001 → gives c.a.pos.pc) ∧ (w = 0x002 → gives c.x.pos.pc) ∧
          (∀ r : BitVec 5, r ≠ 0 → w = 0x040 + r.toNat → gives (c.a.reg r)) ∧
          (∀ j (h : j < 16), w = 0x060 + j → gives c.a.mb[j]) ∧ (∀ j (h : j < 16), w = 0x070 + j → gives c.x.g[j])))) ∧
    (SupervisorIssues s k [d] →
      ((s.part p).tqtail ≠ (s.part p).tqhead → exec (.tqwait d) s =
        .next (acquired (s.gives k d ((s.part p).tqtail.setWidth 64)))) ∧
      ((s.part p).tqtail = (s.part p).tqhead → exec (.tqwait d) s = .next s))

/-- A write of a register changes what its access codes let its writer write and nothing else: TQHEAD within the occupancy,
TQCFG's BASE while EN = 0, a queue's PART and PORT by root as the layout in force has them and its other fields by the
supervisor, TMO of MIRST and its EVT by a 1; WPOL and CETHR change through layout commands only (log 96), and CETHR is root's
alone. wrsr is that write, and of a frame it writes the words that may be written (00 R6; 10 R226; 11 R259; 17 R327; 18 R349,
R353, R357; 21 R409; 22 R420, R421; 23 R427). MIRST is a register of each partition by log 32; queues of others and root's
wrsr of a queue are log 87, frames outside stopped cells log 89. -/
def Obligations.SystemRegistersAreWritten : Prop :=
  (∀ (a b : BitVec 5) (s : State) (k : Nat), SupervisorIssues s k [a, b] →
    let v := ((s.core k).a.reg a).toNat
    let x := (s.core k).a.reg b
    let p := ((s.core k).part).getD 0
    let root := decide ((s.core k).priv = .root)
    let done := s.setCore k { s.core k with a := (s.core k).a.retire 4 }
    (∀ n idx, v = n * 2 ^ 56 + idx → n < 8 → idx < 2 ^ 16 →
      let queue := 0x1000 ≤ idx ∧ idx < 0x2000
      ((root = false ∧ (n ≠ p ∨ idx = 0x2200 ∨ (queue ∧ (s.wq (idx - 0x1000)).toNat / 2 ^ 57 % 8 ≠ p))) ∨ (root = true ∧ queue) →
        exec (.wrsr a b) s = .next (s.raiseTrap (.core k) 0x01 0 .fatal (BitVec.ofNat 64 0x1D3) 0)) ∧
      (¬queue → root = true ∨ n = p ∧ idx ≠ 0x2200 → exec (.wrsr a b) s = exec (.sysregWrite root ((s.core k).a.reg a) x) done) ∧
      (queue → root = false → n = p → (s.wq (idx - 0x1000)).toNat / 2 ^ 57 % 8 = p →
        exec (.wrsr a b) s = exec (.wqcfgWrite false (idx - 0x1000) x) done)) ∧
    (2 ^ 61 ≤ v ∨ (v < 2 ^ 60 ∧ (v / 2 ^ 59 ≠ 0 ∨ v / 2 ^ 16 % 2 ^ 40 ≠ 0)) ∨
        (2 ^ 60 ≤ v ∧ (v / 2 ^ 50 % 2 ^ 10 ≠ 0 ∨ v / 2 ^ 39 % 2 ≠ 0 ∨ v / 2 ^ 13 % 2 ^ 17 ≠ 0)) → exec (.wrsr a b) s = .next done) ∧
    (∀ gid ci w, v = 2 ^ 60 + gid * 2 ^ 40 + ci * 2 ^ 30 + w → gid < 1024 → ci < 512 → w < 2 ^ 13 →
      let key := (p * 1024 + gid) * 512 + ci
      ((∀ c, s.cell? key = some c → c.gone = true ∨ c.trap = none) → exec (.wrsr a b) s = .next done) ∧
      (∀ c, s.cell? key = some c → c.gone = false → c.trap.isSome = true →
        (∀ r : BitVec 5, w = 0x040 + r.toNat → exec (.wrsr a b) s = .next (done.setCell key { c with a := c.a.setReg r x })) ∧
        (∀ j (h : j < 16), w = 0x070 + j → exec (.wrsr a b) s = .next (done.setCell key { c with x := { c.x with g := c.x.g.set j x } })) ∧
        (w < 0x040 ∨ (0x060 ≤ w ∧ w < 0x070) ∨ 0x165 ≤ w → exec (.wrsr a b) s = .next (done.setCell key c))))) ∧
  (∀ (root : Bool) (n idx : Nat) (v : Word) (s : State), n < 8 → idx < 2 ^ 16 →
    let pt := s.part n
    let t (x : State) : Prop := exec (.sysregWrite root (BitVec.ofNat 64 (n * 2 ^ 56 + idx)) v) s = .next x
    (idx < 0x43 ∨ idx = 0x46 ∨ idx = 0x47 ∨ idx = 0x4A ∨ (0x4C ≤ idx ∧ idx < 0x1000) ∨ idx = 0x2000 ∨ idx = 0x2001 ∨
      (0x2002 ≤ idx ∧ idx ≤ 0x2100) ∨ (0x2102 ≤ idx ∧ idx ≤ 0x2200) ∨ 0x2202 ≤ idx → t s) ∧
    (idx = 0x43 → t (s.setPart n { pt with cktol := v &&& 0xFFFFFFFF0001FFFF })) ∧
    (idx = 0x44 → t (if pt.layout.test then s.setPart n { pt with errinj := v.setWidth 32 } else s)) ∧
    (idx = 0x45 → t (s.setPart n { pt with fpxthr := v })) ∧
    (idx = 0x48 → pt.heldRecords = [] → t (s.setPart n { pt with tqcfg := BitVec.ofNat 64 (v.toNat / 2 ^ 63 * 2 ^ 63 +
      (if pt.tqcfg.getLsbD 63 then pt.tqcfg else v).toNat / 2 ^ 14 % 2 ^ 34 * 2 ^ 14) })) ∧
    (idx = 0x49 → exec (.sysregWrite root (BitVec.ofNat 64 (n * 2 ^ 56 + idx)) v) s = exec (.tqheadWrite n v) s) ∧
    (idx = 0x4B → t (s.setPart n { pt with plimit := v &&& 0xFFFFFFFF000FFFFF })) ∧
    (idx = 0x2101 → t (s.setPart n { pt with wqtab := BitVec.ofNat 64 (v.toNat % 2 +
      (pt.wqtab.toNat / 2 % 2) * (1 - v.toNat / 2 % 2) * 2 + v.toNat / 2 ^ 20 % 2 ^ 28 * 2 ^ 20) })) ∧
    (idx = 0x2201 → t (s.setPart n { pt with mirst := BitVec.ofNat 64 (v.toNat / 2 ^ 8 % 2 ^ 24 * 2 ^ 8 +
      pt.mirst.toNat % 2 * (1 - v.toNat % 2)) }))) ∧
  (∀ (n : Nat) (v : Word) (s : State), n < 8 → (s.part n).heldRecords = [] →
    let pt := s.part n
    exec (.tqheadWrite n v) s = .next (if (v.setWidth 32 - pt.tqhead).toNat ≤ (pt.tqtail - pt.tqhead).toNat then
      s.setPart n { pt with tqhead := v.setWidth 32 } else s)) ∧
  (∀ (root : Bool) (n : Nat) (v : Word) (s : State), n < 4096 →
    let w := s.wq n
    let pt := s.part (v.toNat / 2 ^ 57 % 8)
    let laid := pt.formed = true ∧ pt.layout.firstQueue ≤ n ∧ n < pt.layout.firstQueue + pt.layout.queueCount ∧ pt.layout.port = v.getLsbD 56
    (root = true → ¬laid → ∃ t, exec (.wqcfgWrite root n v) s = .next t ∧ t = { s with wqcfg := t.wqcfg } ∧ ∀ m, t.wq m = s.wq m) ∧
    (root = false ∨ laid → ∃ t, exec (.wqcfgWrite root n v) s = .next t ∧ t = { s with wqcfg := t.wqcfg } ∧ (∀ m, m ≠ n → t.wq m = s.wq m) ∧
      ∀ j, j < 64 → (t.wq n).getLsbD j = if 56 ≤ j ∧ j < 60 then (if root then v else w).getLsbD j
        else if root then w.getLsbD j else if 60 ≤ j then v.getLsbD j
        else if (51 ≤ j ∧ j < 56) ∨ (6 ≤ j ∧ j < 48) then (if w.getLsbD 63 then w else v).getLsbD j else false))

/-- ptupd waits for the stores of its core, then for its turn at the table-update engine of the package once that is ready; it
judges the entries of its list in order, each by the table that those before it leave, and writes the result of each; those
that are good are installed in place of the mappings that their ranges overlap, and sent to the replicas in one generation,
and the core waits until they have it; the codes of its operands (19 R375, R376, R386; 23 R432). The number drawn when a ptupd
reaches the engine is log 108. -/
def Obligations.TableUpdatesAreApplied : Prop :=
  (∀ (d a b : BitVec 5) (s : State) (k : Nat), SupervisorIssues s k [d, a, b] →
    let c := s.core k
    let addr := c.a.reg a
    let n := (c.a.reg b).toNat
    let p := c.part.getD 0
    let pt := s.part p
    (n = 0 ∨ 256 < n → exec (.ptupd d a b) s = .next (s.gives k d 2)) ∧
    (1 ≤ n → n ≤ 256 → addr.toNat % 64 ≠ 0 ∨ 2 ^ 60 ≤ addr.toNat → exec (.ptupd d a b) s = .next (s.gives k d 1)) ∧
    (1 ≤ n → n ≤ 256 → addr.toNat % 64 = 0 → addr.toNat < 2 ^ 60 → p < 8 → k < 16 →
      (∀ j, j < 16 → j ≠ k →
        (∀ d' v, (s.core j).wait ≠ some (.ptupd d' v)) ∧ (∀ d' l' n' t', (s.core j).wait ≠ some (.ptupdTurn d' l' n' t'))) →
      let waits (turn : Option Nat) : Prop := ∃ t, exec (.ptupd d a b) s = .next t ∧ t.mem = s.mem ∧ (t.part p).entries = pt.entries ∧
        t.core k = { c with wait := some (.ptupdTurn d addr n turn) }
      (c.a.out ≠ [] → waits none) ∧
      (c.a.out = [] → s.rdymap0.getLsbD 3 = false → waits (some s.nextPtupd)) ∧
      (c.a.out = [] → s.rdymap0.getLsbD 3 = true →
        (∀ e, s.span (.core k) false addr (32 * n) .read = .error e → ∃ t, exec (.ptupd d a b) s = .next t ∧ t.mem = s.mem ∧
          (t.part p).entries = pt.entries ∧ t.core k = (s.gives k d 1).core k) ∧
        (∀ l (es : Nat → List PageEntry), s.span (.core k) false addr (32 * n) .read = .ok [(some l, 32 * n)] →
          s.span (.core k) false addr (32 * n) .write = .ok [(some l, 32 * n)] → s.poisoned l (32 * n) = false →
          let base (i : Nat) : Nat := readLE s.mem (l + 32 * i) 8
          let leaf (i : Nat) : Word := BitVec.ofNat 64 (readLE s.mem (l + 32 * i + 8) 8)
          let rest (i : Nat) : Nat := readLE s.mem (l + 32 * i + 24) 8
          let size (i : Nat) : Nat := [0x1000, 0x10000, 0x200000, 0x40000000].getD ((leaf i).toNat / 2 ^ 61 % 4) 0
          let kept (i : Nat) : List PageEntry :=
            (es i).filter (fun e => !(decide (e.base < base i + size i) && decide (base i < e.base + e.size)))
          let code (i : Nat) : Nat := if 2 ^ 48 ≤ base i ∨ base i % size i ≠ 0 then 1 else if leafMalformed (leaf i) = true ∨ rest i ≠ 0 then 2
            else if (leaf i).getLsbD 63 = true ∧ pt.frameOk (leaf i) = false then 3
            else if (leaf i).getLsbD 63 = true ∧ pt.layout.cap < (kept i).length + 1 then 4 else 0
          let scanned (i : Nat) : Bool := code i == 0 && (leaf i).getLsbD 63 && (leaf i).getLsbD 56
          let writes (t : State) : Prop :=
            (∀ i, i < n → scanned i = false → readLE t.mem (l + 32 * i + 16) 8 = 2 ^ 31 + 2 ^ 24 * code i) ∧
            (∀ a, (∀ i, i < n → scanned i = false → a < l + 32 * i + 16 ∨ l + 32 * i + 24 ≤ a) → readByte t.mem a = readByte s.mem a)
          es 0 = pt.entries → (∀ i, i < n → es (i + 1) = if code i = 0 then
            (if (leaf i).getLsbD 63 then [{ base := base i, leaf := leaf i, granted := false }] else []) ++ kept i else es i) →
          ((∀ i, i < n → code i ≠ 0) → ∃ t, exec (.ptupd d a b) s = .next t ∧ writes t ∧ t.core k = (s.gives k d 0x100).core k ∧
            (t.part p).entries = pt.entries ∧ (t.part p).sentGen = pt.sentGen ∧ (t.part p).replicas = pt.replicas) ∧
          ((∃ i, i < n ∧ code i = 0) → (∃ r ∈ pt.replicas, r.2.gen ≠ pt.sentGen + 1) → ∃ t scs, exec (.ptupd d a b) s = .next t ∧
            writes t ∧ (t.part p).entries = es n ∧ (t.part p).sentGen = pt.sentGen + 1 ∧
            ((t.part p).tgen = pt.tgen ∨ (t.part p).tgen = pt.sentGen) ∧ (t.part p).replicas = pt.replicas ∧
            t.core k = { c with wait := some (.ptupd d ((List.range n).any (fun i => code i != 0))) } ∧
            (t.part p).scans = pt.scans ++ scs ∧ (∀ sc ∈ scs, sc.core = k) ∧
            scs.map (fun sc => (sc.base, sc.size)) = ((List.range n).filter scanned).map (fun i => (base i, size i))))))) ∧
  (∀ (s : State) (p slot : Nat) (r : Replica), p < 8 → (s.part p).replicas.find? slot = some r →
    let pt := s.part p
    let rs := pt.replicas.insert slot { gen := pt.sentGen, entries := pt.entries }
    (r.gen = pt.sentGen → exec (.replicaStep p slot) s = .next s) ∧
    (r.gen ≠ pt.sentGen → ∃ t, exec (.replicaStep p slot) s = .next t ∧ t.mem = s.mem ∧ (t.part p).replicas = rs ∧
      (t.part p).entries = pt.entries ∧
      ((∃ x ∈ rs, x.2.gen ≠ pt.sentGen) → (t.part p).tgen = pt.tgen ∧ t.cores = s.cores) ∧
      ((∀ x ∈ rs, x.2.gen = pt.sentGen) → (t.part p).tgen = pt.sentGen ∧
        ∀ k d bad, k < 16 → s.agentPart (.core k) = p → (s.core k).wait = some (.ptupd d bad) → pt.scans = [] →
          (∀ j, j < 16 → j ≠ k → s.agentPart (.core j) = p → ∀ d' v, (s.core j).wait ≠ some (.ptupd d' v)) →
          t.core k = { s.core k with wait := none, a := ((s.core k).a.setReg d (if bad then 0x100 else 0)).retire 4 })))

/-- xlat gives the leaf entry that maps an address with the code of the first check that fails, the entry's lower bits hidden
at user level. ibinv drops the page's words from the loop buffers of the partition. tlbinv drops the cached entries of its
range at once, and its core waits until the accesses and mirrored writes that had been translated are performed (03 R57; 18
R364; 19 R379, R384, R387, R388; how entries are cached, log 10). -/
def Obligations.TranslationForms : Prop :=
  (∀ (d a m : BitVec 5) (s : State) (ag : Agent) (q : ASeq), Issues s ag q [d, a] → m.toNat < 4 →
    let ea := (q.reg a).toNat
    let path := ea / 2 ^ 60
    let user := decide (s.agentPriv ag = .user)
    let gives (n : Nat) : Prop := exec (.xlat d a m) s = .next (s.setASeq ag ((q.setReg d (BitVec.ofNat 64 n)).retire 4))
    let probe : Probe := [Probe.read, .write, .fetch, .atomic].getD m.toNat .read
    (path ∉ [0, 2, 4, 5] ∨ ea / 2 ^ 48 % 2 ^ 12 ≠ 0 → gives 0x10) ∧
    (path ∈ [0, 2, 4, 5] → ea / 2 ^ 48 % 2 ^ 12 = 0 →
      (findEntry (s.replica (s.agentPart ag) (s.agentSlot ag)) (ea % 2 ^ 48) = none → gives 0x01) ∧
      (∀ e, findEntry (s.replica (s.agentPart ag) (s.agentSlot ag)) (ea % 2 ^ 48) = some e →
        let shown := if user then e.leaf.toNat / 2 ^ 48 * 2 ^ 48 else e.leaf.toNat / 2 ^ 12 * 2 ^ 12
        let code := xlatCode (some e) user probe
        (code ≠ 0 → gives (shown + code)) ∧
        (code = 0 → pathAccepts path e.mtype probe.writes = true → gives shown) ∧
        (code = 0 → pathAccepts path e.mtype probe.writes = false → gives (shown + 8))))) ∧
  (∀ (a b : BitVec 5) (s : State) (k : Nat), k < 16 →
    let c := s.core k
    let p := c.part.getD 0
    (SupervisorIssues s k [a] →
      let page := match findEntry (s.part p).entries ((c.a.reg a).toNat % 2 ^ 48) with
        | some e => (e.base, e.size)
        | none => (0, 2 ^ 48)
      let cut (x : Pos) : Pos := x.dropBuf page.1 page.2
      ∃ t, exec (.ibinv a) s = .next t ∧ t.mem = s.mem ∧ t.partitions = s.partitions ∧
        t.core k = { c with a := ASeq.retire { c.a with pos := cut c.a.pos } 4 } ∧
        t.cells = s.cells.map (fun e => if partOfCell e.1 = p then
          (e.1, { e.2 with a := { e.2.a with pos := cut e.2.a.pos }, x := { e.2.x with pos := cut e.2.x.pos } }) else e)) ∧
    (SupervisorIssues s k [a, b] →
      let len := (c.a.reg b).toNat
      let base := if len = 0 then 0 else (c.a.reg a).toNat % 2 ^ 48
      let size := if len = 0 then 2 ^ 48 else min len (2 ^ 48 - base)
      let accs := s.translatedIn p base size
      let writes := (s.part p).mirrorsIn base size
      exec (.tlbinv a b) s = .next ((s.dropTlb p base size).setCore k
        (if accs = [] ∧ writes = [] then { c with a := c.a.retire 4 } else { c with wait := some (.tlbinv accs writes) }))) ∧
    (∀ accs writes, c.wait = some (.tlbinv accs writes) →
      (s.tlbinvDone p accs writes = true → (s.advanceCore k).core k = { c with wait := none, a := c.a.retire 4 }) ∧
      (s.tlbinvDone p accs writes = false → s.advanceCore k = s))) ∧
  (∀ (s : State) (p base len : Nat), let t := s.dropTlb p base len
    t = { s with cells := t.cells, dieTlb := t.dieTlb } ∧
    (∀ e ∈ t.cells, partOfCell e.1 = p → ∀ x ∈ e.2.tlb, ¬(x.base < base + len ∧ base < x.base + x.size)) ∧
    (∀ e ∈ t.dieTlb, ∀ x ∈ e.2, x.1 = p → ¬(x.2.base < base + len ∧ base < x.2.base + x.2.size))) ∧
  (∀ (x : Pos) (base len : Nat), (x.dropBuf base len).pc = x.pc ∧ (x.dropBuf base len).levels = x.levels ∧
    ∀ v, v ∈ (x.dropBuf base len).buf ↔ v ∈ x.buf ∧ ¬(base ≤ v.1.toNat % 2 ^ 48 ∧ v.1.toNat % 2 ^ 48 < base + len))

/-- A page of straight-line words of its tag is accepted; the scan of an entry that has finished leaves its outcome in CPSCAN
and grants X to the entry that it accepted, in the table and in the replicas; cpatch replaces the contents of an executable
page in one step when the scan accepts them, and leaves the page as it is when it does not (03 R64 to R66; 18 R363). A page
with poison is granted nothing, and what its ERES then holds of a scan is free (22 R416; log 45); on a die that failed nothing
is written (22 R419). -/
def Obligations.ScansDecideExecution : Prop :=
  (∀ (x : Bool) (is : List Instr), (∀ i ∈ is, i.wellFormed = true ∧ acceptedOn x i = true ∧ staticOffset i = none ∧
      (∀ n l, i ≠ .blkImmediate n l) ∧ (∀ n l, i ≠ .blkRegister n l)) →
    (scanPage x ((is.flatMap encode).flatMap parcelBytes)).code = 0) ∧
  (∀ (s : State) (p : Nat) (c : Scan) (rest : List Scan), p < 8 → (s.part p).scans = c :: rest → s.rdymap0.getLsbD 4 = true →
    s.scanPoisoned c = false →
    let o := s.scanOutcome c
    let grant (es : List PageEntry) : List PageEntry :=
      es.map (fun e => if e.base = c.base ∧ e.leaf = c.leaf then { e with granted := true } else e)
    ∃ t, exec (.scanComplete p) s = .next t ∧ (t.part p).scans = rest ∧
      (t.part p).cpscan = BitVec.ofNat 64 (o.off * 2 ^ 32 + c.tag.toNat * 2 ^ 16 + o.depth % 256 * 2 ^ 8 + o.code) ∧
      (c.patch = none → (t.part p).entries = (if o.code = 0 then grant (s.part p).entries else (s.part p).entries) ∧
        (∀ q r, o.code = 0 → (q, r) ∈ (t.part p).replicas → ∃ r' ∈ (s.part p).replicas, r'.1 = q ∧ r.entries = grant r'.2.entries) ∧
        (c.eres = none → t.mem = s.mem) ∧
        (∀ l ec, c.eres = some (l, ec) → s.onLostDie l = true → t.mem = s.mem) ∧
        (∀ l ec, c.eres = some (l, ec) → s.onLostDie l = false → SameOutside s t l 8 ∧
          readLE t.mem l 8 = ((t.part p).cpscan.toNat + 2 ^ 31 + 2 ^ 24 * ec) % 2 ^ 64)) ∧
      (∀ bs l k d, c.patch = some (bs, [(l, bs.length)]) → c.core = k → k < 16 → (s.core k).wait = some (.cpatch d) →
        (s.onLostDie l = true → t.mem = s.mem ∧ t.core k = { s.core k with wait := none, a :=
          ((s.core k).a.setReg d (if o.code = 0 then 0x06 else 0x0C)).retire 4 }) ∧
        (s.onLostDie l = false → (t.part p).entries = (s.part p).entries ∧
        (o.code = 0 → SameOutside s t l bs.length ∧ readBytes t.mem l bs.length = bs) ∧ (o.code ≠ 0 → t.mem = s.mem) ∧
        t.core k = { s.core k with wait := none, a := ((s.core k).a.setReg d (if o.code = 0 then 0 else 0x0C)).retire 4 }))) ∧
  (∀ (s : State) (p : Nat) (c : Scan) (rest : List Scan), p < 8 → (s.part p).scans = c :: rest → s.rdymap0.getLsbD 4 = true →
    s.scanPoisoned c = true → ∃ t, exec (.scanComplete p) s = .next t ∧ (t.part p).scans = rest ∧
      (t.part p).cpscan = (s.part p).cpscan ∧ (t.part p).entries = (s.part p).entries ∧ (t.part p).replicas = (s.part p).replicas ∧
      (c.eres = none → t.mem = s.mem) ∧
      (∀ l ec, c.eres = some (l, ec) → ec < 128 → s.onLostDie l = false → SameOutside s t l 8 ∧
        readLE t.mem l 8 / 2 ^ 17 % 2 ^ 15 = 2 ^ 14 + 2 ^ 7 * ec)) ∧
  (∀ (d a b : BitVec 5) (s : State) (k : Nat), SupervisorIssues s k [d, a, b] →
    let c := s.core k
    let p := c.part.getD 0
    let va := (c.a.reg a).toNat
    let img := c.a.reg b
    let entry := findEntry (s.part p).entries (va % 2 ^ 48)
    (2 ^ 48 ≤ va ∨ entry = none ∨ (∃ e, entry = some e ∧ (e.granted = false ∨ e.leaf.toNat / 2 ^ 59 % 4 = 2)) ∨ img.toNat % 64 ≠ 0 ∨ 2 ^ 60 ≤ img.toNat →
      exec (.cpatch d a b) s = .next (s.gives k d 6)) ∧
    (∀ e, va < 2 ^ 48 → entry = some e → e.granted = true → e.leaf.toNat / 2 ^ 59 % 4 ≠ 2 → img.toNat % 64 = 0 → img.toNat < 2 ^ 60 →
      (c.a.out ≠ [] → exec (.cpatch d a b) s = .next s) ∧
      (c.a.out = [] → (∀ f, s.span (.core k) false img e.size .read = .error f → exec (.cpatch d a b) s = .next (s.gives k d 6)) ∧
        (∀ ls, s.span (.core k) false img e.size .read = .ok ls → s.placesPoisoned ls = false → p < 8 → ∃ t sc,
          exec (.cpatch d a b) s = .next t ∧ t.mem = s.mem ∧ t.core k = { c with wait := some (.cpatch d) } ∧
          (t.part p).scans = (s.part p).scans ++ [sc] ∧ sc.core = k ∧ sc.base = e.base ∧
          sc.patch = some (s.readPlaces ls, [(e.pa e.base, e.size)])))))

/-! ## Pre-emption and ends -/

/-- pswap and ctxsv check their operands in the order of their codes; a request that passes asks the resident gang to halt,
joins the exchanges or saves in progress, and leaves its core waiting (18 R356, R366, R368, R370, Table 18-7; which incoming
gangs give 0x08 is log 67). A cell of a gang that is asked to halt halts at a pre-emption point once its engines have settled,
with nothing else of it changed; in a gang that is not asked it does not (18 R365, R366). -/
def Obligations.PreemptionIsRequested : Prop :=
  ((∀ (d a b : BitVec 5) (s : State) (k : Nat), SupervisorIssues s k [d, a, b] →
     let c := s.core k
     let p := c.part.getD 0
     let out := (c.a.reg a).toNat
     let inc := (c.a.reg b).toNat
     let g (n : Nat) : Nat := p * 1024 + n
     let gives (n : Nat) : Prop := exec (.pswap d a b) s = .next (s.gives k d (BitVec.ofNat 64 n))
     let asked (o i : Option Nat) (t : State) : Prop := exec (.pswap d a b) s = .next t ∧ t.mem = s.mem ∧ t.cells = s.cells ∧
       t.core k = { c with wait := some (.pswap d) } ∧ (t.part p).swaps = (s.part p).swaps ++ [{ core := k, outGid := o, inGid := i }]
     (∀ v, v = out ∨ v = inc → v ≠ 0xFFFF → 1024 ≤ v → gives 1) ∧
     (∀ v, v = out ∨ v = inc → v < 1024 → s.gang? (g v) = none → gives 1) ∧
     (∀ x, out < 1024 → s.gang? (g out) = some x → inc = 0xFFFF →
       (x.state ≠ .resident → x.state ≠ .halting → gives 3) ∧
       (x.state = .resident ∨ x.state = .halting →
         let full := ∃ q ∈ s.gangCells (g out), q.2.gone = false ∧ 2 ≤ s.buffersUsed q.2.slot q.2.unit none
         (full → gives 7) ∧
         (¬full → s.inExchange (g out) = true → gives 0x0B) ∧
         (¬full → s.inExchange (g out) = false → p < 8 → ∃ t, asked (some out) none t ∧
           t.gang? (g out) = some { x with state := .halting }))) ∧
     (∀ x, out = 0xFFFF → inc < 1024 → s.gang? (g inc) = some x →
       let free := ∀ q ∈ s.contextsOf (g inc), s.takesBack none q.2.cell = true
       (x.state ≠ .parked ∨ ¬free → gives 8) ∧
       (x.state = .parked → free → s.inExchange (g inc) = true → gives 0x0B) ∧
       (x.state = .parked → free → s.inExchange (g inc) = false → p < 8 → ∃ t, asked none (some inc) t ∧ t.gangs = s.gangs)) ∧
     (∀ x y, out < 1024 → inc < 1024 → s.gang? (g out) = some x → s.gang? (g inc) = some y →
       let stands := x.state = .resident ∨ x.state = .halting
       let full := ∃ q ∈ s.gangCells (g out), q.2.gone = false ∧ 2 ≤ s.buffersUsed q.2.slot q.2.unit (some (g inc))
       let comes := y.state = .parked ∧ ∀ q ∈ s.contextsOf (g inc), s.takesBack (some (g out)) q.2.cell = true
       let busy := s.inExchange (g out) = true ∨ s.inExchange (g inc) = true
       (¬stands → gives 3) ∧ (stands → full → gives 7) ∧ (stands → ¬full → ¬comes → gives 8) ∧
       (stands → ¬full → comes → busy → gives 0x0B) ∧
       (stands → ¬full → comes → ¬busy → p < 8 → ∃ t, asked (some out) (some inc) t ∧
         t.gang? (g out) = some { x with state := .halting } ∧ t.gang? (g inc) = some y))) ∧
   (∀ (d a b : BitVec 5) (s : State) (k : Nat), SupervisorIssues s k [d, a, b] →
     let c := s.core k
     let p := c.part.getD 0
     let gid := (c.a.reg a).toNat
     let area := c.a.reg b
     let g := p * 1024 + gid
     let gives (n : Nat) : Prop := exec (.ctxsv d a b) s = .next (s.gives k d (BitVec.ofNat 64 n))
     (1024 ≤ gid ∨ s.gang? g = none → gives 1) ∧
     (∀ x, gid < 1024 → s.gang? g = some x →
       let may := x.state = .resident ∨ x.state = .halting ∨ x.state = .parked
       let ok := area.toNat < 2 ^ 48 ∧ area.toNat % 4096 = 0
       (¬may → gives 3) ∧ (may → ¬ok → gives 6) ∧ (may → ok → s.inExchange g = true → gives 0x0B) ∧
       (may → ok → s.inExchange g = false → p < 8 → ∃ t, exec (.ctxsv d a b) s = .next t ∧ t.mem = s.mem ∧ t.cells = s.cells ∧
         t.core k = { c with wait := some (.ctxsv d) } ∧
         (t.part p).saves = (s.part p).saves ++ [{ core := k, gid, area, wasParked := decide (x.state = .parked) }] ∧
         t.gang? g = some (if x.state = .parked then x else { x with state := .halting }))))) ∧
  (∀ (s : State) (key : Nat) (c : Cell) (g : Gang), s.cell? key = some c → s.gang? (gangOfCell key) = some g →
     (g.state ≠ .halting → exec (.cellHalt key) s = .next s) ∧
     (g.state = .halting → (s.part (partOfCell key)).live = true → c.gone = false → c.halted = false → c.x.issued = false →
       (∀ x ∈ c.cmds, x.sent = false ∧ (x.queue = 0 → x.state ≠ .active ∧ x.state ≠ .withheld)) →
       c.trap.isSome = true ∨ c.a.pos.boundary = true ∨ c.waiting.isSome = true ∨ (c.a.pos.exited = true ∧ c.x.pos.exited = true) →
       ∃ t, exec (.cellHalt key) s = .next t ∧ t.cell? key = some { c with halted := true } ∧ t.mem = s.mem ∧ t.gangs = s.gangs))

/-- An exchange parks the halted gang: its unit is given back with its slice cleared, and the buffer holds the cell, without
its caches, and the live window of its slice; the gang that comes in stands on its unit with its slice restored, and issues
144 cycles on with its base cycle moved by the time that it stood. A unit that can no longer take its cell (log 67) makes the
answer 0x08, and the gang stays parked; an outgoing gang then goes on where it stands (16 R315; 18 R361, R367, R368; 21 R406).
An exchange of both does the two together. -/
def Obligations.ExchangesParkAndResume : Prop :=
  ∀ (s : State) (p key g : Nat) (w : Swap) (gg : Gang) (d : BitVec 5), p < 8 → (s.part p).live = true → (s.part p).swaps = [w] →
    s.gang? g = some gg → gg.doomed = none → gg.wear = 0 → s.gangCtx g = none ∨ (s.part p).quotaOn = false → w.core < 16 →
    (s.core w.core).wait = some (.pswap d) →
    let c0 := s.core w.core
    let taken : State := s.setPart p { s.part p with swaps := [] }
    let gives (n : Nat) (t : State) : Prop :=
      t.core w.core = { c0 with wait := none, a := (c0.a.setReg d (BitVec.ofNat 64 n)).retire 4 } ∧ (t.part p).swaps = []
    let answered : State → Prop := gives 0
    (∀ o c, w.outGid = some o → w.inGid = none → o < 1024 → g = p * 1024 + o → s.gangHalted g = true → s.gangCells g = [(key, c)] →
      c.gone = false →
      let lo := sliceLoc (unitKey c.slot c.unit) 0
      ∃ t h x, exec (.pswapExchange p) s = .next t ∧ answered t ∧ t.gang? g = some h ∧ h.state = .parked ∧ h.haltedAt = s.now ∧
        h.base = gg.base ∧ t.cell? key = none ∧ t.parked.find? key = some x ∧ x.cell = c.uncached ∧
        (∀ off, off < min gg.live 720896 → readByte x.live off = readByte s.mem (lo + off)) ∧
        SameOutside s t lo c.ctype.sliceSize ∧ (∀ off, off < c.ctype.sliceSize → readByte t.mem (lo + off) = 0)) ∧
    (∀ i x, w.outGid = none → w.inGid = some i → i < 1024 → g = p * 1024 + i → s.gangCells g = [] → s.contextsOf g = [(key, x)] →
      taken.takesBack none x.cell = true →
      x.corrupt = false → x.cell.trap = none → x.cell.gone = false → x.live.rising = true →
      (∀ b ∈ x.live, b.1 < x.cell.ctype.sliceSize) →
      let lo := sliceLoc (unitKey x.cell.slot x.cell.unit) 0
      let moved := s.now + 144 - gg.haltedAt
      ∃ t h c, exec (.pswapExchange p) s = .next t ∧ answered t ∧ t.gang? g = some h ∧ h.state = .starting ∧ h.startsAt = s.now + 144 ∧
        h.base = gg.base + moved ∧ t.cell? key = some c ∧ c.a = x.cell.a ∧ c.x = x.cell.x ∧ c.cc = x.cell.cc ∧ c.elems = x.cell.elems ∧
        c.halted = false ∧ SameOutside s t lo x.cell.ctype.sliceSize ∧
        (∀ off, off < x.cell.ctype.sliceSize → readByte t.mem (lo + off) = readByte x.live off)) ∧
    (∀ i x, w.outGid = none → w.inGid = some i → i < 1024 → g = p * 1024 + i → s.contextsOf g = [(key, x)] →
      taken.takesBack none x.cell = false →
      ∃ t, exec (.pswapExchange p) s = .next t ∧ gives 8 t ∧ t.gang? g = some gg ∧ t.mem = s.mem ∧ t.cells = s.cells ∧ t.parked = s.parked) ∧
    (∀ o i c key' x gi, w.outGid = some o → w.inGid = some i → o < 1024 → i < 1024 → o ≠ i → g = p * 1024 + o → s.gangHalted g = true →
      s.gangCells g = [(key, c)] → c.gone = false → gg.state = .halting →
      let h := p * 1024 + i
      s.gang? h = some gi → gi.doomed = none → gi.wear = 0 → s.gangCells h = [] → s.contextsOf g = [] → s.contextsOf h = [(key', x)] →
      let lo := sliceLoc (unitKey c.slot c.unit) 0
      let lo' := sliceLoc (unitKey x.cell.slot x.cell.unit) 0
      (taken.takesBack (some g) x.cell = true → x.corrupt = false → x.cell.trap = none → x.cell.gone = false → x.live.rising = true →
        (∀ b ∈ x.live, b.1 < x.cell.ctype.sliceSize) →
        ∃ t go gn e y, exec (.pswapExchange p) s = .next t ∧ answered t ∧
          t.gang? g = some go ∧ go.state = .parked ∧ go.haltedAt = s.now ∧ go.base = gg.base ∧ t.cell? key = none ∧
          t.parked.find? key = some y ∧ y.cell = c.uncached ∧ (∀ off, off < min gg.live 720896 → readByte y.live off = readByte s.mem (lo + off)) ∧
          t.gang? h = some gn ∧ gn.state = .starting ∧ gn.startsAt = s.now + 144 ∧ gn.base = gi.base + (s.now + 144 - gi.haltedAt) ∧
          t.cell? key' = some e ∧ e.a = x.cell.a ∧ e.x = x.cell.x ∧ e.cc = x.cell.cc ∧ e.elems = x.cell.elems ∧ e.halted = false ∧
          t.parked.find? key' = none ∧
          (∀ off, off < x.cell.ctype.sliceSize → readByte t.mem (lo' + off) = readByte x.live off) ∧
          (∀ a, (a < lo ∨ lo + c.ctype.sliceSize ≤ a) → (a < lo' ∨ lo' + x.cell.ctype.sliceSize ≤ a) → readByte t.mem a = readByte s.mem a)) ∧
      (taken.takesBack (some g) x.cell = false → c.trap = none → ∃ t go e, exec (.pswapExchange p) s = .next t ∧ gives 8 t ∧ t.mem = s.mem ∧
        t.parked = s.parked ∧ t.gang? h = some gi ∧ t.gang? g = some go ∧ go.state = .starting ∧ go.startsAt = s.now + 144 ∧
        go.base = gg.base + 144 ∧ t.cell? key = some e ∧ e.halted = false ∧ e.a.regs = c.a.regs ∧ e.a.pos.pc = c.a.pos.pc ∧ e.elems = c.elems))

/-- A save of a halted or parked gang writes its area, with the header and the words of its cells, and frees the gang, or
answers 0x06, writes nothing (log 71) and lets a resident gang go on 144 cycles later; ctxld checks an area in the order of
its codes (log 70) and gives its gang a GID, and the gang is then placed on admissible cells with its state as it was saved
(16 R315; 18 R353, R356, R359, R369 to R371, Tables 18-5, 18-11; 22 R419). What the area has no word for is log 20. -/
def Obligations.SavesAndRestores : Prop :=
  (∀ (s : State) (p : Nat) (v : Save) (gg : Gang) (d : BitVec 5), p < 8 → (s.part p).live = true → (s.part p).saves = [v] →
    let g := p * 1024 + v.gid
    v.wasParked = true ∨ (gg.state = .halting ∧ s.gangHalted g = true) → s.gang? g = some gg → gg.doomed = none → gg.wear = 0 →
    s.gangCtx g = none ∨ (s.part p).quotaOn = false → v.core < 16 → (s.core v.core).wait = some (.ctxsv d) →
    let c0 := s.core v.core
    let answered (t : State) (n : Nat) : Prop := t.core v.core =
      { c0 with wait := none, a := (c0.a.setReg d (BitVec.ofNat 64 n)).retire 4 } ∧ (t.part p).saves = []
    let halted := if v.wasParked then gg.haltedAt else s.now
    (s.areaSpan v.core v.area 0 (areaLen gg.ncells) .write = none ∨
        (∃ ls, s.areaSpan v.core v.area 0 (areaLen gg.ncells) .write = some ls ∧ s.placesLost ls = true) →
      ∃ t h, exec (.contextSaveComplete p) s = .next t ∧ answered t 6 ∧ t.mem = s.mem ∧ t.gang? g = some h ∧
        (v.wasParked = true → h = gg ∧ t.cells = s.cells) ∧
        (v.wasParked = false → s.gangFatal g = false → h.state = .starting ∧ h.startsAt = s.now + 144 ∧ h.base = gg.base + 144 ∧
          ∀ key c, (key, c) ∈ s.gangCells g → s.cell? key = some c → s.gangCells g = [(key, c)] →
            ∃ e, t.cell? key = some e ∧ e.halted = false ∧ e.a.regs = c.a.regs ∧ e.a.pos.pc = c.a.pos.pc ∧ e.elems = c.elems)) ∧
    (∀ ls, s.areaSpan v.core v.area 0 (areaLen gg.ncells) .write = some ls → s.placesLost ls = false →
      gg.ncells ≤ 448 → (∀ o b, placeAt ls o = some b → b < 2 ^ 49 ∧ ∀ o', placeAt ls o' = some b → o' = o) →
      ∃ t, exec (.contextSaveComplete p) s = .next t ∧ answered t 0 ∧ t.gang? g = none ∧ s.contexts.length < t.contexts.length ∧
        (let holds (off n v : Nat) : Prop := ∀ k b, k < n → placeAt ls (off + k) = some b →
           readByte t.mem b = BitVec.ofNat 8 (v / 2 ^ (8 * k))
         (∀ q ∈ [(0, 4, 0x58434D4A), (4, 2, 1), (6, 2, gg.ncells), (8, 8, s.tblver.toNat), (16, 8, (halted - gg.base).toNat),
             (24, 4, gg.seq.toNat), (28, 2, gg.queue), (30, 2, gg.handle), (32, 2, gg.gnum), (34, 1, gg.cl), (35, 1, gg.det.toNat),
             (36, 4, gg.live), (40, 4, gg.plat)], holds q.1 q.2.1 q.2.2) ∧
         (∀ c, gg.ncells = 1 → c.gone = false → c.a.pos.levels.length ≤ 6 → c.x.pos.levels.length ≤ 6 →
           (∃ x, s.parked.find? (cellKey g 0) = some x ∧ x.cell = c) ∨
             (s.parked.find? (cellKey g 0) = none ∧ s.cell? (cellKey g 0) = some c) →
           holds 64 1 (match c.ctype with | .matrix => 1 | .vector => 2 | .gather => 3) ∧
           holds (4096 + 8 * 0x001) 8 c.a.pos.pc.toNat ∧ holds (4096 + 8 * 0x002) 8 c.x.pos.pc.toNat ∧
           (∀ r : BitVec 5, r ≠ 0 → holds (4096 + 8 * (0x040 + r.toNat)) 8 (c.a.reg r).toNat) ∧
           (∀ j (h : j < 16), holds (4096 + 8 * (0x060 + j)) 8 c.a.mb[j].toNat ∧ holds (4096 + 8 * (0x070 + j)) 8 c.x.g[j].toNat))))) ∧
  (∀ (d a : BitVec 5) (s : State) (k : Nat), SupervisorIssues s k [d, a] →
    let c := s.core k
    let area := c.a.reg a
    let p := c.part.getD 0
    let gives (n : Nat) : Prop := exec (.ctxld d a) s = .next (s.gives k d (BitVec.ofNat 64 n))
    (2 ^ 48 ≤ area.toNat ∨ area.toNat % 4096 ≠ 0 → gives 6) ∧
    (area.toNat < 2 ^ 48 → area.toNat % 4096 = 0 → s.areaSpan k area 0 4096 .read = none → gives 6) ∧
    (∀ ls rest ts gid, area.toNat < 2 ^ 48 → area.toNat % 4096 = 0 → s.areaSpan k area 0 4096 .read = some ls →
      let bs := s.readPlaces ls
      let n := field bs 6 2
      let cl := field bs 34 1
      headerTypes bs n = some ts → s.areaSpan k area 0 (areaLen n) .read = some rest → n ≤ 448 → gid < 1024 →
      s.gang? (p * 1024 + gid) = none → (∀ g, g < gid → s.gang? (p * 1024 + g) ≠ none) →
      s.linkedLaunch p (field bs 28 2) (field bs 30 2) (BitVec.ofNat 32 (field bs 24 4)) = none → s.contexts = [] →
      -- Of a context that was not saved here the area does not say whether its gang is timed: that is a free value (log 20).
      let lacks := ∃ t, (s.admissibleUnits p cl t ((s.lacking 11).testBit 0) false).length < ts.countP (fun x => decide (x = t))
      (lacks → gives 8) ∧
      (¬lacks → field bs 8 8 ≠ s.tblver.toNat → gives 9) ∧
      (¬lacks → field bs 8 8 = s.tblver.toNat → s.placesPoisoned ls = true ∨ headerValid bs = false → gives 0x0A) ∧
      (¬lacks → field bs 8 8 = s.tblver.toNat → s.placesPoisoned ls = false → headerValid bs = true → ∃ t g,
        exec (.ctxld d a) s = .next t ∧ t.mem = s.mem ∧ t.cells = s.cells ∧ t.core k = (s.gives k d (BitVec.ofNat 64 (gid * 2 ^ 16))).core k ∧
        t.gang? (p * 1024 + gid) = some g ∧ g.state = .restored ∧ g.ncells = n ∧ g.cl = cl ∧ g.queue = field bs 28 2 ∧
        g.seq = BitVec.ofNat 32 (field bs 24 4) ∧ g.handle = field bs 30 2 ∧ g.gnum = field bs 32 2 ∧
        s.now - g.base = BitVec.ofNat 64 (field bs 16 8)))) ∧
  (∀ (s : State) (g key u : Nat) (gg : Gang) (x : Parked), s.restoreDue g = true → s.gang? g = some gg → s.contextsOf g = [(key, x)] →
    x.cell.gone = false → x.corrupt = false → x.cell.trap = none → s.gangCells g = [] → s.unitsForRestored g gg = some [(key, u)] →
    ∃ t h c, exec (.restoredGangDispatch g) s = .next t ∧ t.gang? g = some h ∧ h.state = .starting ∧ h.startsAt = s.now + 144 ∧
      h.base = gg.base + (s.now + 144 - gg.haltedAt) ∧ t.cell? key = some c ∧ c.slot = u / 32 ∧ c.unit = u % 32 ∧ c.a = x.cell.a ∧
      c.x = x.cell.x ∧ c.cc = x.cell.cc ∧ c.elems = x.cell.elems ∧ c.halted = false)

/-- A cell exits once both sequencers have exited and nothing of it is under way: its slice is cleared and its unit is free;
held banks raise matrix fault 0x04 instead. A gang whose cells have all exited ends, and its klaunch completes with status
0x00; one that a cancel or kill has stopped ends with that status once the accesses, releases and xfers that it has issued are
performed (04 R86; 06 R132, R136; 07 R167, R168; 09 R194; 17 R338; 20 R398). That an exit waits for all that the cell has
outstanding is log 24. -/
def Obligations.CellsAndGangsExit : Prop :=
  (∀ (s : State) (key : Nat) (c : Cell), s.cell? key = some c → s.cellRuns key c = true →
    let still := c.a.out = [] ∧ c.x.moves = [] ∧ c.x.ops = [] ∧ c.cmds = [] ∧ ∀ l ∈ c.lanes.toList, l.opened = false
    let held := (List.range 256).countP (fun b => c.banks.getLsbD b)
    let lo := sliceLoc (unitKey c.slot c.unit) 0
    (c.a.pos.exited = false ∨ c.x.pos.exited = false ∨ ¬still → exec (.cellExit key) s = .next s) ∧
    (c.a.pos.exited = true → c.x.pos.exited = true → still →
      (held = 0 → ∃ t e, exec (.cellExit key) s = .next t ∧ t.cell? key = some e ∧ e.gone = true ∧ e.role = c.role ∧ e.r = c.r ∧
        SameOutside s t lo c.ctype.sliceSize ∧ (∀ off, off < c.ctype.sliceSize → readByte t.mem (lo + off) = 0)) ∧
      (held ≠ 0 → ∃ (u : State) (e : Cell), u.cell? key = some e ∧ e.a = c.a ∧ u.mem = s.mem ∧ e.banks = 0 ∧
        exec (.cellExit key) s = .next (u.raiseTrap (.aseq key) 0x0D 0x04 .fatal (BitVec.ofNat 64 held) 0)))) ∧
  (∀ (s : State) (g l : Nat) (gg : Gang) (x : Launch) (c : StreamCmd), s.gang? g = some gg → gg.launch = some l →
    s.launches.find? l = some x → x.cmds = [c] → c.handle = gg.handle → c.kind = .klaunch → c.status = none → gg.wear = 0 →
    (s.part (partOfGang g)).live = true → s.inExchange g = false →
    (gg.state = .resident → (∃ q ∈ s.gangCells g, q.2.gone = false) → exec (.gangExit g) s = .next s) ∧
    (gg.state = .resident → gg.doomed = none → s.gangCtx g = none ∨ (s.part (partOfGang g)).quotaOn = false →
      (∀ q ∈ s.gangCells g, q.2.gone = true) → ∃ t y, exec (.gangExit g) s = .next t ∧ t.gang? g = none ∧ t.mem = s.mem ∧
      t.launches.find? l = some y ∧ y.cmds = [{ c with status := some 0, gang := none }] ∧
      y.nkern.toNat = min (x.nkern.toNat + 1) (2 ^ 32 - 1)) ∧
    (∀ st, gg.state = .stopped → gg.doomed = some st → s.unperformed g = true → exec (.gangExit g) s = .next s) ∧
    (∀ st, gg.state = .stopped → gg.doomed = some st → st ≠ 0 → s.unperformed g = false →
      ∃ t y, exec (.gangExit g) s = .next t ∧ t.gang? g = none ∧ t.gangCells g = [] ∧
        t.launches.find? l = some y ∧ y.cmds = [{ c with status := some st, gang := none }] ∧ y.nkern = x.nkern))

/-! ## Wear, errors, host -/

/-- wqry gives WUSED or the state word of a cell, 0 for what is no cell, and a privilege fault outside the share of a
supervisor's partition; wset moves a cell to a later state with CAUSE 3, commits it, and clears the AVAIL bit of one that it
retires: with the last one of an active die ST becomes 3 in the same update, which counts only if it changes a register, and
the die's replicas are dropped; a die that had failed keeps its ST. Before the lifetime record is ready no cell is named (01
R17, R22; 19 R378; 21 R404, R405, R412, R413, Tables 21-3, 21-4; 23 R432; what the forms then give is log 98). At the end of a
sampling interval a cell's WUSED grows by the greater of its two estimates, without wrapping, its key is raised once WUSED has
passed it by the margin, and its state follows its budget; a commit copies the record to storage; an alarm retires its cell;
before the lifetime record is ready nothing accrues and nothing is committed (21 R402 to R405, R407; 23 R432). -/
def Obligations.WearFormsAndAccrual : Prop :=
  (∀ (d a b sel : BitVec 5) (s : State) (k : Nat),
     let v := ((s.core k).a.reg a).toNat
     let slot := v / 2 ^ 11
     let unit := v / 2 ^ 5 % 2 ^ 6
     let cell := v < 2 ^ 16 ∧ v % 2 ^ 5 = 0 ∧ fittedCell slot unit = true ∧ s.rdymap0.getLsbD 1 = true
     let u := slot * 32 + unit
     let l := s.unitLife u
     (SupervisorIssues s k [d, a] →
       (¬cell → exec (.wqry d a sel) s = .next (s.gives k d 0)) ∧
       (cell → (s.core k).priv = .supervisor → (s.part (((s.core k).part).getD 0)).layout.share.toList.getD slot 0 &&& 1 <<< unit = 0 →
         exec (.wqry d a sel) s = .next (s.raiseTrap (.core k) 0x01 0 .fatal (BitVec.ofNat 64 0x1DC) 0)) ∧
       (cell → (s.core k).priv = .root ∨
           (s.part (((s.core k).part).getD 0)).layout.share.toList.getD slot 0 &&& 1 <<< unit ≠ 0 →
         exec (.wqry d a 0) s = .next (s.gives k d l.wused) ∧
         exec (.wqry d a 1) s = .next (s.gives k d (BitVec.ofNat 64 (1 + 2 * (s.residentOn u).toNat + 4 * l.nomhold.toNat +
           2 ^ 4 * l.wstate.toNat + 2 ^ 8 * l.cause.toNat + 2 ^ 16 * l.alarms.toNat + 2 ^ 32 * l.key.toNat))))) ∧
     (SupervisorIssues s k [d, a, b] → (s.core k).priv = .root →
       let st := ((s.core k).a.reg b).toNat
       (¬cell → exec (.wset d a b) s = .next (s.gives k d 2)) ∧
       (cell → 3 < st ∨ st ≤ l.wstate.toNat → exec (.wset d a b) s = .next (s.gives k d 1)) ∧
       (cell → st ≤ 3 → l.wstate.toNat < st → ∃ t, exec (.wset d a b) s = .next t ∧ t.core k = (s.gives k d 0).core k ∧ t.mem = s.mem ∧
         (t.unitLife u).wstate.toNat = st ∧ (t.unitLife u).cause = 3 ∧ (t.unitLife u).wused = l.wused ∧
         t.committed.find? u = some { wused := l.wused, wstate := (t.unitLife u).wstate, cause := 3, alarms := l.alarms } ∧
         (∀ x, x ≠ u → t.unitLife x = s.unitLife x) ∧
         (st < 3 → t.diecell = s.diecell ∧ t.diemix = s.diemix) ∧
         (st = 3 → (t.avail slot).getLsbD unit = false ∧ (∀ j, j < 32 → j ≠ unit → (t.avail slot).getLsbD j = (s.avail slot).getLsbD j) ∧
           t.mixgen = s.mixgen + (if s.rdymap0.getLsbD 0 && (s.avail slot).getLsbD unit then 1 else 0) ∧
           (let last := (s.mix slot).toNat / 2 ^ 6 % 4 = 1 ∧ (s.avail slot).getLsbD unit = true ∧ t.avail slot = 0
            (last → (t.mix slot).toNat / 2 ^ 6 % 4 = 3 ∧ (t.mix slot).toNat / 2 ^ 8 % 2 ^ 5 = 0x1F ∧
              ∀ p, p < 8 → (t.part p).replicas.find? slot = none) ∧
            (¬last → t.diemix = s.diemix ∧ t.partitions = s.partitions)))))) ∧
  ((∀ (s : State) (u : Nat) (e f : Word), u < 1024 → fittedCell (u / 32) (u % 32) = true → s.stays = [] →
     (s.now.toNat % 2 ^ 20 ≠ 0 ∨ s.rdymap0.getLsbD 1 = false → exec (.samplingIntervalEnd [(u, e, f)]) s = .next s) ∧
     (s.now.toNat % 2 ^ 20 = 0 → s.rdymap0.getLsbD 1 = true → ∃ t, exec (.samplingIntervalEnd [(u, e, f)]) s = .next t ∧ t.mem = s.mem ∧ t.cells = s.cells ∧
       let l := s.unitLife u
       let m := t.unitLife u
       let wu := m.wused.toNat / 2 ^ 32
       let due := if 220000000 ≤ wu then 3 else if 213400000 ≤ wu then 2 else if 198000000 ≤ wu then 1 else 0
       m.wused.toNat = min (l.wused.toNat + max e.toNat f.toNat) (2 ^ 64 - 1) ∧ m.wstate.toNat = max l.wstate.toNat due ∧
         (due ≤ l.wstate.toNat → m.cause = l.cause) ∧ (l.wstate.toNat < due → m.cause = 0) ∧ m.alarms = l.alarms ∧
         m.key.toNat = (if (65536 * (l.key.toNat + 1) + 16384) * 2 ^ 32 < m.wused.toNat then m.wused.toNat / 2 ^ 48 else l.key.toNat) ∧
         (∀ x, x ≠ u → t.unitLife x = s.unitLife x))) ∧
   (∀ (s : State), s.rdymap0.getLsbD 1 = false → exec .lifetimeCommit s = .next s) ∧
   (∀ (s : State), s.now.toNat % 2 ^ 32 = 0 → s.rdymap0.getLsbD 1 = true → ∃ t, exec .lifetimeCommit s = .next t ∧ t = { s with committed := t.committed } ∧
     ∀ u, t.committed.find? u = (s.life.find? u).map (fun l => ({ wused := l.wused, wstate := l.wstate, cause := l.cause, alarms := l.alarms } : UnitRecord))) ∧
   (∀ (s : State) (u : Nat), fittedCell (u / 32) (u % 32) = true →
     let l := s.unitLife u
     let raised (t : State) : Prop := (t.unitLife u).wstate = 3 ∧ (t.avail (u / 32)).getLsbD (u % 32) =
         (decide (l.wstate = 3) && (s.avail (u / 32)).getLsbD (u % 32)) ∧
       (t.unitLife u).alarms.toNat = min (l.alarms.toNat + 1) (2 ^ 16 - 1) ∧ (l.wstate ≠ 3 → (t.unitLife u).cause = 2)
     (s.standing u = none → ∃ t, exec (.monitorAlarm u) s = .next t ∧ raised t ∧ t.cells = s.cells) ∧
     (∀ key c, s.standing u = some (key, c) → ∃ t : State, raised t ∧ t.cells = s.cells ∧ exec (.monitorAlarm u) s =
       .next (t.raiseTrap (.aseq key) 0x13 0x05 .fatal 0 (BitVec.ofNat 64 (u / 32 * 2 ^ 11 + u % 32 * 2 ^ 5))))))

/-- An error of one bit in a scrubbed word stays until patrol corrects and counts it, others are corrected and counted as they
are found, and one of two bits poisons its word or, in the parity of a sequencer of a cell or core, raises the fault there;
the end of a window clears the counts, returns an array that erred too often to nominal for good, and lowers only arrays of
healthy cells (22 R414 to R416, R421, R422; the moment of detection is the model's, log 19). Loss of a buffer die makes it
inactive with no unit in one update; a duplicated write of the neighbour is performed and counted as acknowledged unless it
would consume poison; an acknowledgement completes the oldest mirrored write, whose lines leave the read-only cache of its
die, a late one is reported once, and a link that comes up again sends what is unacknowledged (22 R419, R420; 06 R127, R129;
01 R17, R22; which ports are package links, log 95). -/
def Obligations.ErrorsLossesAndMirrors : Prop :=
  ((∀ (s : State) (loc : Nat), 2 ^ 49 ≤ loc → loc < 2 ^ 49 + 27 * 2 ^ 35 →
     (∃ t, exec (.softError (.unit loc) false) s = .next t ∧ t = { s with upsets := t.upsets } ∧ loc / 8 ∈ t.upsets ∧
       ∀ k, k ∈ t.upsets → k ≠ loc / 8 → k ∈ s.upsets) ∧
     (∃ t, exec (.softError (.unit loc) true) s = .next t ∧ t.poison.find? (loc / 8) = some 1 ∧ t.mem = s.mem ∧
       (∀ k, k ≠ loc / 8 → t.poison.find? k = s.poison.find? k)) ∧
     (loc / 8 ∉ s.upsets → exec (.patrolScrub (.unit loc)) s = .next s) ∧
     (let u := (loc - 2 ^ 49) / 2 ^ 30
      loc / 8 ∈ s.upsets → fittedCell (u / 32) (u % 32) = true → ∃ t, exec (.patrolScrub (.unit loc)) s = .next t ∧
       t.upsets = s.upsets.erase (loc / 8) ∧ t.mem = s.mem ∧
       (t.array u 0).errors.toNat = min ((s.array u 0).errors.toNat + 1) (2 ^ 32 - 1))) ∧
   (∀ (s : State) (ag : Agent) (d : Bool),
     (∀ key c, ag.cell? = some key → s.cell? key = some c → c.gone = false → ∃ t : State, t.cells = s.cells ∧ t.mem = s.mem ∧
       exec (.softError (.sequencer ag) d) s = .next (t.raiseTrap ag 0x13 0x04 .fatal 8 0)) ∧
     (∀ k, ag = .core k → k < 16 → (s.core k).running = true →
       exec (.softError (.sequencer ag) d) s = .next (s.raiseTrap ag 0x13 0x04 .fatal 8 0))) ∧
   (∀ (s : State) (u a : Nat),
     let x := s.array u a
     let may := s.cethr.getLsbD 31 = true ∧ fittedCell (u / 32) (u % 32) = true ∧ a < 10 ∧ x.locked = false ∧ (s.unitLife u).wstate = 0
     (¬may → exec (.arrayUndervolt u a) s = .next s) ∧
     (may → ∃ t, exec (.arrayUndervolt u a) s = .next t ∧ t.array u a = { x with below := true } ∧ t = { s with arrays := t.arrays })) ∧
   (∀ (s : State) (u a : Nat) (x : ArrayState), s.arrays = [(u * 64 + a, x)] → a < 64 →
     let above := s.cethr.toNat % 2 ^ 16 < x.errors.toNat
     (s.now.toNat % 2 ^ 28 ≠ 0 → exec .errorWindowEnd s = .next s) ∧
     (s.now.toNat % 2 ^ 28 = 0 → s.cethr.toNat % 2 ^ 16 ≠ 0 → ∃ t, exec .errorWindowEnd s = .next t ∧ (t.array u a).errors = 0 ∧
       (x.below = true → above → (t.array u a).below = false ∧ (t.array u a).locked = true) ∧
       (x.below = true → ¬above → s.cethr.getLsbD 31 = true → (t.array u a).below = true) ∧
       (x.below = false → above → x.holds = 100 → (s.unitLife u).wstate = 0 → (t.unitLife u).wstate = 1 ∧ (t.unitLife u).cause = 1) ∧
       (x.below = true ∨ ¬above ∨ x.holds < 100 → t.life = s.life)))) ∧
  ((∀ (s : State) (slot : Nat), 17 ≤ slot → slot ≤ 24 → (∀ p, p < 8 → (s.part p).formed = false) →
     ((s.mix slot).toNat / 2 ^ 6 % 4 ≠ 1 → exec (.bufferDieFailure slot) s = .next s) ∧
     ((s.mix slot).toNat / 2 ^ 6 % 4 = 1 → ∃ t, exec (.bufferDieFailure slot) s = .next t ∧ (t.mix slot).toNat / 2 ^ 6 % 4 = 2 ∧
       (t.mix slot).toNat / 2 ^ 8 % 2 ^ 5 = 0x1F ∧ (t.mix slot).toNat % 2 ^ 6 = (s.mix slot).toNat % 2 ^ 6 ∧ t.avail slot = 0 ∧
       t.mixgen = s.mixgen + (if s.rdymap0.getLsbD 0 then 1 else 0) ∧ (∀ k, k < 32 → k ≠ slot → t.mix k = s.mix k ∧ t.avail k = s.avail k) ∧
       ∀ n, t.poisoned (2 ^ 49 + slot * 2 ^ 35 + n % 2 ^ 35) 8 = true)) ∧
   (∀ (s : State) (pa : Nat) (data : List Byte), pa + data.length ≤ 2 ^ 40 → s.partialPoison pa data.length = true →
     exec (.mirrorWriteReceive pa data) s = .next s) ∧
   (∀ (s : State) (pa : Nat) (data : List Byte), pa + data.length ≤ 2 ^ 40 → s.partialPoison pa data.length = false → ∃ t, exec (.mirrorWriteReceive pa data) s = .next t ∧
     readBytes t.mem pa data.length = data ∧ SameOutside s t pa data.length ∧ t.mirrorAcks = s.mirrorAcks + 1) ∧
   (∀ (s : State) (p : Nat) (w : MirrorWrite) (rest : List MirrorWrite), p < 8 → (s.part p).mirrorOut = w :: rest →
     let tmo := (s.part p).mirst.toNat / 2 ^ 8 % 2 ^ 24
     (s.packageUp = false → exec (.mirrorAck p) s = .next s) ∧
     (s.packageUp = true → ∃ t, exec (.mirrorAck p) s = .next t ∧ (t.part p).mirrorOut = rest ∧ t.mem = s.mem ∧
       (∀ ag id q, w.owner = .access ag id → s.aseq? ag = some q → t.aseq? ag = some (q.drop id) ∧
           ∀ k, k < w.data.length → t.roByte (s.agentSlot ag) (w.loc + k) = readByte s.mem (w.loc + k))) ∧
     (tmo = 0 ∨ (s.part p).mirst.getLsbD 0 = true ∨ (s.now - w.since).toNat ≤ 1024 * tmo → exec (.mirrorTimeout p) s = .next s) ∧
     (tmo ≠ 0 → (s.part p).mirst.getLsbD 0 = false → 1024 * tmo < (s.now - w.since).toNat → (s.part p).formed = true →
       ∃ t, exec (.mirrorTimeout p) s = .next t ∧ (t.part p).mirst = (s.part p).mirst ||| 1 ∧ (t.part p).mirrorOut = w :: rest)) ∧
   (∀ (s : State), ∃ t sent, exec .packageLinkUp s = .next t ∧
     t = { s with packageUp := true, mirrorSent := sent ++ s.mirrorSent, lnkst := t.lnkst } ∧
     (∀ n, (t.lnkst.getD n 0).getLsbD 6 = ((s.lnkst.getD n 0).getLsbD 6 && !isPackageLink n) ∧
       ∀ j, j ≠ 6 → (t.lnkst.getD n 0).getLsbD j = (s.lnkst.getD n 0).getLsbD j) ∧
     sent.length = (s.partitions.toList.map (fun p => p.mirrorOut.length)).sum))

/-- A host link that comes up lets host-path accesses pass, and one that goes down takes the semaphore from its owner; over a
link that is up a host reads and writes the HBM that its port serves, poison standing for what is poisoned or not yet active,
and the registers of BAR0, of which HSEM and LCMD alone take a write; the semaphore has one owner, which alone gives it up,
and SEQ counts its acquires (06 R128; 22 R416; 23 R423, R424, R426, R427, R432, Tables 23-2, 23-3). Where replies stand, and
which reads give nothing, is log 81; that a released HSEM keeps OWNER is log 82. The responder of a port answers each request
once it is ready, and changes nothing else but a secured session and the keys that one programs; what the answers hold is free
(23 R423, R430, R431; log 9). That IDE_KM without a session does nothing is log 80. -/
def Obligations.PortsAndResponder : Prop :=
  (∀ (s : State) (port : Bool),
     (∃ t, exec (.hostLinkUp port) s = .next t ∧ t = { s with portUp := t.portUp } ∧ t.portUp[portIx port] = true ∧
       t.portUp[portIx (!port)] = s.portUp[portIx (!port)]) ∧
     (∃ t, exec (.hostLinkDown port) s = .next t ∧ t.mem = s.mem ∧ t.portUp[portIx port] = false ∧
       t.portUp[portIx (!port)] = s.portUp[portIx (!port)] ∧ t.hsem.owner = s.hsem.owner ∧ t.hsem.seq = s.hsem.seq ∧
       t.hsem.held = (s.hsem.held && decide (s.hsem.owner ≠ port))) ∧
     (let up := s.portUp[portIx port]
      let served (pa n : Nat) : Prop := 0 < n ∧ ∀ k, k < n → ∃ p, p < 8 ∧ (s.part p).formed = true ∧ (s.part p).layout.queueCount ≠ 0 ∧
        (s.part p).layout.port = port ∧ ∃ r ∈ (s.part p).layout.hbm, r.1 ≤ pa + k ∧ pa + k < r.1 + r.2
      let active (pa n : Nat) : Bool := s.rdymap1.getLsbD (hbmSlot pa) && s.rdymap1.getLsbD (hbmSlot (pa + n - 1))
      let replies (data : List Byte) (bad : Bool) : State := { s with hostReplies := { port, data, poison := bad } :: s.hostReplies }
      let shows (off : Nat) (v : Word) : Prop :=
        exec (.hostMemoryAccess port (.readRegister off)) s = .next (replies (leBytes 8 v.toNat) false)
      let usable (v : Word) : Word := if s.rdymap0.getLsbD 6 then v else 0
      (up = false → ∀ op, exec (.hostMemoryAccess port op) s = .next s) ∧
      (up = true →
        (∀ pa n, ¬served pa n → exec (.hostMemoryAccess port (.read pa n)) s = .next s) ∧
        (∀ pa n, served pa n → active pa n = true → s.poisoned pa n = false →
          exec (.hostMemoryAccess port (.read pa n)) s = .next (replies (readBytes s.mem pa n) false)) ∧
        (∀ pa n, served pa n → active pa n = false ∨ s.poisoned pa n = true →
          exec (.hostMemoryAccess port (.read pa n)) s = .next (replies [] true)) ∧
        (∀ pa data, ¬served pa data.length ∨ active pa data.length = false ∨ s.partialPoison pa data.length = true →
          exec (.hostMemoryAccess port (.write pa data)) s = .next s) ∧
        (∀ pa data, served pa data.length → active pa data.length = true → s.partialPoison pa data.length = false →
          ∃ u : State, exec (.hostMemoryAccess port (.write pa data)) s = .next (u.observeLines pa data.length) ∧
            readBytes u.mem pa data.length = data ∧ SameOutside s u pa data.length ∧ u.cells = s.cells ∧ u.queues = s.queues ∧
            ((∀ q ∈ s.wqcfg, ∀ x ∈ (u.queueSpan q.1 (-128) 64 .read).getD [], ∀ l, x.1 = some l →
              l + x.2 ≤ pa ∨ pa + data.length ≤ l) → u.observeLines pa data.length = u)) ∧
        shows 0 (usable (BitVec.ofNat 64 (s.hsem.held.toNat + 2 * s.hsem.owner.toNat + 2 ^ 16 * s.hsem.seq.toNat))) ∧
        shows 0x10 s.rdymap0 ∧ shows 0x18 s.rdymap1 ∧ shows 0x20 s.pkgstat ∧ (∀ p, p < 8 → shows (0x100 + 8 * p) (s.part p).pfatal) ∧
        shows 0x200 (usable s.lcmd) ∧
        shows 0x208 (usable (BitVec.ofNat 64 (s.lstatCode.toNat + 2 ^ 63 * s.lstatBusy.toNat))) ∧
        (∀ off, ¬(off = 0 ∨ off = 0x10 ∨ off = 0x18 ∨ off = 0x20 ∨ off = 0x200 ∨ off = 0x208 ∨ (0x100 ≤ off ∧ off < 0x140 ∧ off % 8 = 0)) →
          shows off 0) ∧
        (∀ off v, off ≠ 0 → off ≠ 0x200 → exec (.hostMemoryAccess port (.writeRegister off v)) s = .next s) ∧
        (∀ v, exec (.hostMemoryAccess port (.writeRegister 0 v)) s = exec (if v.getLsbD 0 then .hsemAcquire port else .hsemRelease port) s) ∧
        (∀ v : Word, let runs (i : Instr) : Prop := exec (.hostMemoryAccess port (.writeRegister 0x200 v)) s = exec i s
          let op := v.toNat % 16
          (op = 1 → runs (.formPartition port v)) ∧ (op = 2 → runs (.dissolvePartition port v)) ∧ (op = 3 → runs (.writeWpol port v)) ∧
          (op = 4 → runs (.writeCethr port v)) ∧ (op = 5 → runs (.stageFirmware port v)) ∧
          (op = 0 ∨ 6 ≤ op → runs (.layoutReservedOp port (BitVec.ofNat 4 op) v))))) ∧
     (let ready := s.rdymap0.getLsbD 6
      (ready = true → s.hsem.held = false → exec (.hsemAcquire port) s =
         .next { s with hsem := { seq := s.hsem.seq + 1, owner := port, held := true } }) ∧
      (ready = false ∨ s.hsem.held = true → exec (.hsemAcquire port) s = .next s) ∧
      (ready = true → s.hsem.held = true → s.hsem.owner = port → exec (.hsemRelease port) s =
         .next { s with hsem := { seq := s.hsem.seq, owner := port, held := false } }) ∧
      (ready = false ∨ s.hsem.held = false ∨ s.hsem.owner ≠ port → exec (.hsemRelease port) s = .next s))) ∧
  (∀ (s : State) (port : Bool) (req : List Byte),
     let px := portIx port
     let ready := s.rdymap0.getLsbD 7
     let answering (resp : List Byte) : State := { s with spdm := s.spdm.set px (req, resp) }
     let plain : List (Instr × Nat) := [(.getVersion port req, 0), (.getCapabilities port req, 1), (.negotiateAlgorithms port req, 2),
       (.getDigests port req, 3), (.getCertificate port req, 4), (.challenge port req, 5)]
     (ready = true → (∀ i ∈ plain, exec i.1 s = .next (answering (Config.spdmResponse i.2 req s.mr.toList))) ∧
       (∃ body sig, exec (.getMeasurements port req) s = .next (answering (body ++ sig)) ∧
         body = Config.spdmReport req ((List.range 8).map (fun i => (i + 1, s.mr.toList.getD i 0))) ∧ sig = Config.signature body) ∧
       (∃ t, exec (.pskExchange port req) s = .next t ∧ t.session[px] = true ∧ t = { answering (t.spdm[px]).2 with session := t.session }) ∧
       (s.session[px] = true → exec (.ideKmKeyProg port req) s = .next { s with ide := s.ide.set px (Config.ideKeys req) }) ∧
       (s.session[px] = false → exec (.ideKmKeyProg port req) s = .next s)) ∧
     (ready = false → (∀ i ∈ plain, exec i.1 s = .next s) ∧ exec (.getMeasurements port req) s = .next s ∧
       exec (.pskExchange port req) s = .next s ∧ exec (.ideKmKeyProg port req) s = .next s))

/-- A layout command is taken while the package is ready and does nothing but report code 0x01 from a port that does not hold
the semaphore; an unassigned op is code 0x03 and a read that faults 0x05; the commands that pass set WPOL or CETHR, stage an
image, form a partition from a valid descriptor whose resources are free, or dissolve one; its buffer slices are then 0, and
each active die has a replica of its empty table (23 R427, R428; 06 R132; 19 R378; 21 R409; 22 R421). How descriptor addresses
are checked is log 75, dissolving a partition that is not formed log 76, and the fields of WQCFG that stay log 79. -/
def Obligations.LayoutCommandsRun : Prop :=
  ∀ (s : State) (port : Bool) (addr : Word),
    let at_ := 2 ^ 48 + addr.toNat % 2 ^ 48 / 64 * 64
    let bs := readBytes s.mem at_ 284
    let p := field bs 0 1
    let l := descLayout bs
    let reports (op code : Nat) (u : State) : State := { u with
      lcmd := BitVec.ofNat 64 (addr.toNat / 64 * 64 + op), lstatBusy := false, lstatCode := BitVec.ofNat 8 code }
    let ops : List (Instr × Nat) := [(.formPartition port addr, 1), (.dissolvePartition port addr, 2), (.writeWpol port addr, 3),
      (.writeCethr port addr, 4), (.stageFirmware port addr, 5)]
    let taken := s.rdymap0.getLsbD 6 = true ∧ s.lstatBusy = false ∧ s.pkgstat.getLsbD 0 = false
    let holds := s.hsem.held = true ∧ s.hsem.owner = port
    let reads := addr.toNat / 2 ^ 48 = 4 * 2 ^ 12 ∧ addr.toNat % 2 ^ 48 + 284 ≤ 2 ^ 48 ∧ s.portUp[portIx port] = true ∧
      s.poison = [] ∧ s.lostDies = []
    let buffersZero (b : Layout) (t : State) : Prop := ∀ a,
      ((∃ slot ∈ b.buffers, 2 ^ 49 + slot * 2 ^ 35 ≤ a ∧ a < 2 ^ 49 + (slot + 1) * 2 ^ 35) → readByte t.mem a = 0) ∧
      ((∀ slot ∈ b.buffers, ¬(2 ^ 49 + slot * 2 ^ 35 ≤ a ∧ a < 2 ^ 49 + (slot + 1) * 2 ^ 35)) → readByte t.mem a = readByte s.mem a)
    (¬taken → ∀ i ∈ ops, exec i.1 s = .next s) ∧
    (taken → ¬holds → ∀ i ∈ ops, exec i.1 s = .next (reports i.2 1 s)) ∧
    (taken → holds → addr.toNat / 2 ^ 60 ≠ 4 ∨ s.portUp[portIx port] = false → ∀ i ∈ ops, exec i.1 s = .next (reports i.2 5 s)) ∧
    (∀ op : BitVec 4, op = 0 ∨ 6 ≤ op.toNat → taken →
      exec (.layoutReservedOp port op addr) s = .next (reports op.toNat (if holds then 3 else 1) s)) ∧
    (taken → holds → reads →
      (8 ≤ p → exec (.writeWpol port addr) s = .next (reports 3 3 s) ∧ exec (.dissolvePartition port addr) s = .next (reports 2 3 s)) ∧
      (p < 8 → exec (.writeWpol port addr) s =
        .next (reports 3 0 (s.setPart p { s.part p with wpol := BitVec.ofNat 2 (field bs 8 8) }))) ∧
      exec (.writeCethr port addr) s = .next (reports 4 0 { s with cethr := BitVec.ofNat 64 (field bs 8 8) &&& 0x8000FFFF }) ∧
      (let src := field bs 0 8
       let len := field bs 8 8
       src / 2 ^ 48 = 4 * 2 ^ 12 → src % 2 ^ 48 + len ≤ 2 ^ 48 → exec (.stageFirmware port addr) s =
         .next (reports 5 0 { s with staged := s.staged ++ [readBytes s.mem (2 ^ 48 + src % 2 ^ 48) len] })) ∧
      (p < 8 → (s.part p).formed = false → exec (.dissolvePartition port addr) s = .next (reports 2 0 s)) ∧
      (p < 8 → (s.part p).formed = true → s.gangs = [] → s.launches = [] → s.stays = [] → (∀ q ∈ s.wqcfg, q.2.toNat / 2 ^ 57 % 8 ≠ p) →
        ∃ t, exec (.dissolvePartition port addr) s = .next t ∧
        t.lstatCode = 0 ∧ t.part p = { Partition.unformed with pfatal := (s.part p).pfatal } ∧ buffersZero (s.part p).layout t ∧
        (∀ n, n < 8 → n ≠ p → t.part n = s.part n) ∧
        (∀ k, k < 16 → t.core k = if (s.core k).part = some p then Core.idle else s.core k)) ∧
      (layoutValid bs = false → exec (.formPartition port addr) s = .next (reports 1 3 s)) ∧
      (layoutValid bs = true → s.resourcesHeld p l = true ∨ ((s.part p).formed = true ∧ (s.part p).stopped = false) →
        exec (.formPartition port addr) s = .next (reports 1 4 s)) ∧
      (layoutValid bs = true → s.resourcesHeld p l = false → (s.part p).formed = false → ∃ t, exec (.formPartition port addr) s = .next t ∧
        t.lstatCode = 0 ∧ buffersZero l t ∧ (t.part p).formed = true ∧ (t.part p).stopped = false ∧ (t.part p).layout = l ∧
        (t.part p).pfatal = 0 ∧ (t.part p).tqcfg = 0 ∧ (t.part p).entries = [] ∧
        (∀ k, k < 29 → (t.part p).replicas.find? k =
          if (s.mix k).toNat / 2 ^ 6 % 4 = 1 then some { gen := 0, entries := [] } else none) ∧
        (t.part p).dremap.toNat / 2 ^ 40 = l.buffers.length ∧
        (∀ j, j < l.buffers.length → (t.part p).dremap.toNat / 2 ^ (5 * j) % 32 = l.buffers.getD j 0) ∧
        (∀ k, k < 16 → l.cores.getLsbD k = true → t.core k = { Core.idle with part := some p }) ∧
        (∀ n, l.firstQueue ≤ n → n < l.firstQueue + l.queueCount → (t.wq n).toNat / 2 ^ 57 % 8 = p ∧ (t.wq n).getLsbD 56 = l.port ∧
          (∀ j, j < 64 → (j < 56 ∨ 60 ≤ j) → (t.wq n).getLsbD j = (s.wq n).getLsbD j))))

/-- Package reset: the cycle counter is 0, DIEMIX and DIECELL show the dies and units that pass self-test, LIDX numbers the
active dies of a type and cluster, MIXGEN is 1 and the mix bit comes unless the control die failed, the stacks of a failed
buffer die are lost, the mix is measured into MR5, every cell has its last commit with one commit period of wear added, and of
memory only the hosts' stays (01 R15 to R17, R23, Table 1-3; 16 R313; 21 R404, R407; 23 R430, R432; which image stands for the
mix is free, log 97). What a reset keeps is log 83, bring-up in one step log 98, what memory reads without a write log 1, and
commit periods log 74. -/
def Obligations.PackageResetBringsUp : Prop :=
  ∀ (s : State) (test : SelfTest), s.committed = [] → s.staged = [] → test.images = [] →
    ∃ t, exec (.packageReset test) s = .next t ∧ t.now = 0 ∧ t.gangs = [] ∧ t.cells = [] ∧ t.launches = [] ∧
      t.partitions = State.reset.partitions ∧ t.tblver = s.tblver ∧ t.portUp = s.portUp ∧
      (∀ k (h : k < 8), t.mr[k] = if k = 5 then Config.shake256 (leBytes 64 0 ++
        leBytes 64 (Config.shake256 (Config.mixImage t.diemix.toList t.diecell.toList)).toNat) else 0) ∧
      (∀ a, readByte t.mem a = if 2 ^ 48 ≤ a ∧ a < 2 ^ 49 then readByte s.mem a else 0) ∧
      (∀ k, k < 29 →
        let up := test.dies.getLsbD k
        let type := if k = 0 then 1 else if k ≤ 12 then 2 else if k ≤ 16 then 3 else if k ≤ 24 then 4 else if k ≤ 26 then 5 else 6
        let units := [0, 16, 24, 32, 16, 16, 6].getD type 0
        (t.mix k).toNat % 16 = type ∧ (t.mix k).toNat / 2 ^ 6 % 4 = (if up then 1 else 2) ∧ t.rdymap1.getLsbD k = up ∧
          (up = false → (t.mix k).toNat / 2 ^ 8 % 32 = 0x1F ∧ t.avail k = 0) ∧
          (up = true → (t.mix k).toNat / 2 ^ 8 % 32 =
            (List.range k).countP (fun j => test.dies.getLsbD j && decide ((t.mix j).toNat % 64 = (t.mix k).toNat % 64))) ∧
          (t.lostDies.find? k).isSome = (decide (type = 4) && !up) ∧
          (up = true → ∀ j, j < 32 → (t.avail k).getLsbD j = (decide (j < units) && !(test.failedUnits.getD k 0).getLsbD j)) ∧
          (2 ≤ type → type ≠ 4 → type ≠ 6 → ∀ j, j < units →
            t.unitLife (k * 32 + j) = { wused := 6871947674, wstate := 0, cause := 0, alarms := 0, key := 0, nomhold := false })) ∧
      (∀ k, 29 ≤ k → k < 32 → t.mix k = 0x00001F30 ∧ t.avail k = 0) ∧
      t.rdymap0 = (if test.dies.getLsbD 0 then 0xFF else 0xFE) ∧ t.mixgen = 1

end
end

