-- ==== Sys2Proof/Laws/State.lean ====
section
/-! SUPPORT. One lemma for each field of the state and each named update: what the update leaves as it was, and what it sets. -/

namespace Sys2Proof.Machine

/-! ## setPart -/

@[simp] theorem State.setPart_now (s : State) (p : Nat) (x : Partition) : (s.setPart p x).now = s.now := rfl
@[simp] theorem State.setPart_diemix (s : State) (p : Nat) (x : Partition) : (s.setPart p x).diemix = s.diemix := rfl
@[simp] theorem State.setPart_diecell (s : State) (p : Nat) (x : Partition) : (s.setPart p x).diecell = s.diecell := rfl
@[simp] theorem State.setPart_mixgen (s : State) (p : Nat) (x : Partition) : (s.setPart p x).mixgen = s.mixgen := rfl
@[simp] theorem State.setPart_view (s : State) (p : Nat) (x : Partition) : (s.setPart p x).view = s.view := rfl
@[simp] theorem State.setPart_rdymap0 (s : State) (p : Nat) (x : Partition) : (s.setPart p x).rdymap0 = s.rdymap0 := rfl
@[simp] theorem State.setPart_rdymap1 (s : State) (p : Nat) (x : Partition) : (s.setPart p x).rdymap1 = s.rdymap1 := rfl
@[simp] theorem State.setPart_pkgstat (s : State) (p : Nat) (x : Partition) : (s.setPart p x).pkgstat = s.pkgstat := rfl
@[simp] theorem State.setPart_hsem (s : State) (p : Nat) (x : Partition) : (s.setPart p x).hsem = s.hsem := rfl
@[simp] theorem State.setPart_lstatBusy (s : State) (p : Nat) (x : Partition) : (s.setPart p x).lstatBusy = s.lstatBusy := rfl
@[simp] theorem State.setPart_lstatCode (s : State) (p : Nat) (x : Partition) : (s.setPart p x).lstatCode = s.lstatCode := rfl
@[simp] theorem State.setPart_lcmd (s : State) (p : Nat) (x : Partition) : (s.setPart p x).lcmd = s.lcmd := rfl
@[simp] theorem State.setPart_mr (s : State) (p : Nat) (x : Partition) : (s.setPart p x).mr = s.mr := rfl
@[simp] theorem State.setPart_spdm (s : State) (p : Nat) (x : Partition) : (s.setPart p x).spdm = s.spdm := rfl
@[simp] theorem State.setPart_ide (s : State) (p : Nat) (x : Partition) : (s.setPart p x).ide = s.ide := rfl
@[simp] theorem State.setPart_session (s : State) (p : Nat) (x : Partition) : (s.setPart p x).session = s.session := rfl
@[simp] theorem State.setPart_staged (s : State) (p : Nat) (x : Partition) : (s.setPart p x).staged = s.staged := rfl
@[simp] theorem State.setPart_cethr (s : State) (p : Nat) (x : Partition) : (s.setPart p x).cethr = s.cethr := rfl
@[simp] theorem State.setPart_tblver (s : State) (p : Nat) (x : Partition) : (s.setPart p x).tblver = s.tblver := rfl
@[simp] theorem State.setPart_lnkst (s : State) (p : Nat) (x : Partition) : (s.setPart p x).lnkst = s.lnkst := rfl
@[simp] theorem State.setPart_wqcfg (s : State) (p : Nat) (x : Partition) : (s.setPart p x).wqcfg = s.wqcfg := rfl
@[simp] theorem State.setPart_queues (s : State) (p : Nat) (x : Partition) : (s.setPart p x).queues = s.queues := rfl
@[simp] theorem State.setPart_served (s : State) (p : Nat) (x : Partition) : (s.setPart p x).served = s.served := rfl
@[simp] theorem State.setPart_life (s : State) (p : Nat) (x : Partition) : (s.setPart p x).life = s.life := rfl
@[simp] theorem State.setPart_committed (s : State) (p : Nat) (x : Partition) : (s.setPart p x).committed = s.committed := rfl
@[simp] theorem State.setPart_stays (s : State) (p : Nat) (x : Partition) : (s.setPart p x).stays = s.stays := rfl
@[simp] theorem State.setPart_arrays (s : State) (p : Nat) (x : Partition) : (s.setPart p x).arrays = s.arrays := rfl
@[simp] theorem State.setPart_portUp (s : State) (p : Nat) (x : Partition) : (s.setPart p x).portUp = s.portUp := rfl
@[simp] theorem State.setPart_packageUp (s : State) (p : Nat) (x : Partition) : (s.setPart p x).packageUp = s.packageUp := rfl
@[simp] theorem State.setPart_interrupts (s : State) (p : Nat) (x : Partition) : (s.setPart p x).interrupts = s.interrupts := rfl
@[simp] theorem State.setPart_records (s : State) (p : Nat) (x : Partition) : (s.setPart p x).records = s.records := rfl
@[simp] theorem State.setPart_hostReplies (s : State) (p : Nat) (x : Partition) : (s.setPart p x).hostReplies = s.hostReplies := rfl
@[simp] theorem State.setPart_mirrorSent (s : State) (p : Nat) (x : Partition) : (s.setPart p x).mirrorSent = s.mirrorSent := rfl
@[simp] theorem State.setPart_mirrorAcks (s : State) (p : Nat) (x : Partition) : (s.setPart p x).mirrorAcks = s.mirrorAcks := rfl
@[simp] theorem State.setPart_mem (s : State) (p : Nat) (x : Partition) : (s.setPart p x).mem = s.mem := rfl
@[simp] theorem State.setPart_poison (s : State) (p : Nat) (x : Partition) : (s.setPart p x).poison = s.poison := rfl
@[simp] theorem State.setPart_upsets (s : State) (p : Nat) (x : Partition) : (s.setPart p x).upsets = s.upsets := rfl
@[simp] theorem State.setPart_lostDies (s : State) (p : Nat) (x : Partition) : (s.setPart p x).lostDies = s.lostDies := rfl
@[simp] theorem State.setPart_dieTlb (s : State) (p : Nat) (x : Partition) : (s.setPart p x).dieTlb = s.dieTlb := rfl
@[simp] theorem State.setPart_roCache (s : State) (p : Nat) (x : Partition) : (s.setPart p x).roCache = s.roCache := rfl
@[simp] theorem State.setPart_marks (s : State) (p : Nat) (x : Partition) : (s.setPart p x).marks = s.marks := rfl
@[simp] theorem State.setPart_tags (s : State) (p : Nat) (x : Partition) : (s.setPart p x).tags = s.tags := rfl
@[simp] theorem State.setPart_waggles (s : State) (p : Nat) (x : Partition) : (s.setPart p x).waggles = s.waggles := rfl
@[simp] theorem State.setPart_gangs (s : State) (p : Nat) (x : Partition) : (s.setPart p x).gangs = s.gangs := rfl
@[simp] theorem State.setPart_cells (s : State) (p : Nat) (x : Partition) : (s.setPart p x).cells = s.cells := rfl
@[simp] theorem State.setPart_launches (s : State) (p : Nat) (x : Partition) : (s.setPart p x).launches = s.launches := rfl
@[simp] theorem State.setPart_nextLaunch (s : State) (p : Nat) (x : Partition) : (s.setPart p x).nextLaunch = s.nextLaunch := rfl
@[simp] theorem State.setPart_nextGang (s : State) (p : Nat) (x : Partition) : (s.setPart p x).nextGang = s.nextGang := rfl
@[simp] theorem State.setPart_cores (s : State) (p : Nat) (x : Partition) : (s.setPart p x).cores = s.cores := rfl
@[simp] theorem State.setPart_parked (s : State) (p : Nat) (x : Partition) : (s.setPart p x).parked = s.parked := rfl
@[simp] theorem State.setPart_contexts (s : State) (p : Nat) (x : Partition) : (s.setPart p x).contexts = s.contexts := rfl
@[simp] theorem State.setPart_nextPtupd (s : State) (p : Nat) (x : Partition) : (s.setPart p x).nextPtupd = s.nextPtupd := rfl
@[simp] theorem State.setPart_fresh (s : State) (p : Nat) (x : Partition) : (s.setPart p x).fresh = s.fresh := rfl
@[simp] theorem State.setPart_focus (s : State) (p : Nat) (x : Partition) : (s.setPart p x).focus = s.focus := rfl
@[simp] theorem State.setPart_cursor (s : State) (p : Nat) (x : Partition) : (s.setPart p x).cursor = s.cursor := rfl
@[simp] theorem State.setPart_agenda (s : State) (p : Nat) (x : Partition) : (s.setPart p x).agenda = s.agenda := rfl
@[simp] theorem State.setPart_partitions (s : State) (p : Nat) (x : Partition) : (s.setPart p x).partitions = s.partitions.set (p % 8) x (Nat.mod_lt _ (by decide)) := rfl

/-! ## setCore -/

@[simp] theorem State.setCore_now (s : State) (k : Nat) (x : Core) : (s.setCore k x).now = s.now := rfl
@[simp] theorem State.setCore_diemix (s : State) (k : Nat) (x : Core) : (s.setCore k x).diemix = s.diemix := rfl
@[simp] theorem State.setCore_diecell (s : State) (k : Nat) (x : Core) : (s.setCore k x).diecell = s.diecell := rfl
@[simp] theorem State.setCore_mixgen (s : State) (k : Nat) (x : Core) : (s.setCore k x).mixgen = s.mixgen := rfl
@[simp] theorem State.setCore_view (s : State) (k : Nat) (x : Core) : (s.setCore k x).view = s.view := rfl
@[simp] theorem State.setCore_rdymap0 (s : State) (k : Nat) (x : Core) : (s.setCore k x).rdymap0 = s.rdymap0 := rfl
@[simp] theorem State.setCore_rdymap1 (s : State) (k : Nat) (x : Core) : (s.setCore k x).rdymap1 = s.rdymap1 := rfl
@[simp] theorem State.setCore_pkgstat (s : State) (k : Nat) (x : Core) : (s.setCore k x).pkgstat = s.pkgstat := rfl
@[simp] theorem State.setCore_hsem (s : State) (k : Nat) (x : Core) : (s.setCore k x).hsem = s.hsem := rfl
@[simp] theorem State.setCore_lstatBusy (s : State) (k : Nat) (x : Core) : (s.setCore k x).lstatBusy = s.lstatBusy := rfl
@[simp] theorem State.setCore_lstatCode (s : State) (k : Nat) (x : Core) : (s.setCore k x).lstatCode = s.lstatCode := rfl
@[simp] theorem State.setCore_lcmd (s : State) (k : Nat) (x : Core) : (s.setCore k x).lcmd = s.lcmd := rfl
@[simp] theorem State.setCore_mr (s : State) (k : Nat) (x : Core) : (s.setCore k x).mr = s.mr := rfl
@[simp] theorem State.setCore_spdm (s : State) (k : Nat) (x : Core) : (s.setCore k x).spdm = s.spdm := rfl
@[simp] theorem State.setCore_ide (s : State) (k : Nat) (x : Core) : (s.setCore k x).ide = s.ide := rfl
@[simp] theorem State.setCore_session (s : State) (k : Nat) (x : Core) : (s.setCore k x).session = s.session := rfl
@[simp] theorem State.setCore_staged (s : State) (k : Nat) (x : Core) : (s.setCore k x).staged = s.staged := rfl
@[simp] theorem State.setCore_cethr (s : State) (k : Nat) (x : Core) : (s.setCore k x).cethr = s.cethr := rfl
@[simp] theorem State.setCore_tblver (s : State) (k : Nat) (x : Core) : (s.setCore k x).tblver = s.tblver := rfl
@[simp] theorem State.setCore_lnkst (s : State) (k : Nat) (x : Core) : (s.setCore k x).lnkst = s.lnkst := rfl
@[simp] theorem State.setCore_wqcfg (s : State) (k : Nat) (x : Core) : (s.setCore k x).wqcfg = s.wqcfg := rfl
@[simp] theorem State.setCore_queues (s : State) (k : Nat) (x : Core) : (s.setCore k x).queues = s.queues := rfl
@[simp] theorem State.setCore_served (s : State) (k : Nat) (x : Core) : (s.setCore k x).served = s.served := rfl
@[simp] theorem State.setCore_life (s : State) (k : Nat) (x : Core) : (s.setCore k x).life = s.life := rfl
@[simp] theorem State.setCore_committed (s : State) (k : Nat) (x : Core) : (s.setCore k x).committed = s.committed := rfl
@[simp] theorem State.setCore_stays (s : State) (k : Nat) (x : Core) : (s.setCore k x).stays = s.stays := rfl
@[simp] theorem State.setCore_arrays (s : State) (k : Nat) (x : Core) : (s.setCore k x).arrays = s.arrays := rfl
@[simp] theorem State.setCore_portUp (s : State) (k : Nat) (x : Core) : (s.setCore k x).portUp = s.portUp := rfl
@[simp] theorem State.setCore_packageUp (s : State) (k : Nat) (x : Core) : (s.setCore k x).packageUp = s.packageUp := rfl
@[simp] theorem State.setCore_interrupts (s : State) (k : Nat) (x : Core) : (s.setCore k x).interrupts = s.interrupts := rfl
@[simp] theorem State.setCore_records (s : State) (k : Nat) (x : Core) : (s.setCore k x).records = s.records := rfl
@[simp] theorem State.setCore_hostReplies (s : State) (k : Nat) (x : Core) : (s.setCore k x).hostReplies = s.hostReplies := rfl
@[simp] theorem State.setCore_mirrorSent (s : State) (k : Nat) (x : Core) : (s.setCore k x).mirrorSent = s.mirrorSent := rfl
@[simp] theorem State.setCore_mirrorAcks (s : State) (k : Nat) (x : Core) : (s.setCore k x).mirrorAcks = s.mirrorAcks := rfl
@[simp] theorem State.setCore_mem (s : State) (k : Nat) (x : Core) : (s.setCore k x).mem = s.mem := rfl
@[simp] theorem State.setCore_poison (s : State) (k : Nat) (x : Core) : (s.setCore k x).poison = s.poison := rfl
@[simp] theorem State.setCore_upsets (s : State) (k : Nat) (x : Core) : (s.setCore k x).upsets = s.upsets := rfl
@[simp] theorem State.setCore_lostDies (s : State) (k : Nat) (x : Core) : (s.setCore k x).lostDies = s.lostDies := rfl
@[simp] theorem State.setCore_dieTlb (s : State) (k : Nat) (x : Core) : (s.setCore k x).dieTlb = s.dieTlb := rfl
@[simp] theorem State.setCore_roCache (s : State) (k : Nat) (x : Core) : (s.setCore k x).roCache = s.roCache := rfl
@[simp] theorem State.setCore_marks (s : State) (k : Nat) (x : Core) : (s.setCore k x).marks = s.marks := rfl
@[simp] theorem State.setCore_tags (s : State) (k : Nat) (x : Core) : (s.setCore k x).tags = s.tags := rfl
@[simp] theorem State.setCore_waggles (s : State) (k : Nat) (x : Core) : (s.setCore k x).waggles = s.waggles := rfl
@[simp] theorem State.setCore_partitions (s : State) (k : Nat) (x : Core) : (s.setCore k x).partitions = s.partitions := rfl
@[simp] theorem State.setCore_gangs (s : State) (k : Nat) (x : Core) : (s.setCore k x).gangs = s.gangs := rfl
@[simp] theorem State.setCore_cells (s : State) (k : Nat) (x : Core) : (s.setCore k x).cells = s.cells := rfl
@[simp] theorem State.setCore_launches (s : State) (k : Nat) (x : Core) : (s.setCore k x).launches = s.launches := rfl
@[simp] theorem State.setCore_nextLaunch (s : State) (k : Nat) (x : Core) : (s.setCore k x).nextLaunch = s.nextLaunch := rfl
@[simp] theorem State.setCore_nextGang (s : State) (k : Nat) (x : Core) : (s.setCore k x).nextGang = s.nextGang := rfl
@[simp] theorem State.setCore_parked (s : State) (k : Nat) (x : Core) : (s.setCore k x).parked = s.parked := rfl
@[simp] theorem State.setCore_contexts (s : State) (k : Nat) (x : Core) : (s.setCore k x).contexts = s.contexts := rfl
@[simp] theorem State.setCore_nextPtupd (s : State) (k : Nat) (x : Core) : (s.setCore k x).nextPtupd = s.nextPtupd := rfl
@[simp] theorem State.setCore_fresh (s : State) (k : Nat) (x : Core) : (s.setCore k x).fresh = s.fresh := rfl
@[simp] theorem State.setCore_focus (s : State) (k : Nat) (x : Core) : (s.setCore k x).focus = s.focus := rfl
@[simp] theorem State.setCore_cursor (s : State) (k : Nat) (x : Core) : (s.setCore k x).cursor = s.cursor := rfl
@[simp] theorem State.setCore_agenda (s : State) (k : Nat) (x : Core) : (s.setCore k x).agenda = s.agenda := rfl
@[simp] theorem State.setCore_cores (s : State) (k : Nat) (x : Core) : (s.setCore k x).cores = s.cores.set (k % 16) x (Nat.mod_lt _ (by decide)) := rfl

/-! ## setCell -/

@[simp] theorem State.setCell_now (s : State) (k : Nat) (c : Cell) : (s.setCell k c).now = s.now := rfl
@[simp] theorem State.setCell_diemix (s : State) (k : Nat) (c : Cell) : (s.setCell k c).diemix = s.diemix := rfl
@[simp] theorem State.setCell_diecell (s : State) (k : Nat) (c : Cell) : (s.setCell k c).diecell = s.diecell := rfl
@[simp] theorem State.setCell_mixgen (s : State) (k : Nat) (c : Cell) : (s.setCell k c).mixgen = s.mixgen := rfl
@[simp] theorem State.setCell_view (s : State) (k : Nat) (c : Cell) : (s.setCell k c).view = s.view := rfl
@[simp] theorem State.setCell_rdymap0 (s : State) (k : Nat) (c : Cell) : (s.setCell k c).rdymap0 = s.rdymap0 := rfl
@[simp] theorem State.setCell_rdymap1 (s : State) (k : Nat) (c : Cell) : (s.setCell k c).rdymap1 = s.rdymap1 := rfl
@[simp] theorem State.setCell_pkgstat (s : State) (k : Nat) (c : Cell) : (s.setCell k c).pkgstat = s.pkgstat := rfl
@[simp] theorem State.setCell_hsem (s : State) (k : Nat) (c : Cell) : (s.setCell k c).hsem = s.hsem := rfl
@[simp] theorem State.setCell_lstatBusy (s : State) (k : Nat) (c : Cell) : (s.setCell k c).lstatBusy = s.lstatBusy := rfl
@[simp] theorem State.setCell_lstatCode (s : State) (k : Nat) (c : Cell) : (s.setCell k c).lstatCode = s.lstatCode := rfl
@[simp] theorem State.setCell_lcmd (s : State) (k : Nat) (c : Cell) : (s.setCell k c).lcmd = s.lcmd := rfl
@[simp] theorem State.setCell_mr (s : State) (k : Nat) (c : Cell) : (s.setCell k c).mr = s.mr := rfl
@[simp] theorem State.setCell_spdm (s : State) (k : Nat) (c : Cell) : (s.setCell k c).spdm = s.spdm := rfl
@[simp] theorem State.setCell_ide (s : State) (k : Nat) (c : Cell) : (s.setCell k c).ide = s.ide := rfl
@[simp] theorem State.setCell_session (s : State) (k : Nat) (c : Cell) : (s.setCell k c).session = s.session := rfl
@[simp] theorem State.setCell_staged (s : State) (k : Nat) (c : Cell) : (s.setCell k c).staged = s.staged := rfl
@[simp] theorem State.setCell_cethr (s : State) (k : Nat) (c : Cell) : (s.setCell k c).cethr = s.cethr := rfl
@[simp] theorem State.setCell_tblver (s : State) (k : Nat) (c : Cell) : (s.setCell k c).tblver = s.tblver := rfl
@[simp] theorem State.setCell_lnkst (s : State) (k : Nat) (c : Cell) : (s.setCell k c).lnkst = s.lnkst := rfl
@[simp] theorem State.setCell_wqcfg (s : State) (k : Nat) (c : Cell) : (s.setCell k c).wqcfg = s.wqcfg := rfl
@[simp] theorem State.setCell_queues (s : State) (k : Nat) (c : Cell) : (s.setCell k c).queues = s.queues := rfl
@[simp] theorem State.setCell_served (s : State) (k : Nat) (c : Cell) : (s.setCell k c).served = s.served := rfl
@[simp] theorem State.setCell_life (s : State) (k : Nat) (c : Cell) : (s.setCell k c).life = s.life := rfl
@[simp] theorem State.setCell_committed (s : State) (k : Nat) (c : Cell) : (s.setCell k c).committed = s.committed := rfl
@[simp] theorem State.setCell_stays (s : State) (k : Nat) (c : Cell) : (s.setCell k c).stays = s.stays := rfl
@[simp] theorem State.setCell_arrays (s : State) (k : Nat) (c : Cell) : (s.setCell k c).arrays = s.arrays := rfl
@[simp] theorem State.setCell_portUp (s : State) (k : Nat) (c : Cell) : (s.setCell k c).portUp = s.portUp := rfl
@[simp] theorem State.setCell_packageUp (s : State) (k : Nat) (c : Cell) : (s.setCell k c).packageUp = s.packageUp := rfl
@[simp] theorem State.setCell_interrupts (s : State) (k : Nat) (c : Cell) : (s.setCell k c).interrupts = s.interrupts := rfl
@[simp] theorem State.setCell_records (s : State) (k : Nat) (c : Cell) : (s.setCell k c).records = s.records := rfl
@[simp] theorem State.setCell_hostReplies (s : State) (k : Nat) (c : Cell) : (s.setCell k c).hostReplies = s.hostReplies := rfl
@[simp] theorem State.setCell_mirrorSent (s : State) (k : Nat) (c : Cell) : (s.setCell k c).mirrorSent = s.mirrorSent := rfl
@[simp] theorem State.setCell_mirrorAcks (s : State) (k : Nat) (c : Cell) : (s.setCell k c).mirrorAcks = s.mirrorAcks := rfl
@[simp] theorem State.setCell_mem (s : State) (k : Nat) (c : Cell) : (s.setCell k c).mem = s.mem := rfl
@[simp] theorem State.setCell_poison (s : State) (k : Nat) (c : Cell) : (s.setCell k c).poison = s.poison := rfl
@[simp] theorem State.setCell_upsets (s : State) (k : Nat) (c : Cell) : (s.setCell k c).upsets = s.upsets := rfl
@[simp] theorem State.setCell_lostDies (s : State) (k : Nat) (c : Cell) : (s.setCell k c).lostDies = s.lostDies := rfl
@[simp] theorem State.setCell_dieTlb (s : State) (k : Nat) (c : Cell) : (s.setCell k c).dieTlb = s.dieTlb := rfl
@[simp] theorem State.setCell_roCache (s : State) (k : Nat) (c : Cell) : (s.setCell k c).roCache = s.roCache := rfl
@[simp] theorem State.setCell_marks (s : State) (k : Nat) (c : Cell) : (s.setCell k c).marks = s.marks := rfl
@[simp] theorem State.setCell_tags (s : State) (k : Nat) (c : Cell) : (s.setCell k c).tags = s.tags := rfl
@[simp] theorem State.setCell_waggles (s : State) (k : Nat) (c : Cell) : (s.setCell k c).waggles = s.waggles := rfl
@[simp] theorem State.setCell_partitions (s : State) (k : Nat) (c : Cell) : (s.setCell k c).partitions = s.partitions := rfl
@[simp] theorem State.setCell_gangs (s : State) (k : Nat) (c : Cell) : (s.setCell k c).gangs = s.gangs := rfl
@[simp] theorem State.setCell_launches (s : State) (k : Nat) (c : Cell) : (s.setCell k c).launches = s.launches := rfl
@[simp] theorem State.setCell_nextLaunch (s : State) (k : Nat) (c : Cell) : (s.setCell k c).nextLaunch = s.nextLaunch := rfl
@[simp] theorem State.setCell_nextGang (s : State) (k : Nat) (c : Cell) : (s.setCell k c).nextGang = s.nextGang := rfl
@[simp] theorem State.setCell_cores (s : State) (k : Nat) (c : Cell) : (s.setCell k c).cores = s.cores := rfl
@[simp] theorem State.setCell_parked (s : State) (k : Nat) (c : Cell) : (s.setCell k c).parked = s.parked := rfl
@[simp] theorem State.setCell_contexts (s : State) (k : Nat) (c : Cell) : (s.setCell k c).contexts = s.contexts := rfl
@[simp] theorem State.setCell_nextPtupd (s : State) (k : Nat) (c : Cell) : (s.setCell k c).nextPtupd = s.nextPtupd := rfl
@[simp] theorem State.setCell_fresh (s : State) (k : Nat) (c : Cell) : (s.setCell k c).fresh = s.fresh := rfl
@[simp] theorem State.setCell_focus (s : State) (k : Nat) (c : Cell) : (s.setCell k c).focus = s.focus := rfl
@[simp] theorem State.setCell_cursor (s : State) (k : Nat) (c : Cell) : (s.setCell k c).cursor = s.cursor := rfl
@[simp] theorem State.setCell_agenda (s : State) (k : Nat) (c : Cell) : (s.setCell k c).agenda = s.agenda := rfl
@[simp] theorem State.setCell_cells (s : State) (k : Nat) (c : Cell) : (s.setCell k c).cells = s.cells.insert k c := rfl

/-! ## modCell -/

@[simp] theorem State.modCell_now (s : State) (k : Nat) (f : Cell → Cell) : (s.modCell k f).now = s.now := rfl
@[simp] theorem State.modCell_diemix (s : State) (k : Nat) (f : Cell → Cell) : (s.modCell k f).diemix = s.diemix := rfl
@[simp] theorem State.modCell_diecell (s : State) (k : Nat) (f : Cell → Cell) : (s.modCell k f).diecell = s.diecell := rfl
@[simp] theorem State.modCell_mixgen (s : State) (k : Nat) (f : Cell → Cell) : (s.modCell k f).mixgen = s.mixgen := rfl
@[simp] theorem State.modCell_view (s : State) (k : Nat) (f : Cell → Cell) : (s.modCell k f).view = s.view := rfl
@[simp] theorem State.modCell_rdymap0 (s : State) (k : Nat) (f : Cell → Cell) : (s.modCell k f).rdymap0 = s.rdymap0 := rfl
@[simp] theorem State.modCell_rdymap1 (s : State) (k : Nat) (f : Cell → Cell) : (s.modCell k f).rdymap1 = s.rdymap1 := rfl
@[simp] theorem State.modCell_pkgstat (s : State) (k : Nat) (f : Cell → Cell) : (s.modCell k f).pkgstat = s.pkgstat := rfl
@[simp] theorem State.modCell_hsem (s : State) (k : Nat) (f : Cell → Cell) : (s.modCell k f).hsem = s.hsem := rfl
@[simp] theorem State.modCell_lstatBusy (s : State) (k : Nat) (f : Cell → Cell) : (s.modCell k f).lstatBusy = s.lstatBusy := rfl
@[simp] theorem State.modCell_lstatCode (s : State) (k : Nat) (f : Cell → Cell) : (s.modCell k f).lstatCode = s.lstatCode := rfl
@[simp] theorem State.modCell_lcmd (s : State) (k : Nat) (f : Cell → Cell) : (s.modCell k f).lcmd = s.lcmd := rfl
@[simp] theorem State.modCell_mr (s : State) (k : Nat) (f : Cell → Cell) : (s.modCell k f).mr = s.mr := rfl
@[simp] theorem State.modCell_spdm (s : State) (k : Nat) (f : Cell → Cell) : (s.modCell k f).spdm = s.spdm := rfl
@[simp] theorem State.modCell_ide (s : State) (k : Nat) (f : Cell → Cell) : (s.modCell k f).ide = s.ide := rfl
@[simp] theorem State.modCell_session (s : State) (k : Nat) (f : Cell → Cell) : (s.modCell k f).session = s.session := rfl
@[simp] theorem State.modCell_staged (s : State) (k : Nat) (f : Cell → Cell) : (s.modCell k f).staged = s.staged := rfl
@[simp] theorem State.modCell_cethr (s : State) (k : Nat) (f : Cell → Cell) : (s.modCell k f).cethr = s.cethr := rfl
@[simp] theorem State.modCell_tblver (s : State) (k : Nat) (f : Cell → Cell) : (s.modCell k f).tblver = s.tblver := rfl
@[simp] theorem State.modCell_lnkst (s : State) (k : Nat) (f : Cell → Cell) : (s.modCell k f).lnkst = s.lnkst := rfl
@[simp] theorem State.modCell_wqcfg (s : State) (k : Nat) (f : Cell → Cell) : (s.modCell k f).wqcfg = s.wqcfg := rfl
@[simp] theorem State.modCell_queues (s : State) (k : Nat) (f : Cell → Cell) : (s.modCell k f).queues = s.queues := rfl
@[simp] theorem State.modCell_served (s : State) (k : Nat) (f : Cell → Cell) : (s.modCell k f).served = s.served := rfl
@[simp] theorem State.modCell_life (s : State) (k : Nat) (f : Cell → Cell) : (s.modCell k f).life = s.life := rfl
@[simp] theorem State.modCell_committed (s : State) (k : Nat) (f : Cell → Cell) : (s.modCell k f).committed = s.committed := rfl
@[simp] theorem State.modCell_stays (s : State) (k : Nat) (f : Cell → Cell) : (s.modCell k f).stays = s.stays := rfl
@[simp] theorem State.modCell_arrays (s : State) (k : Nat) (f : Cell → Cell) : (s.modCell k f).arrays = s.arrays := rfl
@[simp] theorem State.modCell_portUp (s : State) (k : Nat) (f : Cell → Cell) : (s.modCell k f).portUp = s.portUp := rfl
@[simp] theorem State.modCell_packageUp (s : State) (k : Nat) (f : Cell → Cell) : (s.modCell k f).packageUp = s.packageUp := rfl
@[simp] theorem State.modCell_interrupts (s : State) (k : Nat) (f : Cell → Cell) : (s.modCell k f).interrupts = s.interrupts := rfl
@[simp] theorem State.modCell_records (s : State) (k : Nat) (f : Cell → Cell) : (s.modCell k f).records = s.records := rfl
@[simp] theorem State.modCell_hostReplies (s : State) (k : Nat) (f : Cell → Cell) : (s.modCell k f).hostReplies = s.hostReplies := rfl
@[simp] theorem State.modCell_mirrorSent (s : State) (k : Nat) (f : Cell → Cell) : (s.modCell k f).mirrorSent = s.mirrorSent := rfl
@[simp] theorem State.modCell_mirrorAcks (s : State) (k : Nat) (f : Cell → Cell) : (s.modCell k f).mirrorAcks = s.mirrorAcks := rfl
@[simp] theorem State.modCell_mem (s : State) (k : Nat) (f : Cell → Cell) : (s.modCell k f).mem = s.mem := rfl
@[simp] theorem State.modCell_poison (s : State) (k : Nat) (f : Cell → Cell) : (s.modCell k f).poison = s.poison := rfl
@[simp] theorem State.modCell_upsets (s : State) (k : Nat) (f : Cell → Cell) : (s.modCell k f).upsets = s.upsets := rfl
@[simp] theorem State.modCell_lostDies (s : State) (k : Nat) (f : Cell → Cell) : (s.modCell k f).lostDies = s.lostDies := rfl
@[simp] theorem State.modCell_dieTlb (s : State) (k : Nat) (f : Cell → Cell) : (s.modCell k f).dieTlb = s.dieTlb := rfl
@[simp] theorem State.modCell_roCache (s : State) (k : Nat) (f : Cell → Cell) : (s.modCell k f).roCache = s.roCache := rfl
@[simp] theorem State.modCell_marks (s : State) (k : Nat) (f : Cell → Cell) : (s.modCell k f).marks = s.marks := rfl
@[simp] theorem State.modCell_tags (s : State) (k : Nat) (f : Cell → Cell) : (s.modCell k f).tags = s.tags := rfl
@[simp] theorem State.modCell_waggles (s : State) (k : Nat) (f : Cell → Cell) : (s.modCell k f).waggles = s.waggles := rfl
@[simp] theorem State.modCell_partitions (s : State) (k : Nat) (f : Cell → Cell) : (s.modCell k f).partitions = s.partitions := rfl
@[simp] theorem State.modCell_gangs (s : State) (k : Nat) (f : Cell → Cell) : (s.modCell k f).gangs = s.gangs := rfl
@[simp] theorem State.modCell_launches (s : State) (k : Nat) (f : Cell → Cell) : (s.modCell k f).launches = s.launches := rfl
@[simp] theorem State.modCell_nextLaunch (s : State) (k : Nat) (f : Cell → Cell) : (s.modCell k f).nextLaunch = s.nextLaunch := rfl
@[simp] theorem State.modCell_nextGang (s : State) (k : Nat) (f : Cell → Cell) : (s.modCell k f).nextGang = s.nextGang := rfl
@[simp] theorem State.modCell_cores (s : State) (k : Nat) (f : Cell → Cell) : (s.modCell k f).cores = s.cores := rfl
@[simp] theorem State.modCell_parked (s : State) (k : Nat) (f : Cell → Cell) : (s.modCell k f).parked = s.parked := rfl
@[simp] theorem State.modCell_contexts (s : State) (k : Nat) (f : Cell → Cell) : (s.modCell k f).contexts = s.contexts := rfl
@[simp] theorem State.modCell_nextPtupd (s : State) (k : Nat) (f : Cell → Cell) : (s.modCell k f).nextPtupd = s.nextPtupd := rfl
@[simp] theorem State.modCell_fresh (s : State) (k : Nat) (f : Cell → Cell) : (s.modCell k f).fresh = s.fresh := rfl
@[simp] theorem State.modCell_focus (s : State) (k : Nat) (f : Cell → Cell) : (s.modCell k f).focus = s.focus := rfl
@[simp] theorem State.modCell_cursor (s : State) (k : Nat) (f : Cell → Cell) : (s.modCell k f).cursor = s.cursor := rfl
@[simp] theorem State.modCell_agenda (s : State) (k : Nat) (f : Cell → Cell) : (s.modCell k f).agenda = s.agenda := rfl
@[simp] theorem State.modCell_cells (s : State) (k : Nat) (f : Cell → Cell) : (s.modCell k f).cells = s.cells.modify k f := rfl

/-! ## setGang -/

@[simp] theorem State.setGang_now (s : State) (g : Nat) (x : Gang) : (s.setGang g x).now = s.now := rfl
@[simp] theorem State.setGang_diemix (s : State) (g : Nat) (x : Gang) : (s.setGang g x).diemix = s.diemix := rfl
@[simp] theorem State.setGang_diecell (s : State) (g : Nat) (x : Gang) : (s.setGang g x).diecell = s.diecell := rfl
@[simp] theorem State.setGang_mixgen (s : State) (g : Nat) (x : Gang) : (s.setGang g x).mixgen = s.mixgen := rfl
@[simp] theorem State.setGang_view (s : State) (g : Nat) (x : Gang) : (s.setGang g x).view = s.view := rfl
@[simp] theorem State.setGang_rdymap0 (s : State) (g : Nat) (x : Gang) : (s.setGang g x).rdymap0 = s.rdymap0 := rfl
@[simp] theorem State.setGang_rdymap1 (s : State) (g : Nat) (x : Gang) : (s.setGang g x).rdymap1 = s.rdymap1 := rfl
@[simp] theorem State.setGang_pkgstat (s : State) (g : Nat) (x : Gang) : (s.setGang g x).pkgstat = s.pkgstat := rfl
@[simp] theorem State.setGang_hsem (s : State) (g : Nat) (x : Gang) : (s.setGang g x).hsem = s.hsem := rfl
@[simp] theorem State.setGang_lstatBusy (s : State) (g : Nat) (x : Gang) : (s.setGang g x).lstatBusy = s.lstatBusy := rfl
@[simp] theorem State.setGang_lstatCode (s : State) (g : Nat) (x : Gang) : (s.setGang g x).lstatCode = s.lstatCode := rfl
@[simp] theorem State.setGang_lcmd (s : State) (g : Nat) (x : Gang) : (s.setGang g x).lcmd = s.lcmd := rfl
@[simp] theorem State.setGang_mr (s : State) (g : Nat) (x : Gang) : (s.setGang g x).mr = s.mr := rfl
@[simp] theorem State.setGang_spdm (s : State) (g : Nat) (x : Gang) : (s.setGang g x).spdm = s.spdm := rfl
@[simp] theorem State.setGang_ide (s : State) (g : Nat) (x : Gang) : (s.setGang g x).ide = s.ide := rfl
@[simp] theorem State.setGang_session (s : State) (g : Nat) (x : Gang) : (s.setGang g x).session = s.session := rfl
@[simp] theorem State.setGang_staged (s : State) (g : Nat) (x : Gang) : (s.setGang g x).staged = s.staged := rfl
@[simp] theorem State.setGang_cethr (s : State) (g : Nat) (x : Gang) : (s.setGang g x).cethr = s.cethr := rfl
@[simp] theorem State.setGang_tblver (s : State) (g : Nat) (x : Gang) : (s.setGang g x).tblver = s.tblver := rfl
@[simp] theorem State.setGang_lnkst (s : State) (g : Nat) (x : Gang) : (s.setGang g x).lnkst = s.lnkst := rfl
@[simp] theorem State.setGang_wqcfg (s : State) (g : Nat) (x : Gang) : (s.setGang g x).wqcfg = s.wqcfg := rfl
@[simp] theorem State.setGang_queues (s : State) (g : Nat) (x : Gang) : (s.setGang g x).queues = s.queues := rfl
@[simp] theorem State.setGang_served (s : State) (g : Nat) (x : Gang) : (s.setGang g x).served = s.served := rfl
@[simp] theorem State.setGang_life (s : State) (g : Nat) (x : Gang) : (s.setGang g x).life = s.life := rfl
@[simp] theorem State.setGang_committed (s : State) (g : Nat) (x : Gang) : (s.setGang g x).committed = s.committed := rfl
@[simp] theorem State.setGang_stays (s : State) (g : Nat) (x : Gang) : (s.setGang g x).stays = s.stays := rfl
@[simp] theorem State.setGang_arrays (s : State) (g : Nat) (x : Gang) : (s.setGang g x).arrays = s.arrays := rfl
@[simp] theorem State.setGang_portUp (s : State) (g : Nat) (x : Gang) : (s.setGang g x).portUp = s.portUp := rfl
@[simp] theorem State.setGang_packageUp (s : State) (g : Nat) (x : Gang) : (s.setGang g x).packageUp = s.packageUp := rfl
@[simp] theorem State.setGang_interrupts (s : State) (g : Nat) (x : Gang) : (s.setGang g x).interrupts = s.interrupts := rfl
@[simp] theorem State.setGang_records (s : State) (g : Nat) (x : Gang) : (s.setGang g x).records = s.records := rfl
@[simp] theorem State.setGang_hostReplies (s : State) (g : Nat) (x : Gang) : (s.setGang g x).hostReplies = s.hostReplies := rfl
@[simp] theorem State.setGang_mirrorSent (s : State) (g : Nat) (x : Gang) : (s.setGang g x).mirrorSent = s.mirrorSent := rfl
@[simp] theorem State.setGang_mirrorAcks (s : State) (g : Nat) (x : Gang) : (s.setGang g x).mirrorAcks = s.mirrorAcks := rfl
@[simp] theorem State.setGang_mem (s : State) (g : Nat) (x : Gang) : (s.setGang g x).mem = s.mem := rfl
@[simp] theorem State.setGang_poison (s : State) (g : Nat) (x : Gang) : (s.setGang g x).poison = s.poison := rfl
@[simp] theorem State.setGang_upsets (s : State) (g : Nat) (x : Gang) : (s.setGang g x).upsets = s.upsets := rfl
@[simp] theorem State.setGang_lostDies (s : State) (g : Nat) (x : Gang) : (s.setGang g x).lostDies = s.lostDies := rfl
@[simp] theorem State.setGang_dieTlb (s : State) (g : Nat) (x : Gang) : (s.setGang g x).dieTlb = s.dieTlb := rfl
@[simp] theorem State.setGang_roCache (s : State) (g : Nat) (x : Gang) : (s.setGang g x).roCache = s.roCache := rfl
@[simp] theorem State.setGang_marks (s : State) (g : Nat) (x : Gang) : (s.setGang g x).marks = s.marks := rfl
@[simp] theorem State.setGang_tags (s : State) (g : Nat) (x : Gang) : (s.setGang g x).tags = s.tags := rfl
@[simp] theorem State.setGang_waggles (s : State) (g : Nat) (x : Gang) : (s.setGang g x).waggles = s.waggles := rfl
@[simp] theorem State.setGang_partitions (s : State) (g : Nat) (x : Gang) : (s.setGang g x).partitions = s.partitions := rfl
@[simp] theorem State.setGang_cells (s : State) (g : Nat) (x : Gang) : (s.setGang g x).cells = s.cells := rfl
@[simp] theorem State.setGang_launches (s : State) (g : Nat) (x : Gang) : (s.setGang g x).launches = s.launches := rfl
@[simp] theorem State.setGang_nextLaunch (s : State) (g : Nat) (x : Gang) : (s.setGang g x).nextLaunch = s.nextLaunch := rfl
@[simp] theorem State.setGang_nextGang (s : State) (g : Nat) (x : Gang) : (s.setGang g x).nextGang = s.nextGang := rfl
@[simp] theorem State.setGang_cores (s : State) (g : Nat) (x : Gang) : (s.setGang g x).cores = s.cores := rfl
@[simp] theorem State.setGang_parked (s : State) (g : Nat) (x : Gang) : (s.setGang g x).parked = s.parked := rfl
@[simp] theorem State.setGang_contexts (s : State) (g : Nat) (x : Gang) : (s.setGang g x).contexts = s.contexts := rfl
@[simp] theorem State.setGang_nextPtupd (s : State) (g : Nat) (x : Gang) : (s.setGang g x).nextPtupd = s.nextPtupd := rfl
@[simp] theorem State.setGang_fresh (s : State) (g : Nat) (x : Gang) : (s.setGang g x).fresh = s.fresh := rfl
@[simp] theorem State.setGang_focus (s : State) (g : Nat) (x : Gang) : (s.setGang g x).focus = s.focus := rfl
@[simp] theorem State.setGang_cursor (s : State) (g : Nat) (x : Gang) : (s.setGang g x).cursor = s.cursor := rfl
@[simp] theorem State.setGang_agenda (s : State) (g : Nat) (x : Gang) : (s.setGang g x).agenda = s.agenda := rfl
@[simp] theorem State.setGang_gangs (s : State) (g : Nat) (x : Gang) : (s.setGang g x).gangs = s.gangs.insert g x := rfl

/-! ## modGang -/

@[simp] theorem State.modGang_now (s : State) (g : Nat) (f : Gang → Gang) : (s.modGang g f).now = s.now := rfl
@[simp] theorem State.modGang_diemix (s : State) (g : Nat) (f : Gang → Gang) : (s.modGang g f).diemix = s.diemix := rfl
@[simp] theorem State.modGang_diecell (s : State) (g : Nat) (f : Gang → Gang) : (s.modGang g f).diecell = s.diecell := rfl
@[simp] theorem State.modGang_mixgen (s : State) (g : Nat) (f : Gang → Gang) : (s.modGang g f).mixgen = s.mixgen := rfl
@[simp] theorem State.modGang_view (s : State) (g : Nat) (f : Gang → Gang) : (s.modGang g f).view = s.view := rfl
@[simp] theorem State.modGang_rdymap0 (s : State) (g : Nat) (f : Gang → Gang) : (s.modGang g f).rdymap0 = s.rdymap0 := rfl
@[simp] theorem State.modGang_rdymap1 (s : State) (g : Nat) (f : Gang → Gang) : (s.modGang g f).rdymap1 = s.rdymap1 := rfl
@[simp] theorem State.modGang_pkgstat (s : State) (g : Nat) (f : Gang → Gang) : (s.modGang g f).pkgstat = s.pkgstat := rfl
@[simp] theorem State.modGang_hsem (s : State) (g : Nat) (f : Gang → Gang) : (s.modGang g f).hsem = s.hsem := rfl
@[simp] theorem State.modGang_lstatBusy (s : State) (g : Nat) (f : Gang → Gang) : (s.modGang g f).lstatBusy = s.lstatBusy := rfl
@[simp] theorem State.modGang_lstatCode (s : State) (g : Nat) (f : Gang → Gang) : (s.modGang g f).lstatCode = s.lstatCode := rfl
@[simp] theorem State.modGang_lcmd (s : State) (g : Nat) (f : Gang → Gang) : (s.modGang g f).lcmd = s.lcmd := rfl
@[simp] theorem State.modGang_mr (s : State) (g : Nat) (f : Gang → Gang) : (s.modGang g f).mr = s.mr := rfl
@[simp] theorem State.modGang_spdm (s : State) (g : Nat) (f : Gang → Gang) : (s.modGang g f).spdm = s.spdm := rfl
@[simp] theorem State.modGang_ide (s : State) (g : Nat) (f : Gang → Gang) : (s.modGang g f).ide = s.ide := rfl
@[simp] theorem State.modGang_session (s : State) (g : Nat) (f : Gang → Gang) : (s.modGang g f).session = s.session := rfl
@[simp] theorem State.modGang_staged (s : State) (g : Nat) (f : Gang → Gang) : (s.modGang g f).staged = s.staged := rfl
@[simp] theorem State.modGang_cethr (s : State) (g : Nat) (f : Gang → Gang) : (s.modGang g f).cethr = s.cethr := rfl
@[simp] theorem State.modGang_tblver (s : State) (g : Nat) (f : Gang → Gang) : (s.modGang g f).tblver = s.tblver := rfl
@[simp] theorem State.modGang_lnkst (s : State) (g : Nat) (f : Gang → Gang) : (s.modGang g f).lnkst = s.lnkst := rfl
@[simp] theorem State.modGang_wqcfg (s : State) (g : Nat) (f : Gang → Gang) : (s.modGang g f).wqcfg = s.wqcfg := rfl
@[simp] theorem State.modGang_queues (s : State) (g : Nat) (f : Gang → Gang) : (s.modGang g f).queues = s.queues := rfl
@[simp] theorem State.modGang_served (s : State) (g : Nat) (f : Gang → Gang) : (s.modGang g f).served = s.served := rfl
@[simp] theorem State.modGang_life (s : State) (g : Nat) (f : Gang → Gang) : (s.modGang g f).life = s.life := rfl
@[simp] theorem State.modGang_committed (s : State) (g : Nat) (f : Gang → Gang) : (s.modGang g f).committed = s.committed := rfl
@[simp] theorem State.modGang_stays (s : State) (g : Nat) (f : Gang → Gang) : (s.modGang g f).stays = s.stays := rfl
@[simp] theorem State.modGang_arrays (s : State) (g : Nat) (f : Gang → Gang) : (s.modGang g f).arrays = s.arrays := rfl
@[simp] theorem State.modGang_portUp (s : State) (g : Nat) (f : Gang → Gang) : (s.modGang g f).portUp = s.portUp := rfl
@[simp] theorem State.modGang_packageUp (s : State) (g : Nat) (f : Gang → Gang) : (s.modGang g f).packageUp = s.packageUp := rfl
@[simp] theorem State.modGang_interrupts (s : State) (g : Nat) (f : Gang → Gang) : (s.modGang g f).interrupts = s.interrupts := rfl
@[simp] theorem State.modGang_records (s : State) (g : Nat) (f : Gang → Gang) : (s.modGang g f).records = s.records := rfl
@[simp] theorem State.modGang_hostReplies (s : State) (g : Nat) (f : Gang → Gang) : (s.modGang g f).hostReplies = s.hostReplies := rfl
@[simp] theorem State.modGang_mirrorSent (s : State) (g : Nat) (f : Gang → Gang) : (s.modGang g f).mirrorSent = s.mirrorSent := rfl
@[simp] theorem State.modGang_mirrorAcks (s : State) (g : Nat) (f : Gang → Gang) : (s.modGang g f).mirrorAcks = s.mirrorAcks := rfl
@[simp] theorem State.modGang_mem (s : State) (g : Nat) (f : Gang → Gang) : (s.modGang g f).mem = s.mem := rfl
@[simp] theorem State.modGang_poison (s : State) (g : Nat) (f : Gang → Gang) : (s.modGang g f).poison = s.poison := rfl
@[simp] theorem State.modGang_upsets (s : State) (g : Nat) (f : Gang → Gang) : (s.modGang g f).upsets = s.upsets := rfl
@[simp] theorem State.modGang_lostDies (s : State) (g : Nat) (f : Gang → Gang) : (s.modGang g f).lostDies = s.lostDies := rfl
@[simp] theorem State.modGang_dieTlb (s : State) (g : Nat) (f : Gang → Gang) : (s.modGang g f).dieTlb = s.dieTlb := rfl
@[simp] theorem State.modGang_roCache (s : State) (g : Nat) (f : Gang → Gang) : (s.modGang g f).roCache = s.roCache := rfl
@[simp] theorem State.modGang_marks (s : State) (g : Nat) (f : Gang → Gang) : (s.modGang g f).marks = s.marks := rfl
@[simp] theorem State.modGang_tags (s : State) (g : Nat) (f : Gang → Gang) : (s.modGang g f).tags = s.tags := rfl
@[simp] theorem State.modGang_waggles (s : State) (g : Nat) (f : Gang → Gang) : (s.modGang g f).waggles = s.waggles := rfl
@[simp] theorem State.modGang_partitions (s : State) (g : Nat) (f : Gang → Gang) : (s.modGang g f).partitions = s.partitions := rfl
@[simp] theorem State.modGang_cells (s : State) (g : Nat) (f : Gang → Gang) : (s.modGang g f).cells = s.cells := rfl
@[simp] theorem State.modGang_launches (s : State) (g : Nat) (f : Gang → Gang) : (s.modGang g f).launches = s.launches := rfl
@[simp] theorem State.modGang_nextLaunch (s : State) (g : Nat) (f : Gang → Gang) : (s.modGang g f).nextLaunch = s.nextLaunch := rfl
@[simp] theorem State.modGang_nextGang (s : State) (g : Nat) (f : Gang → Gang) : (s.modGang g f).nextGang = s.nextGang := rfl
@[simp] theorem State.modGang_cores (s : State) (g : Nat) (f : Gang → Gang) : (s.modGang g f).cores = s.cores := rfl
@[simp] theorem State.modGang_parked (s : State) (g : Nat) (f : Gang → Gang) : (s.modGang g f).parked = s.parked := rfl
@[simp] theorem State.modGang_contexts (s : State) (g : Nat) (f : Gang → Gang) : (s.modGang g f).contexts = s.contexts := rfl
@[simp] theorem State.modGang_nextPtupd (s : State) (g : Nat) (f : Gang → Gang) : (s.modGang g f).nextPtupd = s.nextPtupd := rfl
@[simp] theorem State.modGang_fresh (s : State) (g : Nat) (f : Gang → Gang) : (s.modGang g f).fresh = s.fresh := rfl
@[simp] theorem State.modGang_focus (s : State) (g : Nat) (f : Gang → Gang) : (s.modGang g f).focus = s.focus := rfl
@[simp] theorem State.modGang_cursor (s : State) (g : Nat) (f : Gang → Gang) : (s.modGang g f).cursor = s.cursor := rfl
@[simp] theorem State.modGang_agenda (s : State) (g : Nat) (f : Gang → Gang) : (s.modGang g f).agenda = s.agenda := rfl
@[simp] theorem State.modGang_gangs (s : State) (g : Nat) (f : Gang → Gang) : (s.modGang g f).gangs = s.gangs.modify g f := rfl

/-! ## modLaunch -/

@[simp] theorem State.modLaunch_now (s : State) (l : Nat) (f : Launch → Launch) : (s.modLaunch l f).now = s.now := rfl
@[simp] theorem State.modLaunch_diemix (s : State) (l : Nat) (f : Launch → Launch) : (s.modLaunch l f).diemix = s.diemix := rfl
@[simp] theorem State.modLaunch_diecell (s : State) (l : Nat) (f : Launch → Launch) : (s.modLaunch l f).diecell = s.diecell := rfl
@[simp] theorem State.modLaunch_mixgen (s : State) (l : Nat) (f : Launch → Launch) : (s.modLaunch l f).mixgen = s.mixgen := rfl
@[simp] theorem State.modLaunch_view (s : State) (l : Nat) (f : Launch → Launch) : (s.modLaunch l f).view = s.view := rfl
@[simp] theorem State.modLaunch_rdymap0 (s : State) (l : Nat) (f : Launch → Launch) : (s.modLaunch l f).rdymap0 = s.rdymap0 := rfl
@[simp] theorem State.modLaunch_rdymap1 (s : State) (l : Nat) (f : Launch → Launch) : (s.modLaunch l f).rdymap1 = s.rdymap1 := rfl
@[simp] theorem State.modLaunch_pkgstat (s : State) (l : Nat) (f : Launch → Launch) : (s.modLaunch l f).pkgstat = s.pkgstat := rfl
@[simp] theorem State.modLaunch_hsem (s : State) (l : Nat) (f : Launch → Launch) : (s.modLaunch l f).hsem = s.hsem := rfl
@[simp] theorem State.modLaunch_lstatBusy (s : State) (l : Nat) (f : Launch → Launch) : (s.modLaunch l f).lstatBusy = s.lstatBusy := rfl
@[simp] theorem State.modLaunch_lstatCode (s : State) (l : Nat) (f : Launch → Launch) : (s.modLaunch l f).lstatCode = s.lstatCode := rfl
@[simp] theorem State.modLaunch_lcmd (s : State) (l : Nat) (f : Launch → Launch) : (s.modLaunch l f).lcmd = s.lcmd := rfl
@[simp] theorem State.modLaunch_mr (s : State) (l : Nat) (f : Launch → Launch) : (s.modLaunch l f).mr = s.mr := rfl
@[simp] theorem State.modLaunch_spdm (s : State) (l : Nat) (f : Launch → Launch) : (s.modLaunch l f).spdm = s.spdm := rfl
@[simp] theorem State.modLaunch_ide (s : State) (l : Nat) (f : Launch → Launch) : (s.modLaunch l f).ide = s.ide := rfl
@[simp] theorem State.modLaunch_session (s : State) (l : Nat) (f : Launch → Launch) : (s.modLaunch l f).session = s.session := rfl
@[simp] theorem State.modLaunch_staged (s : State) (l : Nat) (f : Launch → Launch) : (s.modLaunch l f).staged = s.staged := rfl
@[simp] theorem State.modLaunch_cethr (s : State) (l : Nat) (f : Launch → Launch) : (s.modLaunch l f).cethr = s.cethr := rfl
@[simp] theorem State.modLaunch_tblver (s : State) (l : Nat) (f : Launch → Launch) : (s.modLaunch l f).tblver = s.tblver := rfl
@[simp] theorem State.modLaunch_lnkst (s : State) (l : Nat) (f : Launch → Launch) : (s.modLaunch l f).lnkst = s.lnkst := rfl
@[simp] theorem State.modLaunch_wqcfg (s : State) (l : Nat) (f : Launch → Launch) : (s.modLaunch l f).wqcfg = s.wqcfg := rfl
@[simp] theorem State.modLaunch_queues (s : State) (l : Nat) (f : Launch → Launch) : (s.modLaunch l f).queues = s.queues := rfl
@[simp] theorem State.modLaunch_served (s : State) (l : Nat) (f : Launch → Launch) : (s.modLaunch l f).served = s.served := rfl
@[simp] theorem State.modLaunch_life (s : State) (l : Nat) (f : Launch → Launch) : (s.modLaunch l f).life = s.life := rfl
@[simp] theorem State.modLaunch_committed (s : State) (l : Nat) (f : Launch → Launch) : (s.modLaunch l f).committed = s.committed := rfl
@[simp] theorem State.modLaunch_stays (s : State) (l : Nat) (f : Launch → Launch) : (s.modLaunch l f).stays = s.stays := rfl
@[simp] theorem State.modLaunch_arrays (s : State) (l : Nat) (f : Launch → Launch) : (s.modLaunch l f).arrays = s.arrays := rfl
@[simp] theorem State.modLaunch_portUp (s : State) (l : Nat) (f : Launch → Launch) : (s.modLaunch l f).portUp = s.portUp := rfl
@[simp] theorem State.modLaunch_packageUp (s : State) (l : Nat) (f : Launch → Launch) : (s.modLaunch l f).packageUp = s.packageUp := rfl
@[simp] theorem State.modLaunch_interrupts (s : State) (l : Nat) (f : Launch → Launch) : (s.modLaunch l f).interrupts = s.interrupts := rfl
@[simp] theorem State.modLaunch_records (s : State) (l : Nat) (f : Launch → Launch) : (s.modLaunch l f).records = s.records := rfl
@[simp] theorem State.modLaunch_hostReplies (s : State) (l : Nat) (f : Launch → Launch) : (s.modLaunch l f).hostReplies = s.hostReplies := rfl
@[simp] theorem State.modLaunch_mirrorSent (s : State) (l : Nat) (f : Launch → Launch) : (s.modLaunch l f).mirrorSent = s.mirrorSent := rfl
@[simp] theorem State.modLaunch_mirrorAcks (s : State) (l : Nat) (f : Launch → Launch) : (s.modLaunch l f).mirrorAcks = s.mirrorAcks := rfl
@[simp] theorem State.modLaunch_mem (s : State) (l : Nat) (f : Launch → Launch) : (s.modLaunch l f).mem = s.mem := rfl
@[simp] theorem State.modLaunch_poison (s : State) (l : Nat) (f : Launch → Launch) : (s.modLaunch l f).poison = s.poison := rfl
@[simp] theorem State.modLaunch_upsets (s : State) (l : Nat) (f : Launch → Launch) : (s.modLaunch l f).upsets = s.upsets := rfl
@[simp] theorem State.modLaunch_lostDies (s : State) (l : Nat) (f : Launch → Launch) : (s.modLaunch l f).lostDies = s.lostDies := rfl
@[simp] theorem State.modLaunch_dieTlb (s : State) (l : Nat) (f : Launch → Launch) : (s.modLaunch l f).dieTlb = s.dieTlb := rfl
@[simp] theorem State.modLaunch_roCache (s : State) (l : Nat) (f : Launch → Launch) : (s.modLaunch l f).roCache = s.roCache := rfl
@[simp] theorem State.modLaunch_marks (s : State) (l : Nat) (f : Launch → Launch) : (s.modLaunch l f).marks = s.marks := rfl
@[simp] theorem State.modLaunch_tags (s : State) (l : Nat) (f : Launch → Launch) : (s.modLaunch l f).tags = s.tags := rfl
@[simp] theorem State.modLaunch_waggles (s : State) (l : Nat) (f : Launch → Launch) : (s.modLaunch l f).waggles = s.waggles := rfl
@[simp] theorem State.modLaunch_partitions (s : State) (l : Nat) (f : Launch → Launch) : (s.modLaunch l f).partitions = s.partitions := rfl
@[simp] theorem State.modLaunch_gangs (s : State) (l : Nat) (f : Launch → Launch) : (s.modLaunch l f).gangs = s.gangs := rfl
@[simp] theorem State.modLaunch_cells (s : State) (l : Nat) (f : Launch → Launch) : (s.modLaunch l f).cells = s.cells := rfl
@[simp] theorem State.modLaunch_nextLaunch (s : State) (l : Nat) (f : Launch → Launch) : (s.modLaunch l f).nextLaunch = s.nextLaunch := rfl
@[simp] theorem State.modLaunch_nextGang (s : State) (l : Nat) (f : Launch → Launch) : (s.modLaunch l f).nextGang = s.nextGang := rfl
@[simp] theorem State.modLaunch_cores (s : State) (l : Nat) (f : Launch → Launch) : (s.modLaunch l f).cores = s.cores := rfl
@[simp] theorem State.modLaunch_parked (s : State) (l : Nat) (f : Launch → Launch) : (s.modLaunch l f).parked = s.parked := rfl
@[simp] theorem State.modLaunch_contexts (s : State) (l : Nat) (f : Launch → Launch) : (s.modLaunch l f).contexts = s.contexts := rfl
@[simp] theorem State.modLaunch_nextPtupd (s : State) (l : Nat) (f : Launch → Launch) : (s.modLaunch l f).nextPtupd = s.nextPtupd := rfl
@[simp] theorem State.modLaunch_fresh (s : State) (l : Nat) (f : Launch → Launch) : (s.modLaunch l f).fresh = s.fresh := rfl
@[simp] theorem State.modLaunch_focus (s : State) (l : Nat) (f : Launch → Launch) : (s.modLaunch l f).focus = s.focus := rfl
@[simp] theorem State.modLaunch_cursor (s : State) (l : Nat) (f : Launch → Launch) : (s.modLaunch l f).cursor = s.cursor := rfl
@[simp] theorem State.modLaunch_agenda (s : State) (l : Nat) (f : Launch → Launch) : (s.modLaunch l f).agenda = s.agenda := rfl
@[simp] theorem State.modLaunch_launches (s : State) (l : Nat) (f : Launch → Launch) : (s.modLaunch l f).launches = s.launches.modify l f := rfl

/-! ## clearPoison -/

@[simp] theorem State.clearPoison_now (s : State) (loc len : Nat) : (s.clearPoison loc len).now = s.now := rfl
@[simp] theorem State.clearPoison_diemix (s : State) (loc len : Nat) : (s.clearPoison loc len).diemix = s.diemix := rfl
@[simp] theorem State.clearPoison_diecell (s : State) (loc len : Nat) : (s.clearPoison loc len).diecell = s.diecell := rfl
@[simp] theorem State.clearPoison_mixgen (s : State) (loc len : Nat) : (s.clearPoison loc len).mixgen = s.mixgen := rfl
@[simp] theorem State.clearPoison_view (s : State) (loc len : Nat) : (s.clearPoison loc len).view = s.view := rfl
@[simp] theorem State.clearPoison_rdymap0 (s : State) (loc len : Nat) : (s.clearPoison loc len).rdymap0 = s.rdymap0 := rfl
@[simp] theorem State.clearPoison_rdymap1 (s : State) (loc len : Nat) : (s.clearPoison loc len).rdymap1 = s.rdymap1 := rfl
@[simp] theorem State.clearPoison_pkgstat (s : State) (loc len : Nat) : (s.clearPoison loc len).pkgstat = s.pkgstat := rfl
@[simp] theorem State.clearPoison_hsem (s : State) (loc len : Nat) : (s.clearPoison loc len).hsem = s.hsem := rfl
@[simp] theorem State.clearPoison_lstatBusy (s : State) (loc len : Nat) : (s.clearPoison loc len).lstatBusy = s.lstatBusy := rfl
@[simp] theorem State.clearPoison_lstatCode (s : State) (loc len : Nat) : (s.clearPoison loc len).lstatCode = s.lstatCode := rfl
@[simp] theorem State.clearPoison_lcmd (s : State) (loc len : Nat) : (s.clearPoison loc len).lcmd = s.lcmd := rfl
@[simp] theorem State.clearPoison_mr (s : State) (loc len : Nat) : (s.clearPoison loc len).mr = s.mr := rfl
@[simp] theorem State.clearPoison_spdm (s : State) (loc len : Nat) : (s.clearPoison loc len).spdm = s.spdm := rfl
@[simp] theorem State.clearPoison_ide (s : State) (loc len : Nat) : (s.clearPoison loc len).ide = s.ide := rfl
@[simp] theorem State.clearPoison_session (s : State) (loc len : Nat) : (s.clearPoison loc len).session = s.session := rfl
@[simp] theorem State.clearPoison_staged (s : State) (loc len : Nat) : (s.clearPoison loc len).staged = s.staged := rfl
@[simp] theorem State.clearPoison_cethr (s : State) (loc len : Nat) : (s.clearPoison loc len).cethr = s.cethr := rfl
@[simp] theorem State.clearPoison_tblver (s : State) (loc len : Nat) : (s.clearPoison loc len).tblver = s.tblver := rfl
@[simp] theorem State.clearPoison_lnkst (s : State) (loc len : Nat) : (s.clearPoison loc len).lnkst = s.lnkst := rfl
@[simp] theorem State.clearPoison_wqcfg (s : State) (loc len : Nat) : (s.clearPoison loc len).wqcfg = s.wqcfg := rfl
@[simp] theorem State.clearPoison_queues (s : State) (loc len : Nat) : (s.clearPoison loc len).queues = s.queues := rfl
@[simp] theorem State.clearPoison_served (s : State) (loc len : Nat) : (s.clearPoison loc len).served = s.served := rfl
@[simp] theorem State.clearPoison_life (s : State) (loc len : Nat) : (s.clearPoison loc len).life = s.life := rfl
@[simp] theorem State.clearPoison_committed (s : State) (loc len : Nat) : (s.clearPoison loc len).committed = s.committed := rfl
@[simp] theorem State.clearPoison_stays (s : State) (loc len : Nat) : (s.clearPoison loc len).stays = s.stays := rfl
@[simp] theorem State.clearPoison_arrays (s : State) (loc len : Nat) : (s.clearPoison loc len).arrays = s.arrays := rfl
@[simp] theorem State.clearPoison_portUp (s : State) (loc len : Nat) : (s.clearPoison loc len).portUp = s.portUp := rfl
@[simp] theorem State.clearPoison_packageUp (s : State) (loc len : Nat) : (s.clearPoison loc len).packageUp = s.packageUp := rfl
@[simp] theorem State.clearPoison_interrupts (s : State) (loc len : Nat) : (s.clearPoison loc len).interrupts = s.interrupts := rfl
@[simp] theorem State.clearPoison_records (s : State) (loc len : Nat) : (s.clearPoison loc len).records = s.records := rfl
@[simp] theorem State.clearPoison_hostReplies (s : State) (loc len : Nat) : (s.clearPoison loc len).hostReplies = s.hostReplies := rfl
@[simp] theorem State.clearPoison_mirrorSent (s : State) (loc len : Nat) : (s.clearPoison loc len).mirrorSent = s.mirrorSent := rfl
@[simp] theorem State.clearPoison_mirrorAcks (s : State) (loc len : Nat) : (s.clearPoison loc len).mirrorAcks = s.mirrorAcks := rfl
@[simp] theorem State.clearPoison_mem (s : State) (loc len : Nat) : (s.clearPoison loc len).mem = s.mem := rfl
@[simp] theorem State.clearPoison_upsets (s : State) (loc len : Nat) : (s.clearPoison loc len).upsets = s.upsets := rfl
@[simp] theorem State.clearPoison_lostDies (s : State) (loc len : Nat) : (s.clearPoison loc len).lostDies = s.lostDies := rfl
@[simp] theorem State.clearPoison_dieTlb (s : State) (loc len : Nat) : (s.clearPoison loc len).dieTlb = s.dieTlb := rfl
@[simp] theorem State.clearPoison_roCache (s : State) (loc len : Nat) : (s.clearPoison loc len).roCache = s.roCache := rfl
@[simp] theorem State.clearPoison_marks (s : State) (loc len : Nat) : (s.clearPoison loc len).marks = s.marks := rfl
@[simp] theorem State.clearPoison_tags (s : State) (loc len : Nat) : (s.clearPoison loc len).tags = s.tags := rfl
@[simp] theorem State.clearPoison_waggles (s : State) (loc len : Nat) : (s.clearPoison loc len).waggles = s.waggles := rfl
@[simp] theorem State.clearPoison_partitions (s : State) (loc len : Nat) : (s.clearPoison loc len).partitions = s.partitions := rfl
@[simp] theorem State.clearPoison_gangs (s : State) (loc len : Nat) : (s.clearPoison loc len).gangs = s.gangs := rfl
@[simp] theorem State.clearPoison_cells (s : State) (loc len : Nat) : (s.clearPoison loc len).cells = s.cells := rfl
@[simp] theorem State.clearPoison_launches (s : State) (loc len : Nat) : (s.clearPoison loc len).launches = s.launches := rfl
@[simp] theorem State.clearPoison_nextLaunch (s : State) (loc len : Nat) : (s.clearPoison loc len).nextLaunch = s.nextLaunch := rfl
@[simp] theorem State.clearPoison_nextGang (s : State) (loc len : Nat) : (s.clearPoison loc len).nextGang = s.nextGang := rfl
@[simp] theorem State.clearPoison_cores (s : State) (loc len : Nat) : (s.clearPoison loc len).cores = s.cores := rfl
@[simp] theorem State.clearPoison_parked (s : State) (loc len : Nat) : (s.clearPoison loc len).parked = s.parked := rfl
@[simp] theorem State.clearPoison_contexts (s : State) (loc len : Nat) : (s.clearPoison loc len).contexts = s.contexts := rfl
@[simp] theorem State.clearPoison_nextPtupd (s : State) (loc len : Nat) : (s.clearPoison loc len).nextPtupd = s.nextPtupd := rfl
@[simp] theorem State.clearPoison_fresh (s : State) (loc len : Nat) : (s.clearPoison loc len).fresh = s.fresh := rfl
@[simp] theorem State.clearPoison_focus (s : State) (loc len : Nat) : (s.clearPoison loc len).focus = s.focus := rfl
@[simp] theorem State.clearPoison_cursor (s : State) (loc len : Nat) : (s.clearPoison loc len).cursor = s.cursor := rfl
@[simp] theorem State.clearPoison_agenda (s : State) (loc len : Nat) : (s.clearPoison loc len).agenda = s.agenda := rfl

/-! ## putBytes -/

@[simp] theorem State.putBytes_now (s : State) (loc : Nat) (bs : List Byte) : (s.putBytes loc bs).now = s.now := rfl
@[simp] theorem State.putBytes_diemix (s : State) (loc : Nat) (bs : List Byte) : (s.putBytes loc bs).diemix = s.diemix := rfl
@[simp] theorem State.putBytes_diecell (s : State) (loc : Nat) (bs : List Byte) : (s.putBytes loc bs).diecell = s.diecell := rfl
@[simp] theorem State.putBytes_mixgen (s : State) (loc : Nat) (bs : List Byte) : (s.putBytes loc bs).mixgen = s.mixgen := rfl
@[simp] theorem State.putBytes_view (s : State) (loc : Nat) (bs : List Byte) : (s.putBytes loc bs).view = s.view := rfl
@[simp] theorem State.putBytes_rdymap0 (s : State) (loc : Nat) (bs : List Byte) : (s.putBytes loc bs).rdymap0 = s.rdymap0 := rfl
@[simp] theorem State.putBytes_rdymap1 (s : State) (loc : Nat) (bs : List Byte) : (s.putBytes loc bs).rdymap1 = s.rdymap1 := rfl
@[simp] theorem State.putBytes_pkgstat (s : State) (loc : Nat) (bs : List Byte) : (s.putBytes loc bs).pkgstat = s.pkgstat := rfl
@[simp] theorem State.putBytes_hsem (s : State) (loc : Nat) (bs : List Byte) : (s.putBytes loc bs).hsem = s.hsem := rfl
@[simp] theorem State.putBytes_lstatBusy (s : State) (loc : Nat) (bs : List Byte) : (s.putBytes loc bs).lstatBusy = s.lstatBusy := rfl
@[simp] theorem State.putBytes_lstatCode (s : State) (loc : Nat) (bs : List Byte) : (s.putBytes loc bs).lstatCode = s.lstatCode := rfl
@[simp] theorem State.putBytes_lcmd (s : State) (loc : Nat) (bs : List Byte) : (s.putBytes loc bs).lcmd = s.lcmd := rfl
@[simp] theorem State.putBytes_mr (s : State) (loc : Nat) (bs : List Byte) : (s.putBytes loc bs).mr = s.mr := rfl
@[simp] theorem State.putBytes_spdm (s : State) (loc : Nat) (bs : List Byte) : (s.putBytes loc bs).spdm = s.spdm := rfl
@[simp] theorem State.putBytes_ide (s : State) (loc : Nat) (bs : List Byte) : (s.putBytes loc bs).ide = s.ide := rfl
@[simp] theorem State.putBytes_session (s : State) (loc : Nat) (bs : List Byte) : (s.putBytes loc bs).session = s.session := rfl
@[simp] theorem State.putBytes_staged (s : State) (loc : Nat) (bs : List Byte) : (s.putBytes loc bs).staged = s.staged := rfl
@[simp] theorem State.putBytes_cethr (s : State) (loc : Nat) (bs : List Byte) : (s.putBytes loc bs).cethr = s.cethr := rfl
@[simp] theorem State.putBytes_tblver (s : State) (loc : Nat) (bs : List Byte) : (s.putBytes loc bs).tblver = s.tblver := rfl
@[simp] theorem State.putBytes_lnkst (s : State) (loc : Nat) (bs : List Byte) : (s.putBytes loc bs).lnkst = s.lnkst := rfl
@[simp] theorem State.putBytes_wqcfg (s : State) (loc : Nat) (bs : List Byte) : (s.putBytes loc bs).wqcfg = s.wqcfg := rfl
@[simp] theorem State.putBytes_queues (s : State) (loc : Nat) (bs : List Byte) : (s.putBytes loc bs).queues = s.queues := rfl
@[simp] theorem State.putBytes_served (s : State) (loc : Nat) (bs : List Byte) : (s.putBytes loc bs).served = s.served := rfl
@[simp] theorem State.putBytes_life (s : State) (loc : Nat) (bs : List Byte) : (s.putBytes loc bs).life = s.life := rfl
@[simp] theorem State.putBytes_committed (s : State) (loc : Nat) (bs : List Byte) : (s.putBytes loc bs).committed = s.committed := rfl
@[simp] theorem State.putBytes_stays (s : State) (loc : Nat) (bs : List Byte) : (s.putBytes loc bs).stays = s.stays := rfl
@[simp] theorem State.putBytes_arrays (s : State) (loc : Nat) (bs : List Byte) : (s.putBytes loc bs).arrays = s.arrays := rfl
@[simp] theorem State.putBytes_portUp (s : State) (loc : Nat) (bs : List Byte) : (s.putBytes loc bs).portUp = s.portUp := rfl
@[simp] theorem State.putBytes_packageUp (s : State) (loc : Nat) (bs : List Byte) : (s.putBytes loc bs).packageUp = s.packageUp := rfl
@[simp] theorem State.putBytes_interrupts (s : State) (loc : Nat) (bs : List Byte) : (s.putBytes loc bs).interrupts = s.interrupts := rfl
@[simp] theorem State.putBytes_records (s : State) (loc : Nat) (bs : List Byte) : (s.putBytes loc bs).records = s.records := rfl
@[simp] theorem State.putBytes_hostReplies (s : State) (loc : Nat) (bs : List Byte) : (s.putBytes loc bs).hostReplies = s.hostReplies := rfl
@[simp] theorem State.putBytes_mirrorSent (s : State) (loc : Nat) (bs : List Byte) : (s.putBytes loc bs).mirrorSent = s.mirrorSent := rfl
@[simp] theorem State.putBytes_mirrorAcks (s : State) (loc : Nat) (bs : List Byte) : (s.putBytes loc bs).mirrorAcks = s.mirrorAcks := rfl
@[simp] theorem State.putBytes_lostDies (s : State) (loc : Nat) (bs : List Byte) : (s.putBytes loc bs).lostDies = s.lostDies := rfl
@[simp] theorem State.putBytes_dieTlb (s : State) (loc : Nat) (bs : List Byte) : (s.putBytes loc bs).dieTlb = s.dieTlb := rfl
@[simp] theorem State.putBytes_roCache (s : State) (loc : Nat) (bs : List Byte) : (s.putBytes loc bs).roCache = s.roCache := rfl
@[simp] theorem State.putBytes_marks (s : State) (loc : Nat) (bs : List Byte) : (s.putBytes loc bs).marks = s.marks := rfl
@[simp] theorem State.putBytes_tags (s : State) (loc : Nat) (bs : List Byte) : (s.putBytes loc bs).tags = s.tags := rfl
@[simp] theorem State.putBytes_waggles (s : State) (loc : Nat) (bs : List Byte) : (s.putBytes loc bs).waggles = s.waggles := rfl
@[simp] theorem State.putBytes_partitions (s : State) (loc : Nat) (bs : List Byte) : (s.putBytes loc bs).partitions = s.partitions := rfl
@[simp] theorem State.putBytes_gangs (s : State) (loc : Nat) (bs : List Byte) : (s.putBytes loc bs).gangs = s.gangs := rfl
@[simp] theorem State.putBytes_cells (s : State) (loc : Nat) (bs : List Byte) : (s.putBytes loc bs).cells = s.cells := rfl
@[simp] theorem State.putBytes_launches (s : State) (loc : Nat) (bs : List Byte) : (s.putBytes loc bs).launches = s.launches := rfl
@[simp] theorem State.putBytes_nextLaunch (s : State) (loc : Nat) (bs : List Byte) : (s.putBytes loc bs).nextLaunch = s.nextLaunch := rfl
@[simp] theorem State.putBytes_nextGang (s : State) (loc : Nat) (bs : List Byte) : (s.putBytes loc bs).nextGang = s.nextGang := rfl
@[simp] theorem State.putBytes_cores (s : State) (loc : Nat) (bs : List Byte) : (s.putBytes loc bs).cores = s.cores := rfl
@[simp] theorem State.putBytes_parked (s : State) (loc : Nat) (bs : List Byte) : (s.putBytes loc bs).parked = s.parked := rfl
@[simp] theorem State.putBytes_contexts (s : State) (loc : Nat) (bs : List Byte) : (s.putBytes loc bs).contexts = s.contexts := rfl
@[simp] theorem State.putBytes_nextPtupd (s : State) (loc : Nat) (bs : List Byte) : (s.putBytes loc bs).nextPtupd = s.nextPtupd := rfl
@[simp] theorem State.putBytes_fresh (s : State) (loc : Nat) (bs : List Byte) : (s.putBytes loc bs).fresh = s.fresh := rfl
@[simp] theorem State.putBytes_focus (s : State) (loc : Nat) (bs : List Byte) : (s.putBytes loc bs).focus = s.focus := rfl
@[simp] theorem State.putBytes_cursor (s : State) (loc : Nat) (bs : List Byte) : (s.putBytes loc bs).cursor = s.cursor := rfl
@[simp] theorem State.putBytes_agenda (s : State) (loc : Nat) (bs : List Byte) : (s.putBytes loc bs).agenda = s.agenda := rfl
@[simp] theorem State.putBytes_mem (s : State) (loc : Nat) (bs : List Byte) : (s.putBytes loc bs).mem = writeBytes s.mem loc bs := rfl
@[simp] theorem State.putBytes_upsets (s : State) (loc : Nat) (bs : List Byte) : (s.putBytes loc bs).upsets = (s.clearUpsets loc bs.length).upsets := rfl

/-! ## setMark -/

@[simp] theorem State.setMark_now (s : State) (loc : Nat) (m : Bool) : (s.setMark loc m).now = s.now := rfl
@[simp] theorem State.setMark_diemix (s : State) (loc : Nat) (m : Bool) : (s.setMark loc m).diemix = s.diemix := rfl
@[simp] theorem State.setMark_diecell (s : State) (loc : Nat) (m : Bool) : (s.setMark loc m).diecell = s.diecell := rfl
@[simp] theorem State.setMark_mixgen (s : State) (loc : Nat) (m : Bool) : (s.setMark loc m).mixgen = s.mixgen := rfl
@[simp] theorem State.setMark_view (s : State) (loc : Nat) (m : Bool) : (s.setMark loc m).view = s.view := rfl
@[simp] theorem State.setMark_rdymap0 (s : State) (loc : Nat) (m : Bool) : (s.setMark loc m).rdymap0 = s.rdymap0 := rfl
@[simp] theorem State.setMark_rdymap1 (s : State) (loc : Nat) (m : Bool) : (s.setMark loc m).rdymap1 = s.rdymap1 := rfl
@[simp] theorem State.setMark_pkgstat (s : State) (loc : Nat) (m : Bool) : (s.setMark loc m).pkgstat = s.pkgstat := rfl
@[simp] theorem State.setMark_hsem (s : State) (loc : Nat) (m : Bool) : (s.setMark loc m).hsem = s.hsem := rfl
@[simp] theorem State.setMark_lstatBusy (s : State) (loc : Nat) (m : Bool) : (s.setMark loc m).lstatBusy = s.lstatBusy := rfl
@[simp] theorem State.setMark_lstatCode (s : State) (loc : Nat) (m : Bool) : (s.setMark loc m).lstatCode = s.lstatCode := rfl
@[simp] theorem State.setMark_lcmd (s : State) (loc : Nat) (m : Bool) : (s.setMark loc m).lcmd = s.lcmd := rfl
@[simp] theorem State.setMark_mr (s : State) (loc : Nat) (m : Bool) : (s.setMark loc m).mr = s.mr := rfl
@[simp] theorem State.setMark_spdm (s : State) (loc : Nat) (m : Bool) : (s.setMark loc m).spdm = s.spdm := rfl
@[simp] theorem State.setMark_ide (s : State) (loc : Nat) (m : Bool) : (s.setMark loc m).ide = s.ide := rfl
@[simp] theorem State.setMark_session (s : State) (loc : Nat) (m : Bool) : (s.setMark loc m).session = s.session := rfl
@[simp] theorem State.setMark_staged (s : State) (loc : Nat) (m : Bool) : (s.setMark loc m).staged = s.staged := rfl
@[simp] theorem State.setMark_cethr (s : State) (loc : Nat) (m : Bool) : (s.setMark loc m).cethr = s.cethr := rfl
@[simp] theorem State.setMark_tblver (s : State) (loc : Nat) (m : Bool) : (s.setMark loc m).tblver = s.tblver := rfl
@[simp] theorem State.setMark_lnkst (s : State) (loc : Nat) (m : Bool) : (s.setMark loc m).lnkst = s.lnkst := rfl
@[simp] theorem State.setMark_wqcfg (s : State) (loc : Nat) (m : Bool) : (s.setMark loc m).wqcfg = s.wqcfg := rfl
@[simp] theorem State.setMark_queues (s : State) (loc : Nat) (m : Bool) : (s.setMark loc m).queues = s.queues := rfl
@[simp] theorem State.setMark_served (s : State) (loc : Nat) (m : Bool) : (s.setMark loc m).served = s.served := rfl
@[simp] theorem State.setMark_life (s : State) (loc : Nat) (m : Bool) : (s.setMark loc m).life = s.life := rfl
@[simp] theorem State.setMark_committed (s : State) (loc : Nat) (m : Bool) : (s.setMark loc m).committed = s.committed := rfl
@[simp] theorem State.setMark_stays (s : State) (loc : Nat) (m : Bool) : (s.setMark loc m).stays = s.stays := rfl
@[simp] theorem State.setMark_arrays (s : State) (loc : Nat) (m : Bool) : (s.setMark loc m).arrays = s.arrays := rfl
@[simp] theorem State.setMark_portUp (s : State) (loc : Nat) (m : Bool) : (s.setMark loc m).portUp = s.portUp := rfl
@[simp] theorem State.setMark_packageUp (s : State) (loc : Nat) (m : Bool) : (s.setMark loc m).packageUp = s.packageUp := rfl
@[simp] theorem State.setMark_interrupts (s : State) (loc : Nat) (m : Bool) : (s.setMark loc m).interrupts = s.interrupts := rfl
@[simp] theorem State.setMark_records (s : State) (loc : Nat) (m : Bool) : (s.setMark loc m).records = s.records := rfl
@[simp] theorem State.setMark_hostReplies (s : State) (loc : Nat) (m : Bool) : (s.setMark loc m).hostReplies = s.hostReplies := rfl
@[simp] theorem State.setMark_mirrorSent (s : State) (loc : Nat) (m : Bool) : (s.setMark loc m).mirrorSent = s.mirrorSent := rfl
@[simp] theorem State.setMark_mirrorAcks (s : State) (loc : Nat) (m : Bool) : (s.setMark loc m).mirrorAcks = s.mirrorAcks := rfl
@[simp] theorem State.setMark_mem (s : State) (loc : Nat) (m : Bool) : (s.setMark loc m).mem = s.mem := rfl
@[simp] theorem State.setMark_poison (s : State) (loc : Nat) (m : Bool) : (s.setMark loc m).poison = s.poison := rfl
@[simp] theorem State.setMark_upsets (s : State) (loc : Nat) (m : Bool) : (s.setMark loc m).upsets = s.upsets := rfl
@[simp] theorem State.setMark_lostDies (s : State) (loc : Nat) (m : Bool) : (s.setMark loc m).lostDies = s.lostDies := rfl
@[simp] theorem State.setMark_dieTlb (s : State) (loc : Nat) (m : Bool) : (s.setMark loc m).dieTlb = s.dieTlb := rfl
@[simp] theorem State.setMark_roCache (s : State) (loc : Nat) (m : Bool) : (s.setMark loc m).roCache = s.roCache := rfl
@[simp] theorem State.setMark_tags (s : State) (loc : Nat) (m : Bool) : (s.setMark loc m).tags = s.tags := rfl
@[simp] theorem State.setMark_waggles (s : State) (loc : Nat) (m : Bool) : (s.setMark loc m).waggles = s.waggles := rfl
@[simp] theorem State.setMark_partitions (s : State) (loc : Nat) (m : Bool) : (s.setMark loc m).partitions = s.partitions := rfl
@[simp] theorem State.setMark_gangs (s : State) (loc : Nat) (m : Bool) : (s.setMark loc m).gangs = s.gangs := rfl
@[simp] theorem State.setMark_cells (s : State) (loc : Nat) (m : Bool) : (s.setMark loc m).cells = s.cells := rfl
@[simp] theorem State.setMark_launches (s : State) (loc : Nat) (m : Bool) : (s.setMark loc m).launches = s.launches := rfl
@[simp] theorem State.setMark_nextLaunch (s : State) (loc : Nat) (m : Bool) : (s.setMark loc m).nextLaunch = s.nextLaunch := rfl
@[simp] theorem State.setMark_nextGang (s : State) (loc : Nat) (m : Bool) : (s.setMark loc m).nextGang = s.nextGang := rfl
@[simp] theorem State.setMark_cores (s : State) (loc : Nat) (m : Bool) : (s.setMark loc m).cores = s.cores := rfl
@[simp] theorem State.setMark_parked (s : State) (loc : Nat) (m : Bool) : (s.setMark loc m).parked = s.parked := rfl
@[simp] theorem State.setMark_contexts (s : State) (loc : Nat) (m : Bool) : (s.setMark loc m).contexts = s.contexts := rfl
@[simp] theorem State.setMark_nextPtupd (s : State) (loc : Nat) (m : Bool) : (s.setMark loc m).nextPtupd = s.nextPtupd := rfl
@[simp] theorem State.setMark_fresh (s : State) (loc : Nat) (m : Bool) : (s.setMark loc m).fresh = s.fresh := rfl
@[simp] theorem State.setMark_focus (s : State) (loc : Nat) (m : Bool) : (s.setMark loc m).focus = s.focus := rfl
@[simp] theorem State.setMark_cursor (s : State) (loc : Nat) (m : Bool) : (s.setMark loc m).cursor = s.cursor := rfl
@[simp] theorem State.setMark_agenda (s : State) (loc : Nat) (m : Bool) : (s.setMark loc m).agenda = s.agenda := rfl

/-! ## setTag -/

@[simp] theorem State.setTag_now (s : State) (loc : Nat) (v c : Bool) : (s.setTag loc v c).now = s.now := rfl
@[simp] theorem State.setTag_diemix (s : State) (loc : Nat) (v c : Bool) : (s.setTag loc v c).diemix = s.diemix := rfl
@[simp] theorem State.setTag_diecell (s : State) (loc : Nat) (v c : Bool) : (s.setTag loc v c).diecell = s.diecell := rfl
@[simp] theorem State.setTag_mixgen (s : State) (loc : Nat) (v c : Bool) : (s.setTag loc v c).mixgen = s.mixgen := rfl
@[simp] theorem State.setTag_view (s : State) (loc : Nat) (v c : Bool) : (s.setTag loc v c).view = s.view := rfl
@[simp] theorem State.setTag_rdymap0 (s : State) (loc : Nat) (v c : Bool) : (s.setTag loc v c).rdymap0 = s.rdymap0 := rfl
@[simp] theorem State.setTag_rdymap1 (s : State) (loc : Nat) (v c : Bool) : (s.setTag loc v c).rdymap1 = s.rdymap1 := rfl
@[simp] theorem State.setTag_pkgstat (s : State) (loc : Nat) (v c : Bool) : (s.setTag loc v c).pkgstat = s.pkgstat := rfl
@[simp] theorem State.setTag_hsem (s : State) (loc : Nat) (v c : Bool) : (s.setTag loc v c).hsem = s.hsem := rfl
@[simp] theorem State.setTag_lstatBusy (s : State) (loc : Nat) (v c : Bool) : (s.setTag loc v c).lstatBusy = s.lstatBusy := rfl
@[simp] theorem State.setTag_lstatCode (s : State) (loc : Nat) (v c : Bool) : (s.setTag loc v c).lstatCode = s.lstatCode := rfl
@[simp] theorem State.setTag_lcmd (s : State) (loc : Nat) (v c : Bool) : (s.setTag loc v c).lcmd = s.lcmd := rfl
@[simp] theorem State.setTag_mr (s : State) (loc : Nat) (v c : Bool) : (s.setTag loc v c).mr = s.mr := rfl
@[simp] theorem State.setTag_spdm (s : State) (loc : Nat) (v c : Bool) : (s.setTag loc v c).spdm = s.spdm := rfl
@[simp] theorem State.setTag_ide (s : State) (loc : Nat) (v c : Bool) : (s.setTag loc v c).ide = s.ide := rfl
@[simp] theorem State.setTag_session (s : State) (loc : Nat) (v c : Bool) : (s.setTag loc v c).session = s.session := rfl
@[simp] theorem State.setTag_staged (s : State) (loc : Nat) (v c : Bool) : (s.setTag loc v c).staged = s.staged := rfl
@[simp] theorem State.setTag_cethr (s : State) (loc : Nat) (v c : Bool) : (s.setTag loc v c).cethr = s.cethr := rfl
@[simp] theorem State.setTag_tblver (s : State) (loc : Nat) (v c : Bool) : (s.setTag loc v c).tblver = s.tblver := rfl
@[simp] theorem State.setTag_lnkst (s : State) (loc : Nat) (v c : Bool) : (s.setTag loc v c).lnkst = s.lnkst := rfl
@[simp] theorem State.setTag_wqcfg (s : State) (loc : Nat) (v c : Bool) : (s.setTag loc v c).wqcfg = s.wqcfg := rfl
@[simp] theorem State.setTag_queues (s : State) (loc : Nat) (v c : Bool) : (s.setTag loc v c).queues = s.queues := rfl
@[simp] theorem State.setTag_served (s : State) (loc : Nat) (v c : Bool) : (s.setTag loc v c).served = s.served := rfl
@[simp] theorem State.setTag_life (s : State) (loc : Nat) (v c : Bool) : (s.setTag loc v c).life = s.life := rfl
@[simp] theorem State.setTag_committed (s : State) (loc : Nat) (v c : Bool) : (s.setTag loc v c).committed = s.committed := rfl
@[simp] theorem State.setTag_stays (s : State) (loc : Nat) (v c : Bool) : (s.setTag loc v c).stays = s.stays := rfl
@[simp] theorem State.setTag_arrays (s : State) (loc : Nat) (v c : Bool) : (s.setTag loc v c).arrays = s.arrays := rfl
@[simp] theorem State.setTag_portUp (s : State) (loc : Nat) (v c : Bool) : (s.setTag loc v c).portUp = s.portUp := rfl
@[simp] theorem State.setTag_packageUp (s : State) (loc : Nat) (v c : Bool) : (s.setTag loc v c).packageUp = s.packageUp := rfl
@[simp] theorem State.setTag_interrupts (s : State) (loc : Nat) (v c : Bool) : (s.setTag loc v c).interrupts = s.interrupts := rfl
@[simp] theorem State.setTag_records (s : State) (loc : Nat) (v c : Bool) : (s.setTag loc v c).records = s.records := rfl
@[simp] theorem State.setTag_hostReplies (s : State) (loc : Nat) (v c : Bool) : (s.setTag loc v c).hostReplies = s.hostReplies := rfl
@[simp] theorem State.setTag_mirrorSent (s : State) (loc : Nat) (v c : Bool) : (s.setTag loc v c).mirrorSent = s.mirrorSent := rfl
@[simp] theorem State.setTag_mirrorAcks (s : State) (loc : Nat) (v c : Bool) : (s.setTag loc v c).mirrorAcks = s.mirrorAcks := rfl
@[simp] theorem State.setTag_mem (s : State) (loc : Nat) (v c : Bool) : (s.setTag loc v c).mem = s.mem := rfl
@[simp] theorem State.setTag_poison (s : State) (loc : Nat) (v c : Bool) : (s.setTag loc v c).poison = s.poison := rfl
@[simp] theorem State.setTag_upsets (s : State) (loc : Nat) (v c : Bool) : (s.setTag loc v c).upsets = s.upsets := rfl
@[simp] theorem State.setTag_lostDies (s : State) (loc : Nat) (v c : Bool) : (s.setTag loc v c).lostDies = s.lostDies := rfl
@[simp] theorem State.setTag_dieTlb (s : State) (loc : Nat) (v c : Bool) : (s.setTag loc v c).dieTlb = s.dieTlb := rfl
@[simp] theorem State.setTag_roCache (s : State) (loc : Nat) (v c : Bool) : (s.setTag loc v c).roCache = s.roCache := rfl
@[simp] theorem State.setTag_marks (s : State) (loc : Nat) (v c : Bool) : (s.setTag loc v c).marks = s.marks := rfl
@[simp] theorem State.setTag_waggles (s : State) (loc : Nat) (v c : Bool) : (s.setTag loc v c).waggles = s.waggles := rfl
@[simp] theorem State.setTag_partitions (s : State) (loc : Nat) (v c : Bool) : (s.setTag loc v c).partitions = s.partitions := rfl
@[simp] theorem State.setTag_gangs (s : State) (loc : Nat) (v c : Bool) : (s.setTag loc v c).gangs = s.gangs := rfl
@[simp] theorem State.setTag_cells (s : State) (loc : Nat) (v c : Bool) : (s.setTag loc v c).cells = s.cells := rfl
@[simp] theorem State.setTag_launches (s : State) (loc : Nat) (v c : Bool) : (s.setTag loc v c).launches = s.launches := rfl
@[simp] theorem State.setTag_nextLaunch (s : State) (loc : Nat) (v c : Bool) : (s.setTag loc v c).nextLaunch = s.nextLaunch := rfl
@[simp] theorem State.setTag_nextGang (s : State) (loc : Nat) (v c : Bool) : (s.setTag loc v c).nextGang = s.nextGang := rfl
@[simp] theorem State.setTag_cores (s : State) (loc : Nat) (v c : Bool) : (s.setTag loc v c).cores = s.cores := rfl
@[simp] theorem State.setTag_parked (s : State) (loc : Nat) (v c : Bool) : (s.setTag loc v c).parked = s.parked := rfl
@[simp] theorem State.setTag_contexts (s : State) (loc : Nat) (v c : Bool) : (s.setTag loc v c).contexts = s.contexts := rfl
@[simp] theorem State.setTag_nextPtupd (s : State) (loc : Nat) (v c : Bool) : (s.setTag loc v c).nextPtupd = s.nextPtupd := rfl
@[simp] theorem State.setTag_fresh (s : State) (loc : Nat) (v c : Bool) : (s.setTag loc v c).fresh = s.fresh := rfl
@[simp] theorem State.setTag_focus (s : State) (loc : Nat) (v c : Bool) : (s.setTag loc v c).focus = s.focus := rfl
@[simp] theorem State.setTag_cursor (s : State) (loc : Nat) (v c : Bool) : (s.setTag loc v c).cursor = s.cursor := rfl
@[simp] theorem State.setTag_agenda (s : State) (loc : Nat) (v c : Bool) : (s.setTag loc v c).agenda = s.agenda := rfl

/-! ## interrupt -/

@[simp] theorem State.interrupt_now (s : State) (port : Bool) (vector : Nat) (data : Word) : (s.interrupt port vector data).now = s.now := rfl
@[simp] theorem State.interrupt_diemix (s : State) (port : Bool) (vector : Nat) (data : Word) : (s.interrupt port vector data).diemix = s.diemix := rfl
@[simp] theorem State.interrupt_diecell (s : State) (port : Bool) (vector : Nat) (data : Word) : (s.interrupt port vector data).diecell = s.diecell := rfl
@[simp] theorem State.interrupt_mixgen (s : State) (port : Bool) (vector : Nat) (data : Word) : (s.interrupt port vector data).mixgen = s.mixgen := rfl
@[simp] theorem State.interrupt_view (s : State) (port : Bool) (vector : Nat) (data : Word) : (s.interrupt port vector data).view = s.view := rfl
@[simp] theorem State.interrupt_rdymap0 (s : State) (port : Bool) (vector : Nat) (data : Word) : (s.interrupt port vector data).rdymap0 = s.rdymap0 := rfl
@[simp] theorem State.interrupt_rdymap1 (s : State) (port : Bool) (vector : Nat) (data : Word) : (s.interrupt port vector data).rdymap1 = s.rdymap1 := rfl
@[simp] theorem State.interrupt_pkgstat (s : State) (port : Bool) (vector : Nat) (data : Word) : (s.interrupt port vector data).pkgstat = s.pkgstat := rfl
@[simp] theorem State.interrupt_hsem (s : State) (port : Bool) (vector : Nat) (data : Word) : (s.interrupt port vector data).hsem = s.hsem := rfl
@[simp] theorem State.interrupt_lstatBusy (s : State) (port : Bool) (vector : Nat) (data : Word) : (s.interrupt port vector data).lstatBusy = s.lstatBusy := rfl
@[simp] theorem State.interrupt_lstatCode (s : State) (port : Bool) (vector : Nat) (data : Word) : (s.interrupt port vector data).lstatCode = s.lstatCode := rfl
@[simp] theorem State.interrupt_lcmd (s : State) (port : Bool) (vector : Nat) (data : Word) : (s.interrupt port vector data).lcmd = s.lcmd := rfl
@[simp] theorem State.interrupt_mr (s : State) (port : Bool) (vector : Nat) (data : Word) : (s.interrupt port vector data).mr = s.mr := rfl
@[simp] theorem State.interrupt_spdm (s : State) (port : Bool) (vector : Nat) (data : Word) : (s.interrupt port vector data).spdm = s.spdm := rfl
@[simp] theorem State.interrupt_ide (s : State) (port : Bool) (vector : Nat) (data : Word) : (s.interrupt port vector data).ide = s.ide := rfl
@[simp] theorem State.interrupt_session (s : State) (port : Bool) (vector : Nat) (data : Word) : (s.interrupt port vector data).session = s.session := rfl
@[simp] theorem State.interrupt_staged (s : State) (port : Bool) (vector : Nat) (data : Word) : (s.interrupt port vector data).staged = s.staged := rfl
@[simp] theorem State.interrupt_cethr (s : State) (port : Bool) (vector : Nat) (data : Word) : (s.interrupt port vector data).cethr = s.cethr := rfl
@[simp] theorem State.interrupt_tblver (s : State) (port : Bool) (vector : Nat) (data : Word) : (s.interrupt port vector data).tblver = s.tblver := rfl
@[simp] theorem State.interrupt_lnkst (s : State) (port : Bool) (vector : Nat) (data : Word) : (s.interrupt port vector data).lnkst = s.lnkst := rfl
@[simp] theorem State.interrupt_wqcfg (s : State) (port : Bool) (vector : Nat) (data : Word) : (s.interrupt port vector data).wqcfg = s.wqcfg := rfl
@[simp] theorem State.interrupt_queues (s : State) (port : Bool) (vector : Nat) (data : Word) : (s.interrupt port vector data).queues = s.queues := rfl
@[simp] theorem State.interrupt_served (s : State) (port : Bool) (vector : Nat) (data : Word) : (s.interrupt port vector data).served = s.served := rfl
@[simp] theorem State.interrupt_life (s : State) (port : Bool) (vector : Nat) (data : Word) : (s.interrupt port vector data).life = s.life := rfl
@[simp] theorem State.interrupt_committed (s : State) (port : Bool) (vector : Nat) (data : Word) : (s.interrupt port vector data).committed = s.committed := rfl
@[simp] theorem State.interrupt_stays (s : State) (port : Bool) (vector : Nat) (data : Word) : (s.interrupt port vector data).stays = s.stays := rfl
@[simp] theorem State.interrupt_arrays (s : State) (port : Bool) (vector : Nat) (data : Word) : (s.interrupt port vector data).arrays = s.arrays := rfl
@[simp] theorem State.interrupt_portUp (s : State) (port : Bool) (vector : Nat) (data : Word) : (s.interrupt port vector data).portUp = s.portUp := rfl
@[simp] theorem State.interrupt_packageUp (s : State) (port : Bool) (vector : Nat) (data : Word) : (s.interrupt port vector data).packageUp = s.packageUp := rfl
@[simp] theorem State.interrupt_records (s : State) (port : Bool) (vector : Nat) (data : Word) : (s.interrupt port vector data).records = s.records := rfl
@[simp] theorem State.interrupt_hostReplies (s : State) (port : Bool) (vector : Nat) (data : Word) : (s.interrupt port vector data).hostReplies = s.hostReplies := rfl
@[simp] theorem State.interrupt_mirrorSent (s : State) (port : Bool) (vector : Nat) (data : Word) : (s.interrupt port vector data).mirrorSent = s.mirrorSent := rfl
@[simp] theorem State.interrupt_mirrorAcks (s : State) (port : Bool) (vector : Nat) (data : Word) : (s.interrupt port vector data).mirrorAcks = s.mirrorAcks := rfl
@[simp] theorem State.interrupt_mem (s : State) (port : Bool) (vector : Nat) (data : Word) : (s.interrupt port vector data).mem = s.mem := rfl
@[simp] theorem State.interrupt_poison (s : State) (port : Bool) (vector : Nat) (data : Word) : (s.interrupt port vector data).poison = s.poison := rfl
@[simp] theorem State.interrupt_upsets (s : State) (port : Bool) (vector : Nat) (data : Word) : (s.interrupt port vector data).upsets = s.upsets := rfl
@[simp] theorem State.interrupt_lostDies (s : State) (port : Bool) (vector : Nat) (data : Word) : (s.interrupt port vector data).lostDies = s.lostDies := rfl
@[simp] theorem State.interrupt_dieTlb (s : State) (port : Bool) (vector : Nat) (data : Word) : (s.interrupt port vector data).dieTlb = s.dieTlb := rfl
@[simp] theorem State.interrupt_roCache (s : State) (port : Bool) (vector : Nat) (data : Word) : (s.interrupt port vector data).roCache = s.roCache := rfl
@[simp] theorem State.interrupt_marks (s : State) (port : Bool) (vector : Nat) (data : Word) : (s.interrupt port vector data).marks = s.marks := rfl
@[simp] theorem State.interrupt_tags (s : State) (port : Bool) (vector : Nat) (data : Word) : (s.interrupt port vector data).tags = s.tags := rfl
@[simp] theorem State.interrupt_waggles (s : State) (port : Bool) (vector : Nat) (data : Word) : (s.interrupt port vector data).waggles = s.waggles := rfl
@[simp] theorem State.interrupt_partitions (s : State) (port : Bool) (vector : Nat) (data : Word) : (s.interrupt port vector data).partitions = s.partitions := rfl
@[simp] theorem State.interrupt_gangs (s : State) (port : Bool) (vector : Nat) (data : Word) : (s.interrupt port vector data).gangs = s.gangs := rfl
@[simp] theorem State.interrupt_cells (s : State) (port : Bool) (vector : Nat) (data : Word) : (s.interrupt port vector data).cells = s.cells := rfl
@[simp] theorem State.interrupt_launches (s : State) (port : Bool) (vector : Nat) (data : Word) : (s.interrupt port vector data).launches = s.launches := rfl
@[simp] theorem State.interrupt_nextLaunch (s : State) (port : Bool) (vector : Nat) (data : Word) : (s.interrupt port vector data).nextLaunch = s.nextLaunch := rfl
@[simp] theorem State.interrupt_nextGang (s : State) (port : Bool) (vector : Nat) (data : Word) : (s.interrupt port vector data).nextGang = s.nextGang := rfl
@[simp] theorem State.interrupt_cores (s : State) (port : Bool) (vector : Nat) (data : Word) : (s.interrupt port vector data).cores = s.cores := rfl
@[simp] theorem State.interrupt_parked (s : State) (port : Bool) (vector : Nat) (data : Word) : (s.interrupt port vector data).parked = s.parked := rfl
@[simp] theorem State.interrupt_contexts (s : State) (port : Bool) (vector : Nat) (data : Word) : (s.interrupt port vector data).contexts = s.contexts := rfl
@[simp] theorem State.interrupt_nextPtupd (s : State) (port : Bool) (vector : Nat) (data : Word) : (s.interrupt port vector data).nextPtupd = s.nextPtupd := rfl
@[simp] theorem State.interrupt_fresh (s : State) (port : Bool) (vector : Nat) (data : Word) : (s.interrupt port vector data).fresh = s.fresh := rfl
@[simp] theorem State.interrupt_focus (s : State) (port : Bool) (vector : Nat) (data : Word) : (s.interrupt port vector data).focus = s.focus := rfl
@[simp] theorem State.interrupt_cursor (s : State) (port : Bool) (vector : Nat) (data : Word) : (s.interrupt port vector data).cursor = s.cursor := rfl
@[simp] theorem State.interrupt_agenda (s : State) (port : Bool) (vector : Nat) (data : Word) : (s.interrupt port vector data).agenda = s.agenda := rfl
@[simp] theorem State.interrupt_interrupts (s : State) (port : Bool) (vector : Nat) (data : Word) : (s.interrupt port vector data).interrupts = { port, vector, data } :: s.interrupts := rfl

/-! ## report -/

@[simp] theorem State.report_now (s : State) (p : Nat) (r : TrapRecord) : (s.report p r).now = s.now := rfl
@[simp] theorem State.report_diemix (s : State) (p : Nat) (r : TrapRecord) : (s.report p r).diemix = s.diemix := rfl
@[simp] theorem State.report_diecell (s : State) (p : Nat) (r : TrapRecord) : (s.report p r).diecell = s.diecell := rfl
@[simp] theorem State.report_mixgen (s : State) (p : Nat) (r : TrapRecord) : (s.report p r).mixgen = s.mixgen := rfl
@[simp] theorem State.report_view (s : State) (p : Nat) (r : TrapRecord) : (s.report p r).view = s.view := rfl
@[simp] theorem State.report_rdymap0 (s : State) (p : Nat) (r : TrapRecord) : (s.report p r).rdymap0 = s.rdymap0 := rfl
@[simp] theorem State.report_rdymap1 (s : State) (p : Nat) (r : TrapRecord) : (s.report p r).rdymap1 = s.rdymap1 := rfl
@[simp] theorem State.report_pkgstat (s : State) (p : Nat) (r : TrapRecord) : (s.report p r).pkgstat = s.pkgstat := rfl
@[simp] theorem State.report_hsem (s : State) (p : Nat) (r : TrapRecord) : (s.report p r).hsem = s.hsem := rfl
@[simp] theorem State.report_lstatBusy (s : State) (p : Nat) (r : TrapRecord) : (s.report p r).lstatBusy = s.lstatBusy := rfl
@[simp] theorem State.report_lstatCode (s : State) (p : Nat) (r : TrapRecord) : (s.report p r).lstatCode = s.lstatCode := rfl
@[simp] theorem State.report_lcmd (s : State) (p : Nat) (r : TrapRecord) : (s.report p r).lcmd = s.lcmd := rfl
@[simp] theorem State.report_mr (s : State) (p : Nat) (r : TrapRecord) : (s.report p r).mr = s.mr := rfl
@[simp] theorem State.report_spdm (s : State) (p : Nat) (r : TrapRecord) : (s.report p r).spdm = s.spdm := rfl
@[simp] theorem State.report_ide (s : State) (p : Nat) (r : TrapRecord) : (s.report p r).ide = s.ide := rfl
@[simp] theorem State.report_session (s : State) (p : Nat) (r : TrapRecord) : (s.report p r).session = s.session := rfl
@[simp] theorem State.report_staged (s : State) (p : Nat) (r : TrapRecord) : (s.report p r).staged = s.staged := rfl
@[simp] theorem State.report_cethr (s : State) (p : Nat) (r : TrapRecord) : (s.report p r).cethr = s.cethr := rfl
@[simp] theorem State.report_tblver (s : State) (p : Nat) (r : TrapRecord) : (s.report p r).tblver = s.tblver := rfl
@[simp] theorem State.report_lnkst (s : State) (p : Nat) (r : TrapRecord) : (s.report p r).lnkst = s.lnkst := rfl
@[simp] theorem State.report_wqcfg (s : State) (p : Nat) (r : TrapRecord) : (s.report p r).wqcfg = s.wqcfg := rfl
@[simp] theorem State.report_queues (s : State) (p : Nat) (r : TrapRecord) : (s.report p r).queues = s.queues := rfl
@[simp] theorem State.report_served (s : State) (p : Nat) (r : TrapRecord) : (s.report p r).served = s.served := rfl
@[simp] theorem State.report_life (s : State) (p : Nat) (r : TrapRecord) : (s.report p r).life = s.life := rfl
@[simp] theorem State.report_committed (s : State) (p : Nat) (r : TrapRecord) : (s.report p r).committed = s.committed := rfl
@[simp] theorem State.report_stays (s : State) (p : Nat) (r : TrapRecord) : (s.report p r).stays = s.stays := rfl
@[simp] theorem State.report_arrays (s : State) (p : Nat) (r : TrapRecord) : (s.report p r).arrays = s.arrays := rfl
@[simp] theorem State.report_portUp (s : State) (p : Nat) (r : TrapRecord) : (s.report p r).portUp = s.portUp := rfl
@[simp] theorem State.report_packageUp (s : State) (p : Nat) (r : TrapRecord) : (s.report p r).packageUp = s.packageUp := rfl
@[simp] theorem State.report_interrupts (s : State) (p : Nat) (r : TrapRecord) : (s.report p r).interrupts = s.interrupts := rfl
@[simp] theorem State.report_hostReplies (s : State) (p : Nat) (r : TrapRecord) : (s.report p r).hostReplies = s.hostReplies := rfl
@[simp] theorem State.report_mirrorSent (s : State) (p : Nat) (r : TrapRecord) : (s.report p r).mirrorSent = s.mirrorSent := rfl
@[simp] theorem State.report_mirrorAcks (s : State) (p : Nat) (r : TrapRecord) : (s.report p r).mirrorAcks = s.mirrorAcks := rfl
@[simp] theorem State.report_mem (s : State) (p : Nat) (r : TrapRecord) : (s.report p r).mem = s.mem := rfl
@[simp] theorem State.report_poison (s : State) (p : Nat) (r : TrapRecord) : (s.report p r).poison = s.poison := rfl
@[simp] theorem State.report_upsets (s : State) (p : Nat) (r : TrapRecord) : (s.report p r).upsets = s.upsets := rfl
@[simp] theorem State.report_lostDies (s : State) (p : Nat) (r : TrapRecord) : (s.report p r).lostDies = s.lostDies := rfl
@[simp] theorem State.report_dieTlb (s : State) (p : Nat) (r : TrapRecord) : (s.report p r).dieTlb = s.dieTlb := rfl
@[simp] theorem State.report_roCache (s : State) (p : Nat) (r : TrapRecord) : (s.report p r).roCache = s.roCache := rfl
@[simp] theorem State.report_marks (s : State) (p : Nat) (r : TrapRecord) : (s.report p r).marks = s.marks := rfl
@[simp] theorem State.report_tags (s : State) (p : Nat) (r : TrapRecord) : (s.report p r).tags = s.tags := rfl
@[simp] theorem State.report_waggles (s : State) (p : Nat) (r : TrapRecord) : (s.report p r).waggles = s.waggles := rfl
@[simp] theorem State.report_partitions (s : State) (p : Nat) (r : TrapRecord) : (s.report p r).partitions = s.partitions := rfl
@[simp] theorem State.report_gangs (s : State) (p : Nat) (r : TrapRecord) : (s.report p r).gangs = s.gangs := rfl
@[simp] theorem State.report_cells (s : State) (p : Nat) (r : TrapRecord) : (s.report p r).cells = s.cells := rfl
@[simp] theorem State.report_launches (s : State) (p : Nat) (r : TrapRecord) : (s.report p r).launches = s.launches := rfl
@[simp] theorem State.report_nextLaunch (s : State) (p : Nat) (r : TrapRecord) : (s.report p r).nextLaunch = s.nextLaunch := rfl
@[simp] theorem State.report_nextGang (s : State) (p : Nat) (r : TrapRecord) : (s.report p r).nextGang = s.nextGang := rfl
@[simp] theorem State.report_cores (s : State) (p : Nat) (r : TrapRecord) : (s.report p r).cores = s.cores := rfl
@[simp] theorem State.report_parked (s : State) (p : Nat) (r : TrapRecord) : (s.report p r).parked = s.parked := rfl
@[simp] theorem State.report_contexts (s : State) (p : Nat) (r : TrapRecord) : (s.report p r).contexts = s.contexts := rfl
@[simp] theorem State.report_nextPtupd (s : State) (p : Nat) (r : TrapRecord) : (s.report p r).nextPtupd = s.nextPtupd := rfl
@[simp] theorem State.report_fresh (s : State) (p : Nat) (r : TrapRecord) : (s.report p r).fresh = s.fresh := rfl
@[simp] theorem State.report_focus (s : State) (p : Nat) (r : TrapRecord) : (s.report p r).focus = s.focus := rfl
@[simp] theorem State.report_cursor (s : State) (p : Nat) (r : TrapRecord) : (s.report p r).cursor = s.cursor := rfl
@[simp] theorem State.report_agenda (s : State) (p : Nat) (r : TrapRecord) : (s.report p r).agenda = s.agenda := rfl
@[simp] theorem State.report_records (s : State) (p : Nat) (r : TrapRecord) : (s.report p r).records = s.records ++ [(p, r)] := rfl

/-! ## clearRo -/

@[simp] theorem State.clearRo_now (s : State) (slot : Nat) : (s.clearRo slot).now = s.now := rfl
@[simp] theorem State.clearRo_diemix (s : State) (slot : Nat) : (s.clearRo slot).diemix = s.diemix := rfl
@[simp] theorem State.clearRo_diecell (s : State) (slot : Nat) : (s.clearRo slot).diecell = s.diecell := rfl
@[simp] theorem State.clearRo_mixgen (s : State) (slot : Nat) : (s.clearRo slot).mixgen = s.mixgen := rfl
@[simp] theorem State.clearRo_view (s : State) (slot : Nat) : (s.clearRo slot).view = s.view := rfl
@[simp] theorem State.clearRo_rdymap0 (s : State) (slot : Nat) : (s.clearRo slot).rdymap0 = s.rdymap0 := rfl
@[simp] theorem State.clearRo_rdymap1 (s : State) (slot : Nat) : (s.clearRo slot).rdymap1 = s.rdymap1 := rfl
@[simp] theorem State.clearRo_pkgstat (s : State) (slot : Nat) : (s.clearRo slot).pkgstat = s.pkgstat := rfl
@[simp] theorem State.clearRo_hsem (s : State) (slot : Nat) : (s.clearRo slot).hsem = s.hsem := rfl
@[simp] theorem State.clearRo_lstatBusy (s : State) (slot : Nat) : (s.clearRo slot).lstatBusy = s.lstatBusy := rfl
@[simp] theorem State.clearRo_lstatCode (s : State) (slot : Nat) : (s.clearRo slot).lstatCode = s.lstatCode := rfl
@[simp] theorem State.clearRo_lcmd (s : State) (slot : Nat) : (s.clearRo slot).lcmd = s.lcmd := rfl
@[simp] theorem State.clearRo_mr (s : State) (slot : Nat) : (s.clearRo slot).mr = s.mr := rfl
@[simp] theorem State.clearRo_spdm (s : State) (slot : Nat) : (s.clearRo slot).spdm = s.spdm := rfl
@[simp] theorem State.clearRo_ide (s : State) (slot : Nat) : (s.clearRo slot).ide = s.ide := rfl
@[simp] theorem State.clearRo_session (s : State) (slot : Nat) : (s.clearRo slot).session = s.session := rfl
@[simp] theorem State.clearRo_staged (s : State) (slot : Nat) : (s.clearRo slot).staged = s.staged := rfl
@[simp] theorem State.clearRo_cethr (s : State) (slot : Nat) : (s.clearRo slot).cethr = s.cethr := rfl
@[simp] theorem State.clearRo_tblver (s : State) (slot : Nat) : (s.clearRo slot).tblver = s.tblver := rfl
@[simp] theorem State.clearRo_lnkst (s : State) (slot : Nat) : (s.clearRo slot).lnkst = s.lnkst := rfl
@[simp] theorem State.clearRo_wqcfg (s : State) (slot : Nat) : (s.clearRo slot).wqcfg = s.wqcfg := rfl
@[simp] theorem State.clearRo_queues (s : State) (slot : Nat) : (s.clearRo slot).queues = s.queues := rfl
@[simp] theorem State.clearRo_served (s : State) (slot : Nat) : (s.clearRo slot).served = s.served := rfl
@[simp] theorem State.clearRo_life (s : State) (slot : Nat) : (s.clearRo slot).life = s.life := rfl
@[simp] theorem State.clearRo_committed (s : State) (slot : Nat) : (s.clearRo slot).committed = s.committed := rfl
@[simp] theorem State.clearRo_stays (s : State) (slot : Nat) : (s.clearRo slot).stays = s.stays := rfl
@[simp] theorem State.clearRo_arrays (s : State) (slot : Nat) : (s.clearRo slot).arrays = s.arrays := rfl
@[simp] theorem State.clearRo_portUp (s : State) (slot : Nat) : (s.clearRo slot).portUp = s.portUp := rfl
@[simp] theorem State.clearRo_packageUp (s : State) (slot : Nat) : (s.clearRo slot).packageUp = s.packageUp := rfl
@[simp] theorem State.clearRo_interrupts (s : State) (slot : Nat) : (s.clearRo slot).interrupts = s.interrupts := rfl
@[simp] theorem State.clearRo_records (s : State) (slot : Nat) : (s.clearRo slot).records = s.records := rfl
@[simp] theorem State.clearRo_hostReplies (s : State) (slot : Nat) : (s.clearRo slot).hostReplies = s.hostReplies := rfl
@[simp] theorem State.clearRo_mirrorSent (s : State) (slot : Nat) : (s.clearRo slot).mirrorSent = s.mirrorSent := rfl
@[simp] theorem State.clearRo_mirrorAcks (s : State) (slot : Nat) : (s.clearRo slot).mirrorAcks = s.mirrorAcks := rfl
@[simp] theorem State.clearRo_mem (s : State) (slot : Nat) : (s.clearRo slot).mem = s.mem := rfl
@[simp] theorem State.clearRo_poison (s : State) (slot : Nat) : (s.clearRo slot).poison = s.poison := rfl
@[simp] theorem State.clearRo_upsets (s : State) (slot : Nat) : (s.clearRo slot).upsets = s.upsets := rfl
@[simp] theorem State.clearRo_lostDies (s : State) (slot : Nat) : (s.clearRo slot).lostDies = s.lostDies := rfl
@[simp] theorem State.clearRo_dieTlb (s : State) (slot : Nat) : (s.clearRo slot).dieTlb = s.dieTlb := rfl
@[simp] theorem State.clearRo_marks (s : State) (slot : Nat) : (s.clearRo slot).marks = s.marks := rfl
@[simp] theorem State.clearRo_tags (s : State) (slot : Nat) : (s.clearRo slot).tags = s.tags := rfl
@[simp] theorem State.clearRo_waggles (s : State) (slot : Nat) : (s.clearRo slot).waggles = s.waggles := rfl
@[simp] theorem State.clearRo_partitions (s : State) (slot : Nat) : (s.clearRo slot).partitions = s.partitions := rfl
@[simp] theorem State.clearRo_gangs (s : State) (slot : Nat) : (s.clearRo slot).gangs = s.gangs := rfl
@[simp] theorem State.clearRo_cells (s : State) (slot : Nat) : (s.clearRo slot).cells = s.cells := rfl
@[simp] theorem State.clearRo_launches (s : State) (slot : Nat) : (s.clearRo slot).launches = s.launches := rfl
@[simp] theorem State.clearRo_nextLaunch (s : State) (slot : Nat) : (s.clearRo slot).nextLaunch = s.nextLaunch := rfl
@[simp] theorem State.clearRo_nextGang (s : State) (slot : Nat) : (s.clearRo slot).nextGang = s.nextGang := rfl
@[simp] theorem State.clearRo_cores (s : State) (slot : Nat) : (s.clearRo slot).cores = s.cores := rfl
@[simp] theorem State.clearRo_parked (s : State) (slot : Nat) : (s.clearRo slot).parked = s.parked := rfl
@[simp] theorem State.clearRo_contexts (s : State) (slot : Nat) : (s.clearRo slot).contexts = s.contexts := rfl
@[simp] theorem State.clearRo_nextPtupd (s : State) (slot : Nat) : (s.clearRo slot).nextPtupd = s.nextPtupd := rfl
@[simp] theorem State.clearRo_fresh (s : State) (slot : Nat) : (s.clearRo slot).fresh = s.fresh := rfl
@[simp] theorem State.clearRo_focus (s : State) (slot : Nat) : (s.clearRo slot).focus = s.focus := rfl
@[simp] theorem State.clearRo_cursor (s : State) (slot : Nat) : (s.clearRo slot).cursor = s.cursor := rfl
@[simp] theorem State.clearRo_agenda (s : State) (slot : Nat) : (s.clearRo slot).agenda = s.agenda := rfl
@[simp] theorem State.clearRo_roCache (s : State) (slot : Nat) : (s.clearRo slot).roCache = s.roCache.filter (fun l => l.1 / 2 ^ 48 != slot) := rfl

end Sys2Proof.Machine
end

