-- ==== Sys2Proof/Laws/Issue.lean ====
section
/-! SUPPORT. What the frames of meanings answer when the word can issue. -/

namespace Sys2Proof.Machine

theorem onA_of_issues {s : State} {ag : Agent} {a : ASeq} {use : List (BitVec 5)} (h : Issues s ag a use)
    (k : Agent → ASeq → State) : onA s use k = .next (k ag a) := by
  obtain ⟨rfl, hx, hi, ha, hp⟩ := h
  unfold onA
  split
  · rename_i key hk; exact absurd hk (hx key)
  · simp [hi, ha, hp]

theorem CellIssues.issues {s : State} {key : Nat} {c : Cell} {use : List (BitVec 5)} (h : CellIssues s key c use) :
    Issues s (.aseq key) c.a use :=
  ⟨h.focus, by simp, h.issuing, by simp [State.aseq?, h.cell], h.ready⟩

theorem CoreIssues.issues {s : State} {k : Nat} {use : List (BitVec 5)} (h : CoreIssues s k use) :
    Issues s (.core k) (s.core k).a use := by
  have hk : k < 16 := by
    have := h.issuing
    simp only [State.issuing, Bool.and_eq_true, decide_eq_true_eq] at this
    exact this.1
  exact ⟨h.focus, by simp, h.issuing, by simp [State.aseq?, hk], h.ready⟩

theorem onCell_of_issues {s : State} {key : Nat} {c : Cell} {use : List (BitVec 5)} (h : CellIssues s key c use)
    (major minor : Nat) (short : Bool) (k : Nat → Cell → State) : onCell s use major minor short k = .next (k key c) := by
  unfold onCell
  rw [onA_of_issues h.issues]
  simp [h.cell]

theorem onCellTime_of_issues {s : State} {key : Nat} {c : Cell} {use : List (BitVec 5)} (h : CellIssues s key c use)
    (k : Nat → Cell → State) : onCellTime s use k = .next (k key c) := by
  unfold onCellTime
  rw [onA_of_issues h.issues]
  simp [h.cell]

theorem onCore_of_issues {s : State} {n : Nat} {use : List (BitVec 5)} (h : CoreIssues s n use)
    (major minor : Nat) (k : Nat → Core → State) : onCore s use major minor k = .next (k n (s.core n)) := by
  unfold onCore
  rw [onA_of_issues h.issues]

theorem onSupervisor_of_issues {s : State} {n : Nat} {use : List (BitVec 5)} (h : CoreIssues s n use)
    (hp : (s.core n).priv ≠ .user) (major minor : Nat) (k : Nat → Core → State) :
    onSupervisor s use major minor k = .next (k n (s.core n)) := by
  unfold onSupervisor
  rw [onA_of_issues h.issues]
  simp [hp]

/-- A cell at the head of a supervisor form takes the privilege trap, whatever the form would do (18 R355). -/
theorem onSupervisor_of_cell {s : State} {key : Nat} {c : Cell} {use : List (BitVec 5)} (h : CellIssues s key c use)
    (major minor : Nat) (k : Nat → Core → State) :
    onSupervisor s use major minor k = .next (s.privilegeTrap (.aseq key) major minor) := by
  unfold onSupervisor
  rw [onA_of_issues h.issues]

theorem onX_of_issues {s : State} {key : Nat} {c : Cell} {adds : List Move} {needs : List (Nat × Nat)}
    (h : XIssues s key c adds needs) (cost : Nat) (k : Nat → Cell → State → State) :
    onX s adds needs cost k = .next (k key (c.xIssued adds cost) (s.setCell key (c.xIssued adds cost))) := by
  obtain ⟨hf, hi, hc, hm⟩ := h
  unfold onX
  simp only [hf, hi, hc, hm, if_true]
  rfl

end Sys2Proof.Machine
end

