-- ==== Sys2Proof/Laws/Memory.lean ====
section
/-! SUPPORT. Laws of keyed lists and of the bytes of memory: what is read after a write, and the canonical form. -/

namespace Sys2Proof

variable {V : Type}

/-! ## Keyed lists -/

theorem AMap.find?_insert_self (m : AMap V) (k : Nat) (v : V) : (AMap.insert m k v).find? k = some v := by
  induction m with
  | nil => simp [AMap.insert, AMap.find?]
  | cons p rest ih =>
    obtain ⟨j, w⟩ := p
    simp only [AMap.insert]
    split
    · simp [AMap.find?]
    · split
      · simp [AMap.find?]
      · rename_i h; simp [AMap.find?, h, ih]

theorem AMap.find?_insert_ne (m : AMap V) {k j : Nat} (v : V) (h : j ≠ k) :
    (AMap.insert m k v).find? j = m.find? j := by
  induction m with
  | nil => simp [AMap.insert, AMap.find?, Ne.symm h]
  | cons p rest ih =>
    obtain ⟨i, w⟩ := p
    simp only [AMap.insert]
    split
    · simp [AMap.find?, Ne.symm h]
    · split
      · rename_i hik; subst hik; simp [AMap.find?, Ne.symm h]
      · simp [AMap.find?, ih]

theorem AMap.find?_modify (m : AMap V) (k j : Nat) (f : V → V) :
    (AMap.modify m k f).find? j = if j = k then (m.find? j).map f else m.find? j := by
  induction m with
  | nil => simp [AMap.modify, AMap.find?]
  | cons p rest ih =>
    obtain ⟨i, w⟩ := p
    simp only [AMap.modify, List.map_cons] at ih ⊢
    by_cases hik : i = k
    · subst hik
      by_cases hij : i = j
      · subst hij; simp [AMap.find?]
      · simp only [if_true, AMap.find?, hij, if_false]
        exact ih
    · by_cases hij : i = j
      · subst hij; simp [AMap.find?, hik]
      · simp only [hik, if_false, AMap.find?, hij]
        exact ih

theorem AMap.find?_filter (m : AMap V) (f : Nat → Bool) (j : Nat) :
    AMap.find? (m.filter (fun p => f p.1)) j = if f j then m.find? j else none := by
  induction m with
  | nil => simp [AMap.find?]
  | cons p rest ih =>
    obtain ⟨i, w⟩ := p
    by_cases hf : f i
    · by_cases hij : i = j
      · subst hij; simp [AMap.find?, hf]
      · simp [AMap.find?, hf, hij, ih]
    · by_cases hij : i = j
      · subst hij; simp [hf] at ih ⊢; exact ih
      · simp [AMap.find?, hf, hij, ih]

theorem AMap.find?_remove (m : AMap V) (k j : Nat) :
    (AMap.remove m k).find? j = if j = k then none else m.find? j := by
  have h := AMap.find?_filter m (fun x => x != k) j
  simp only [AMap.remove, h, bne_iff_ne, ne_eq]
  by_cases hj : j = k <;> simp [hj]

/-! ## Strictly rising keys -/

theorem AMap.rising_iff (m : AMap V) : m.rising = true ↔ m.Pairwise (fun a b => a.1 < b.1) := by
  induction m with
  | nil => simp [AMap.rising]
  | cons p rest ih =>
    obtain ⟨j, v⟩ := p
    cases rest with
    | nil => simp [AMap.rising]
    | cons q rest =>
      obtain ⟨k, w⟩ := q
      simp only [AMap.rising, Bool.and_eq_true, decide_eq_true_eq, ih, List.pairwise_cons, List.mem_cons, forall_eq_or_imp]
      constructor
      · rintro ⟨h, h1, h2⟩
        exact ⟨⟨h, fun x hx => Nat.lt_trans h (h1 x hx)⟩, h1, h2⟩
      · rintro ⟨⟨h, -⟩, h1, h2⟩
        exact ⟨h, h1, h2⟩

theorem AMap.rising_filter (m : AMap V) (f : Nat × V → Bool) (h : m.rising = true) : AMap.rising (m.filter f) = true := by
  rw [AMap.rising_iff] at h ⊢
  exact h.filter f

theorem AMap.mem_insert (m : AMap V) (k : Nat) (v : V) (p : Nat × V) (h : p ∈ AMap.insert m k v) : p = (k, v) ∨ p ∈ m := by
  induction m with
  | nil => simpa [AMap.insert] using h
  | cons q rest ih =>
    obtain ⟨j, w⟩ := q
    simp only [AMap.insert] at h
    split at h
    · simpa using h
    · split at h
      · simp only [List.mem_cons] at h ⊢; exact h.elim Or.inl (fun h => Or.inr (Or.inr h))
      · simp only [List.mem_cons] at h ⊢
        rcases h with h | h
        · exact Or.inr (Or.inl h)
        · rcases ih h with h | h
          · exact Or.inl h
          · exact Or.inr (Or.inr h)

theorem AMap.rising_insert (m : AMap V) (k : Nat) (v : V) (h : m.rising = true) : (AMap.insert m k v).rising = true := by
  rw [AMap.rising_iff] at h ⊢
  induction m with
  | nil => simp [AMap.insert]
  | cons q rest ih =>
    obtain ⟨j, w⟩ := q
    simp only [List.pairwise_cons] at h
    simp only [AMap.insert]
    split
    · rename_i hk
      simp only [List.pairwise_cons, List.mem_cons, forall_eq_or_imp]
      exact ⟨⟨hk, fun x hx => Nat.lt_trans hk (h.1 x hx)⟩, h.1, h.2⟩
    · split
      · rename_i hk; subst hk
        simp only [List.pairwise_cons]; exact h
      · rename_i hk hj
        simp only [List.pairwise_cons]
        refine ⟨fun x hx => ?_, ih h.2⟩
        rcases AMap.mem_insert rest k v x hx with rfl | hx
        · show j < k; omega
        · exact h.1 x hx

theorem AMap.rising_modify (m : AMap V) (k : Nat) (f : V → V) (h : m.rising = true) : (AMap.modify m k f).rising = true := by
  rw [AMap.rising_iff] at h ⊢
  simp only [AMap.modify, List.pairwise_map]
  refine h.imp (fun {a b} hab => ?_)
  by_cases ha : a.1 = k <;> by_cases hb : b.1 = k <;> simp_all

namespace Machine

/-! ## Bytes -/

theorem readByte_writeByte_self (m : AMap Byte) (a : Nat) (b : Byte) : readByte (writeByte m a b) a = b := by
  unfold readByte writeByte AMap.getD
  split
  · rename_i h; simp [AMap.find?_remove, h]
  · simp [AMap.find?_insert_self]

theorem readByte_writeByte_ne (m : AMap Byte) {a c : Nat} (b : Byte) (h : c ≠ a) :
    readByte (writeByte m a b) c = readByte m c := by
  unfold readByte writeByte AMap.getD
  split
  · simp [AMap.find?_remove, h]
  · simp [AMap.find?_insert_ne m b h]

theorem readByte_writeBytes_outside (bs : List Byte) (m : AMap Byte) (a c : Nat) (h : c < a ∨ a + bs.length ≤ c) :
    readByte (writeBytes m a bs) c = readByte m c := by
  induction bs generalizing m a with
  | nil => rfl
  | cons b rest ih =>
    simp only [writeBytes, List.length_cons] at h ⊢
    rw [ih _ _ (by omega), readByte_writeByte_ne _ _ (by omega)]

theorem readByte_writeBytes_inside (bs : List Byte) (m : AMap Byte) (a i : Nat) (h : i < bs.length) :
    readByte (writeBytes m a bs) (a + i) = bs[i] := by
  induction bs generalizing m a i with
  | nil => simp at h
  | cons b rest ih =>
    cases i with
    | zero =>
      simp only [writeBytes, Nat.add_zero, List.getElem_cons_zero]
      rw [readByte_writeBytes_outside _ _ _ _ (by omega), readByte_writeByte_self]
    | succ i =>
      simp only [writeBytes, List.getElem_cons_succ]
      have := ih (writeByte m a b) (a + 1) i (by simpa using h)
      rwa [show a + (i + 1) = a + 1 + i by omega]

/-! ## The canonical form -/

@[simp] theorem memoryWf_writeByte (m : AMap Byte) (a : Nat) (b : Byte) (h : memoryWf m = true) : memoryWf (writeByte m a b) = true := by
  unfold memoryWf at h ⊢
  simp only [Bool.and_eq_true, List.all_eq_true, bne_iff_ne, ne_eq] at h ⊢
  unfold writeByte
  split
  · exact ⟨AMap.rising_filter _ _ h.1, fun p hp => h.2 p (List.mem_filter.mp hp).1⟩
  · rename_i hb
    refine ⟨AMap.rising_insert _ _ _ h.1, fun p hp => ?_⟩
    rcases AMap.mem_insert _ _ _ _ hp with rfl | hp
    · exact hb
    · exact h.2 p hp

@[simp] theorem memoryWf_writeBytes (bs : List Byte) (m : AMap Byte) (a : Nat) (h : memoryWf m = true) :
    memoryWf (writeBytes m a bs) = true := by
  induction bs generalizing m a with
  | nil => exact h
  | cons b rest ih => exact ih _ _ (memoryWf_writeByte _ _ _ h)

@[simp] theorem memoryWf_writeLE (m : AMap Byte) (a n v : Nat) (h : memoryWf m = true) : memoryWf (writeLE m a n v) = true :=
  memoryWf_writeBytes _ _ _ h

@[simp] theorem memoryWf_filter (m : AMap Byte) (f : Nat × Byte → Bool) (h : memoryWf m = true) : memoryWf (m.filter f) = true := by
  unfold memoryWf at h ⊢
  simp only [Bool.and_eq_true, List.all_eq_true] at h ⊢
  exact ⟨AMap.rising_filter _ _ h.1, fun p hp => h.2 p (List.mem_filter.mp hp).1⟩

@[simp] theorem memoryWf_dropRange (m : AMap Byte) (lo hi : Nat) (h : memoryWf m = true) : memoryWf (m.dropRange lo hi) = true :=
  memoryWf_filter _ _ h

end Machine

end Sys2Proof
end

