-- ==== Sys2Proof/Laws/Kept.lean ====
section
/-! SUPPORT. What the shared operations do to memory: those that leave it as it is, and that the others keep its canonical form. -/

namespace Sys2Proof.Machine

/-! ## Operations that leave memory as it is -/

theorem foldl_mem {α : Type} (f : State → α → State) (h : ∀ s a, (f s a).mem = s.mem) (l : List α) (s : State) :
    (l.foldl f s).mem = s.mem := by
  induction l generalizing s with
  | nil => rfl
  | cons a l ih => rw [List.foldl_cons, ih, h]

@[simp] theorem State.respond_mem (s : State) (port : Bool) (req resp : List Byte) : (State.respond s port req resp).mem = s.mem := rfl

@[simp] theorem State.answer_mem (s : State) (port : Bool) (code : Nat) (req : List Byte) :
    (State.answer s port code req).mem = s.mem := rfl

@[simp] theorem State.answerCore_mem (s : State) (k : Nat) (v : Word) : (State.answerCore s k v).mem = s.mem := by
  simp only [State.answerCore]
  (repeat' split) <;> first | rfl | simp

@[simp] theorem State.applyIdlePends_mem (s : State) (slots : List Nat) : (State.applyIdlePends s slots).mem = s.mem := rfl

@[simp] theorem State.applyPends_mem (s : State) (g : Nat) : (State.applyPends s g).mem = s.mem := rfl

@[simp] theorem State.commitLife_mem (s : State) : (State.commitLife s).mem = s.mem := rfl

@[simp] theorem State.countMix_mem (s : State) : (State.countMix s).mem = s.mem := by
  unfold State.countMix
  (repeat' split) <;> first | rfl | simp

@[simp] theorem State.setAvail_mem (s : State) (slot : Nat) (w : BitVec 32) : (State.setAvail s slot w).mem = s.mem := rfl

@[simp] theorem State.setMix_mem (s : State) (slot : Nat) (w : BitVec 32) : (State.setMix s slot w).mem = s.mem := by
  unfold State.setMix
  dsimp only
  split <;> rfl

@[simp] theorem State.loseUnit_mem (s : State) (u : Nat) : (State.loseUnit s u).mem = s.mem := by
  simp only [State.loseUnit]
  (repeat' split) <;> first | rfl | simp

@[simp] theorem State.nominalArrays_mem (s : State) (u : Nat) : (State.nominalArrays s u).mem = s.mem := rfl

@[simp] theorem State.setLife_mem (s : State) (u : Nat) (l : UnitLife) : (State.setLife s u l).mem = s.mem := rfl

@[simp] theorem State.changeCell_mem (s : State) (u st cause : Nat) : (State.changeCell s u st cause).mem = s.mem := by
  simp only [State.changeCell]
  (repeat' split) <;> first | rfl | simp

@[simp] theorem State.hideRetired_mem (s : State) : (State.hideRetired s).mem = s.mem := by
  unfold State.hideRetired
  exact foldl_mem _ (fun s a => by (repeat' split) <;> first | rfl | simp) _ _

@[simp] theorem State.setCmd_mem (s : State) (key : Nat) (x : Cmd) : (State.setCmd s key x).mem = s.mem := rfl

@[simp] theorem State.claimTile_mem (s : State) (key : Nat) (x : Cmd) (t : Nat) : (State.claimTile s key x t).mem = s.mem := by
  unfold State.claimTile
  (repeat' split) <;> first | rfl | simp

@[simp] theorem State.closeStay_mem (s : State) (g unit : Nat) : (State.closeStay s g unit).mem = s.mem := rfl

@[simp] theorem State.closeStays_mem (s : State) (g : Nat) : (State.closeStays s g).mem = s.mem := rfl

@[simp] theorem State.commandDone_mem (s : State) (op : Nat) (addr : Word) (code : Nat) :
    (State.commandDone s op addr code).mem = s.mem := rfl

@[simp] theorem State.completeCmd_mem (s : State) (l handle status : Nat) : (State.completeCmd s l handle status).mem = s.mem := rfl

@[simp] theorem State.setArray_mem (s : State) (u a : Nat) (x : ArrayState) : (State.setArray s u a x).mem = s.mem := rfl

@[simp] theorem State.countError_mem (s : State) (u a : Nat) : (State.countError s u a).mem = s.mem := by
  unfold State.countError
  (repeat' split) <;> first | rfl | simp

@[simp] theorem State.countFp_mem (s : State) (key n : Nat) : (State.countFp s key n).mem = s.mem := by
  simp only [State.countFp]
  (repeat' split) <;> first | rfl | simp

@[simp] theorem State.countEvents_mem (s : State) (key : Nat) (es : List FpEvent) : (State.countEvents s key es).mem = s.mem := by
  unfold State.countEvents
  exact foldl_mem _ (fun s a => by (repeat' split) <;> first | rfl | simp) _ _

@[simp] theorem State.countStore_mem (s : State) (w : Store) : (State.countStore s w).mem = s.mem := by
  unfold State.countStore
  (repeat' split) <;> first | rfl | simp

@[simp] theorem State.setASeq_mem (s : State) (ag : Agent) (a : ASeq) : (State.setASeq s ag a).mem = s.mem := by
  unfold State.setASeq
  (repeat' split) <;> first | rfl | simp

@[simp] theorem State.dropAccess_mem (s : State) (ag : Agent) (id : Nat) : (State.dropAccess s ag id).mem = s.mem := by
  unfold State.dropAccess
  (repeat' split) <;> first | rfl | simp

@[simp] theorem State.dropClaims_mem (s : State) (key : Nat) (x : Cmd) : (State.dropClaims s key x).mem = s.mem := by
  unfold State.dropClaims
  exact foldl_mem _ (fun s a => by (repeat' split) <;> first | rfl | simp) _ _

@[simp] theorem State.endProgram_mem (s : State) (k : Nat) (status : Nat) (hcode : BitVec 16) :
    (State.endProgram s k status hcode).mem = s.mem := by
  simp only [State.endProgram]
  (repeat' split) <;> first | rfl | simp

@[simp] theorem State.endWaggle_mem (s : State) (loc status : Nat) : (State.endWaggle s loc status).mem = s.mem := rfl

@[simp] theorem State.exitA_mem (s : State) (ag : Agent) (q : ASeq) (size : Nat) : (State.exitA s ag q size).mem = s.mem := by
  unfold State.exitA
  (repeat' split) <;> first | rfl | simp

@[simp] theorem State.finish_mem (s : State) (ag : Agent) (a : ASeq) (size : Nat) : (State.finish s ag a size).mem = s.mem := by
  unfold State.finish
  (repeat' split) <;> first | rfl | simp

@[simp] theorem State.resumeCore_mem (s : State) (k : Nat) (d : BitVec 5) (v : Word) : (State.resumeCore s k d v).mem = s.mem := rfl

@[simp] theorem State.finishPtupd_mem (s : State) (p : Nat) : (State.finishPtupd s p).mem = s.mem := by
  simp only [State.finishPtupd]
  (repeat' split) <;> first | rfl | simp

@[simp] theorem State.passTiles_mem (s : State) (key : Nat) (x : Cmd) (done : List TagSpan) (later : Nat → Bool) :
    (State.passTiles s key x done later).1.mem = s.mem := by
  unfold State.passTiles
  generalize spansTiles done = l
  suffices h : ∀ acc : State × Cmd, acc.1.mem = s.mem → (l.foldl (fun acc t =>
      if acc.2.passed.contains t.1 || later t.1 then acc
      else
        let s := match acc.1.tileLoc key t.1 with
          | some l => acc.1.setTag l t.2 false
          | none => acc.1
        (s, { acc.2 with passed := acc.2.passed ++ [t.1] })) acc).1.mem = s.mem from h _ rfl
  induction l with
  | nil => exact fun _ h => h
  | cons t l ih =>
    intro acc h
    rw [List.foldl_cons]
    apply ih
    split
    · exact h
    · dsimp only
      split <;> simp [h]

@[simp] theorem State.flitError_mem (s : State) (link : Nat) : (State.flitError s link).mem = s.mem := by
  simp only [State.flitError]
  (repeat' split) <;> first | rfl | simp

@[simp] theorem State.writeQueueOwner_mem (s : State) (n p : Nat) (port : Bool) : (State.writeQueueOwner s n p port).mem = s.mem := rfl

@[simp] theorem State.giveQueues_mem (s : State) (p : Nat) (l : Layout) : (State.giveQueues s p l).mem = s.mem := by
  unfold State.giveQueues
  exact foldl_mem _ (fun s a => by (repeat' split) <;> first | rfl | simp) _ _

@[simp] theorem State.free_mem (s : State) : (State.free s).2.mem = s.mem := rfl

@[simp] theorem State.idleX_mem (s : State) (key : Nat) : (State.idleX s key).mem = s.mem := rfl

@[simp] theorem State.inject_mem (s : State) (key t : Nat) : (State.inject s key t).mem = s.mem := by
  simp only [State.inject]
  (repeat' split) <;> first | rfl | simp

@[simp] theorem State.issueSync_mem (s : State) (ag : Agent) (q : ASeq) (kind : AccessKind) (o : Nat) (first : BitVec 32) :
    (State.issueSync s ag q kind o first).mem = s.mem := by
  unfold State.issueSync
  dsimp only
  (repeat' split) <;> first | rfl | simp

@[simp] theorem State.leaveUnit_mem (s : State) (u : Nat) : (State.leaveUnit s u).mem = s.mem := by
  unfold State.leaveUnit
  (repeat' split) <;> first | rfl | simp

@[simp] theorem State.modCmd_mem (s : State) (l handle : Nat) (f : StreamCmd → StreamCmd) : (State.modCmd s l handle f).mem = s.mem := rfl

@[simp] theorem State.modGangCells_mem (s : State) (g : Nat) (f : Cell → Cell) : (State.modGangCells s g f).mem = s.mem := rfl

@[simp] theorem State.queueError_mem (s : State) (n : Nat) : (State.queueError s n).mem = s.mem := rfl

@[simp] theorem State.setQueue_mem (s : State) (n : Nat) (q : Queue) : (State.setQueue s n q).mem = s.mem := rfl

@[simp] theorem State.observeTail_mem (s : State) (n : Nat) (tail : BitVec 32) : (State.observeTail s n tail).mem = s.mem := by
  simp only [State.observeTail]
  (repeat' split) <;> first | rfl | simp

@[simp] theorem State.openStays_mem (s : State) (g : Nat) (b : Word) : (State.openStays s g b).mem = s.mem := rfl

@[simp] theorem State.orphanMirrors_mem (s : State) (p : Nat) (mine : MirrorOwner → Bool) :
    (State.orphanMirrors s p mine).mem = s.mem := rfl

@[simp] theorem State.poisonAt_mem (s : State) (ls : List (Option Nat × Nat)) (off : Nat) : (State.poisonAt s ls off).mem = s.mem := by
  unfold State.poisonAt
  (repeat' split) <;> first | rfl | simp

@[simp] theorem State.quotaErr_mem (s : State) (p : Nat) : (State.quotaErr s p).mem = s.mem := rfl

@[simp] theorem State.releaseCores_mem (s : State) (p : Nat) : (State.releaseCores s p).mem = s.mem := by
  unfold State.releaseCores
  exact foldl_mem _ (fun s a => by (repeat' split) <;> first | rfl | simp) _ _

@[simp] theorem State.retireX_mem (s : State) (key : Nat) (c : Cell) (size : Nat) : (State.retireX s key c size).mem = s.mem := rfl

@[simp] theorem State.sendMirror_mem (s : State) (p : Nat) (owner : MirrorOwner) (ea loc : Nat) (bs : List Byte) :
    (State.sendMirror s p owner ea loc bs).mem = s.mem := by
  unfold State.sendMirror
  dsimp only
  split <;> rfl

@[simp] theorem State.setAccess_mem (s : State) (ag : Agent) (x : Access) : (State.setAccess s ag x).mem = s.mem := by
  unfold State.setAccess
  (repeat' split) <;> first | rfl | simp

@[simp] theorem State.setDndf_mem (s : State) (ag : Agent) (v : Bool) : (State.setDndf s ag v).mem = s.mem := by
  unfold State.setDndf
  (repeat' split) <;> first | rfl | simp

@[simp] theorem State.setHeld_mem (s : State) (p : Nat) (r : TrapRecord) (h : Bool) : (State.setHeld s p r h).mem = s.mem := by
  unfold State.setHeld
  (repeat' split) <;> first | rfl | simp

@[simp] theorem State.setTags_mem (s : State) (loc : Nat) (v : Bool) (x0 : Nat) : (State.setTags s loc v x0).mem = s.mem := by
  induction x0 generalizing s loc with
  | zero => rfl
  | succ n ih => rw [State.setTags, ih]; simp

@[simp] theorem State.stopPartition_mem (s : State) (p : Nat) (cause : Nat) (r : TrapRecord) :
    (State.stopPartition s p cause r).mem = s.mem := by
  simp only [State.stopPartition]
  (repeat' split) <;> first | rfl | simp

@[simp] theorem State.stopPackage_mem (s : State) (r : TrapRecord) : (State.stopPackage s r).mem = s.mem := by
  simp only [State.stopPackage, State.interrupt_mem]
  exact foldl_mem _ (fun s p => by split <;> simp) _ _

@[simp] theorem State.raiseTrap_mem (s : State) (ag : Agent) (kind code : Nat) (cls : TrapClass) (info addr : Word) (eng : Bool) :
    (State.raiseTrap s ag kind code cls info addr eng).mem = s.mem := by
  unfold State.raiseTrap
  dsimp only
  (repeat' split) <;> simp

@[simp] theorem State.streamMirror_mem (s : State) (p l handle : Nat) (dst : Word) (ls : List (Option Nat × Nat)) (bs : List Byte) : (State.streamMirror s p l handle dst ls bs).mem = s.mem := by
  unfold State.streamMirror
  (repeat' split) <;> first | rfl | simp

@[simp] theorem State.timeRead_mem (s : State) (ag : Agent) (q : ASeq) (d : BitVec 5) (exposes : Bool) (v : Word) :
    (State.timeRead s ag q d exposes v).mem = s.mem := by
  unfold State.timeRead
  (repeat' split) <;> first | rfl | simp

@[simp] theorem State.writeFrame_mem (s : State) (key w : Nat) (v : Word) : (State.writeFrame s key w v).mem = s.mem := by
  unfold State.writeFrame
  (repeat' split) <;> first | rfl | simp

@[simp] theorem State.writeReg_mem (s : State) (ag : Agent) (d : BitVec 5) (v : Word) : (State.writeReg s ag d v).mem = s.mem := by
  unfold State.writeReg
  (repeat' split) <;> first | rfl | simp

@[simp] theorem State.writeWqcfg_mem (s : State) (root : Bool) (n : Nat) (v : Word) : (State.writeWqcfg s root n v).mem = s.mem := rfl

/-! ## Operations that keep the canonical form -/

theorem foldl_wf {α : Type} (f : State → α → State) (h : ∀ s a, memoryWf s.mem = true → memoryWf (f s a).mem = true) (l : List α)
    (s : State) (hs : memoryWf s.mem = true) : memoryWf (l.foldl f s).mem = true := by
  induction l generalizing s with
  | nil => exact hs
  | cons a l ih => exact ih _ (h s a hs)

@[simp] theorem State.putBytes_wf (s : State) (loc : Nat) (bs : List Byte) (h : memoryWf s.mem = true) :
    memoryWf (State.putBytes s loc bs).mem = true := by
  unfold State.putBytes
  (repeat' split) <;> simp [h]

@[simp] theorem State.writePlaces_wf (s : State) (x0 : List (Option Nat × Nat)) (x1 : List Byte) (h :
    memoryWf s.mem = true) : memoryWf (State.writePlaces s x0 x1).mem = true := by
  induction x0 generalizing s x1 with
  | nil => simpa [State.writePlaces] using h
  | cons a l ih =>
    obtain ⟨_ | p, n⟩ := a
    · exact ih _ _ h
    · exact ih _ _ (by simp [h])

@[simp] theorem State.writeRecord_wf (s : State) (p : Nat) (r : TrapRecord) (h : memoryWf s.mem = true) :
    memoryWf (State.writeRecord s p r).mem = true := by
  unfold State.writeRecord
  dsimp only
  (repeat' split) <;> simp [h]

@[simp] theorem State.deliver_wf (s : State) (p : Nat) (r : TrapRecord) (h : memoryWf s.mem = true) :
    memoryWf (State.deliver s p r).mem = true := by
  unfold State.deliver
  dsimp only
  (repeat' split) <;> simp [h]

@[simp] theorem State.machineCheck_wf (s : State) (ag : Agent) (code : Nat) (cls : TrapClass) (info addr : Word) (h :
    memoryWf s.mem = true) : memoryWf (State.machineCheck s ag code cls info addr).mem = true := by
  unfold State.machineCheck
  (repeat' split) <;> simp [h]

@[simp] theorem State.accessPoison_wf (s : State) (ag : Agent) (x : Access) (h : memoryWf s.mem = true) :
    memoryWf (State.accessPoison s ag x).mem = true := by
  unfold State.accessPoison
  (repeat' split) <;> simp [h]

@[simp] theorem State.dropRo_mem (s : State) (slot loc len : Nat) : (State.dropRo s slot loc len).mem = s.mem := rfl

@[simp] theorem State.acknowledge_mem (s : State) (p : Nat) : (State.acknowledge s p).mem = s.mem := by
  unfold State.acknowledge
  dsimp only
  (repeat' split) <;> simp

@[simp] theorem State.acknowledge_wf (s : State) (p : Nat) (h : memoryWf s.mem = true) : memoryWf (State.acknowledge s p).mem = true := by
  rw [State.acknowledge_mem]; exact h

@[simp] theorem State.addCharge_wf (s : State) (p : Nat) (ctx : Option Nat) (w : Word) (h : memoryWf s.mem = true) :
    memoryWf (State.addCharge s p ctx w).mem = true := by
  unfold State.addCharge
  dsimp only
  (repeat' split) <;> simp [h]

@[simp] theorem State.clearSlice_wf (s : State) (u size : Nat) (h : memoryWf s.mem = true) :
    memoryWf (State.clearSlice s u size).mem = true := by
  unfold State.clearSlice
  (repeat' split) <;> simp [h]

@[simp] theorem State.clearBuffers_wf (s : State) (l : Layout) (h : memoryWf s.mem = true) :
    memoryWf (State.clearBuffers s l).mem = true := by
  unfold State.clearBuffers
  exact foldl_wf _ (fun s a h => by simp [h]) _ _ h

@[simp] theorem State.form_wf (s : State) (p : Nat) (l : Layout) (h : memoryWf s.mem = true) : memoryWf (State.form s p l).mem = true := by
  unfold State.form
  rw [State.giveQueues_mem, foldl_mem _ (fun s k => by split <;> rfl)]
  simp [h]

@[simp] theorem State.clearCellSlice_wf (s : State) (c : Cell) (h : memoryWf s.mem = true) :
    memoryWf (State.clearCellSlice s c).mem = true := by
  unfold State.clearCellSlice
  (repeat' split) <;> simp [h]

@[simp] theorem State.freeGang_wf (s : State) (g : Nat) (h : memoryWf s.mem = true) : memoryWf (State.freeGang s g).mem = true := by
  unfold State.freeGang
  simp only [State.orphanMirrors_mem]
  exact foldl_wf _ (fun s p h => by split <;> simp [h]) _ _ h

@[simp] theorem State.dropGangClaims_mem (s : State) (g : Nat) : (State.dropGangClaims s g).mem = s.mem := by
  unfold State.dropGangClaims
  exact foldl_mem _ (fun s p => foldl_mem _ (fun s x => by simp) _ _) _ _

@[simp] theorem State.postCharge_wf (s : State) (g : Nat) (h : memoryWf s.mem = true) : memoryWf (State.postCharge s g).mem = true := by
  unfold State.postCharge
  (repeat' split) <;> simp [h]

@[simp] theorem State.restoredExit_wf (s : State) (g : Nat) (gg : Gang) (status : Nat) (h : memoryWf s.mem = true) :
    memoryWf (State.restoredExit s g gg status).mem = true := by
  unfold State.restoredExit
  (repeat' split) <;> simp [h]

@[simp] theorem State.endGang_wf (s : State) (g : Nat) (status : Nat) (h : memoryWf s.mem = true) :
    memoryWf (State.endGang s g status).mem = true := by
  unfold State.endGang
  split
  · exact h
  · apply State.freeGang_wf
    split
    · simp [h]
    · split <;> simp [h]

@[simp] theorem State.discardGang_wf (s : State) (g : Nat) (status : Nat) (h : memoryWf s.mem = true) :
    memoryWf (State.discardGang s g status).mem = true := by
  unfold State.discardGang
  have e : ((s.gangCells g).foldl (fun s p => s.modCell p.1 Cell.dropReplay) s).mem = s.mem := foldl_mem _ (fun s a => by simp) _ _
  (repeat' split) <;> simp [h, e]

@[simp] theorem State.cancelCmd_wf (s : State) (l : Nat) (c : StreamCmd) (h : memoryWf s.mem = true) :
    memoryWf (State.cancelCmd s l c).mem = true := by
  unfold State.cancelCmd
  (repeat' split) <;> simp [h]

@[simp] theorem State.cancelLaunch_wf (s : State) (l : Nat) (h : memoryWf s.mem = true) :
    memoryWf (State.cancelLaunch s l).mem = true := by
  unfold State.cancelLaunch
  (repeat' split) <;> first | exact h | exact foldl_wf _ (fun s a h => by (repeat' split) <;> simp [h]) _ _ (by
  simp [h])

@[simp] theorem State.chargeStay_wf (s : State) (inc : Word) (r : Nat) (x : Stay) (h : memoryWf s.mem = true) :
    memoryWf (State.chargeStay s inc r x).mem = true := by
  unfold State.chargeStay
  extract_lets w s'
  have e : memoryWf s'.mem = true := by
    unfold s'
    split <;> simp [h]
  clear_value s' w
  split
  · rw [State.modGang_mem]; exact e
  · exact State.addCharge_wf _ _ _ _ e

@[simp] theorem State.chargeStays_wf (s : State) (stop inc : Word) (xs : List Stay) (h : memoryWf s.mem = true) :
    memoryWf (State.chargeStays s stop inc xs).mem = true := by
  unfold State.chargeStays
  exact foldl_wf _ (fun s a h => by simp [h]) _ _ h

@[simp] theorem State.checkEvent_mem (s : State) (p code : Nat) (addr info : Word) : (State.checkEvent s p code addr info).mem = s.mem := by
  unfold State.checkEvent
  extract_lets t
  exact (foldl_mem (fun (s : State) b => s.interrupt b (4 * p + 3) 0) (fun s a => rfl) (t.portsOf p) t).trans (State.report_mem _ _ _)

@[simp] theorem State.checkEvents_mem (s : State) (f : Layout → Bool) (code : Nat) (addr info : Word) :
    (State.checkEvents s f code addr info).mem = s.mem := by
  unfold State.checkEvents
  exact foldl_mem _ (fun s a => by split <;> simp) _ _

theorem State.engWrite_mirror_mem (s : State) (key id a : Nat) (ls : List (Option Nat × Nat)) (bs : List Byte) :
    (State.engWrite.mirror key id s a ls bs).mem = s.mem := by
  induction ls generalizing s a bs with
  | nil => rfl
  | cons x l ih =>
    obtain ⟨_ | p, n⟩ := x
    · exact ih _ _ _
    · exact (ih _ _ _).trans (by simp)


@[simp] theorem State.engWrite_wf (s : State) (key id addr : Nat) (ls : List (Option Nat × Nat)) (bs : List Byte) (h :
    memoryWf s.mem = true) : memoryWf (State.engWrite s key id addr ls bs).mem = true := by
  unfold State.engWrite
  have e : memoryWf (ls.foldl (fun s p => match p.1 with
      | some l => s.dropRo (s.agentSlot (.aseq key)) l p.2
      | none => s) (s.writePlaces ls bs)).mem = true :=
    foldl_wf _ (fun s a h => by split <;> simp [h]) _ _ (by simp [h])
  dsimp only
  split
  · exact e
  · rw [State.engWrite_mirror_mem]; exact e

theorem Eng.bind_eq_ok {α β : Type} {x : Eng α} {f : α → Eng β} {b : β} (h : x.bind f = .ok b) :
    ∃ a, x = .ok a ∧ f a = .ok b := by
  cases x with
  | ok a => exact ⟨a, rfl, h⟩
  | fail n => simp [Eng.bind] at h
  | fault o a c => simp [Eng.bind] at h

theorem Eng.map_eq_ok {α β : Type} {x : Eng α} {f : α → β} {b : β} (h : x.map f = .ok b) : ∃ a, x = .ok a ∧ f a = b := by
  cases x with
  | ok a => exact ⟨a, rfl, by simpa [Eng.map] using h⟩
  | fail n => simp [Eng.map] at h
  | fault o a c => simp [Eng.map] at h

theorem writeGroup_wf (s : State) (key id opnd : Nat) (ws : List (Nat × List Byte)) (h :
    memoryWf s.mem = true) (t : State) (e : writeGroup s key id opnd ws = .ok t) : memoryWf t.mem = true := by
  unfold writeGroup at e
  obtain ⟨ls, -, rfl⟩ := Eng.map_eq_ok e
  exact foldl_wf _ (fun s a h => by simp [h]) _ _ h

@[simp] theorem State.combineLane_wf (s : State) (key : Nat) (x : Cmd) (l : Lane) (h : memoryWf s.mem = true) :
    memoryWf (State.combineLane s key x l).1.mem = true := by
  unfold State.combineLane
  dsimp only
  generalize List.range l.count = es
  suffices H : ∀ acc : State × Option Nat, memoryWf acc.1.mem = true → memoryWf (es.foldl _ acc).1.mem = true from H _ h
  induction es with
  | nil => exact fun _ h => h
  | cons e es ih =>
    intro acc h
    rw [List.foldl_cons]
    apply ih
    split
    · exact h
    · split
      · rename_i e
        obtain ⟨v, -, e⟩ := Eng.bind_eq_ok e
        exact writeGroup_wf _ _ _ _ _ h _ e
      · exact h
      · exact h

@[simp] theorem State.closeLane_wf (s : State) (key k : Nat) (h : memoryWf s.mem = true) :
    memoryWf (State.closeLane s key k).mem = true := by
  unfold State.closeLane
  dsimp only
  (repeat' split) <;> simp [h]

@[simp] theorem State.releaseAll_wf (s : State) (key : Nat) (os : List Nat) (h : memoryWf s.mem = true) :
    memoryWf (State.releaseAll s key os).mem = true := by
  unfold State.releaseAll
  exact foldl_wf _ (fun s a h => by (repeat' split) <;> simp [h]) _ _ h

@[simp] theorem State.completeEngine_wf (s : State) (key : Nat) (x : Cmd) (h : memoryWf s.mem = true) :
    memoryWf (State.completeEngine s key x).mem = true := by
  unfold State.completeEngine
  dsimp only
  rw [State.modCell_mem]
  split <;> simp [h]

@[simp] theorem State.dropGang_wf (s : State) (g : Nat) (h : memoryWf s.mem = true) : memoryWf (State.dropGang s g).mem = true := by
  unfold State.dropGang
  (repeat' split) <;> simp [h]

@[simp] theorem State.resumeGang_wf (s : State) (g : Nat) (h : memoryWf s.mem = true) : memoryWf (State.resumeGang s g).mem = true := by
  unfold State.resumeGang
  (repeat' split) <;> first | exact h | exact foldl_wf _ (fun s a h => by (repeat' split) <;> simp [h]) _ _ (by
  simp [h])

@[simp] theorem State.goOn_wf (s : State) (g : Nat) (h : memoryWf s.mem = true) : memoryWf (State.goOn s g).mem = true :=
  State.resumeGang_wf _ _ h

@[simp] theorem State.settleDoom_wf (s : State) (g : Option Nat) (h : memoryWf s.mem = true) :
    memoryWf (State.settleDoom s g).mem = true := by
  unfold State.settleDoom
  (repeat' split) <;> simp [h]

@[simp] theorem State.writeImage_wf (s : State) (ls : List (Option Nat × Nat)) (img : AMap Byte) (h :
    memoryWf s.mem = true) : memoryWf (State.writeImage s ls img).mem = true := by
  unfold State.writeImage
  refine foldl_wf _ (fun s p h => ?_) _ _ h
  dsimp only
  generalize AMap.window _ _ _ = m
  have h0 := memoryWf_dropRange s.mem p.2.1 (p.2.1 + p.2.2) h
  revert h0
  generalize s.mem.dropRange p.2.1 (p.2.1 + p.2.2) = m0
  intro h0
  induction m generalizing m0 with
  | nil => exact h0
  | cons b m ih => exact ih _ (memoryWf_writeByte _ _ _ h0)

@[simp] theorem State.completeSave_wf (s : State) (p : Nat) (v : Save) (h : memoryWf s.mem = true) :
    memoryWf (State.completeSave s p v).mem = true := by
  unfold State.completeSave
  dsimp only
  split
  · simp [h]
  · split
    · rw [State.answerCore_mem]
      split <;> simp [h]
    · have e : ∀ (l : List Nat) (s : State) ls, (l.foldl (fun s off => s.poisonAt ls off) s).mem = s.mem :=
        fun l s ls => foldl_mem _ (fun s x => by simp) _ _
      split
      · rw [State.answerCore_mem]
        split <;> simp [h]
      · rw [State.answerCore_mem]
        exact State.dropGang_wf _ _ (by simp [h, e])

@[simp] theorem State.writeCompletion_wf (s : State) (p : Nat) (port : Bool) (n : Nat) (crec : Word) (v : Nat) (h :
    memoryWf s.mem = true) : memoryWf (State.writeCompletion s p port n crec v).mem = true := by
  unfold State.writeCompletion
  dsimp only
  (repeat' split) <;> simp [h]

@[simp] theorem State.completeUnrun_wf (s : State) (n : Nat) (r : Nat) (status : Nat) (h : memoryWf s.mem = true) :
    memoryWf (State.completeUnrun s n r status).mem = true := by
  unfold State.completeUnrun
  (repeat' split) <;> simp [h]

@[simp] theorem State.consume_wf (s : State) (n : Nat) (h : memoryWf s.mem = true) : memoryWf (State.consume s n).mem = true := by
  unfold State.consume
  dsimp only
  (repeat' split) <;> simp [h]

@[simp] theorem State.corruptGang_wf (s : State) (g : Nat) (h : memoryWf s.mem = true) : memoryWf (State.corruptGang s g).mem = true := by
  unfold State.corruptGang
  exact foldl_wf _ (fun s a h => by (repeat' split) <;> simp [h]) _ _ h

@[simp] theorem State.counterTrap_wf (s : State) (key code : Nat) (n : Nat) (h : memoryWf s.mem = true) :
    memoryWf (State.counterTrap s key code n).mem = true := by
  unfold State.counterTrap
  (repeat' split) <;> simp [h]

@[simp] theorem State.finishLaunch_wf (s : State) (l : Nat) (h : memoryWf s.mem = true) :
    memoryWf (State.finishLaunch s l).mem = true := by
  unfold State.finishLaunch
  (repeat' split) <;> simp [h]

@[simp] theorem State.settleStays_wf (s : State) (p : Nat) (h : memoryWf s.mem = true) : memoryWf (State.settleStays s p).mem = true := by
  unfold State.settleStays
  exact foldl_wf _ (fun s a h => by simp [h]) _ _ h

@[simp] theorem State.cancelRecords_wf (s : State) (n fuel : Nat) (h : memoryWf s.mem = true) :
    memoryWf (State.cancelRecords s n fuel).mem = true := by
  induction fuel generalizing s with
  | zero => exact h
  | succ fuel ih =>
    unfold State.cancelRecords
    split
    · exact h
    · split
      · simp [h]
      · exact ih _ (by simp [h])

@[simp] theorem State.forget_mem (s : State) (p : Nat) : (State.forget s p).mem = s.mem := rfl

@[simp] theorem State.dissolve_wf (s : State) (p : Nat) (h : memoryWf s.mem = true) : memoryWf (State.dissolve s p).mem = true := by
  unfold State.dissolve
  dsimp only
  rw [State.setPart_mem, State.forget_mem, State.releaseCores_mem]
  refine State.clearBuffers_wf _ _ ?_
  refine foldl_wf _ (fun s a h => by simp [h]) _ _ ?_
  refine foldl_wf _ (fun s a h => by simp [h]) _ _ ?_
  refine foldl_wf _ (fun s a h => by simp [h]) _ _ ?_
  exact foldl_wf _ (fun s a h => by simp [h]) _ _ (by simp [h])

@[simp] theorem State.drainHeld_wf (s : State) (p : Nat) (x0 : Nat) (h : memoryWf s.mem = true) :
    memoryWf (State.drainHeld s p x0).mem = true := by
  induction x0 generalizing s with
  | zero => simpa [State.drainHeld] using h
  | succ n ih =>
    unfold State.drainHeld
    dsimp only
    split
    · exact h
    · split
      · exact ih _ (by simp [h])
      · exact h

@[simp] theorem State.timeTrap_wf (s : State) (ag : Agent) (code : Nat) (at_ : Word) (h : memoryWf s.mem = true) :
    memoryWf (State.timeTrap s ag code at_).mem = true := by
  unfold State.timeTrap
  (repeat' split) <;> simp [h]

@[simp] theorem State.enqueue_wf (s : State) (key : Nat) (c : Cell) (i : Instr) (vals : List Word) (st : Word) (w : Issue) (post : Cell → Cell) (h : memoryWf s.mem = true) : memoryWf (State.enqueue s key c i vals st w post).mem = true := by
  unfold State.enqueue
  dsimp only
  (repeat' split) <;> simp [h]

@[simp] theorem State.vacate_wf (s : State) (key : Nat) (c : Cell) (h : memoryWf s.mem = true) :
    memoryWf (State.vacate s key c).mem = true := by
  unfold State.vacate
  (repeat' split) <;> simp [h]

@[simp] theorem State.parkGang_wf (s : State) (g : Nat) (h : memoryWf s.mem = true) : memoryWf (State.parkGang s g).mem = true := by
  unfold State.parkGang
  (repeat' split) <;> first | exact h | exact foldl_wf _ (fun s a h => by (repeat' split) <;> simp [h]) _ _ (by
  simp [h])

@[simp] theorem State.fillContext_wf (s : State) (c : Cell) (p : Parked) (h : memoryWf s.mem = true) :
    memoryWf (State.fillContext s c p).mem = true := by
  unfold State.fillContext
  dsimp only
  have h0 := State.clearCellSlice_wf s c h
  revert h0
  generalize (s.clearCellSlice c).mem = m0
  intro h0
  generalize p.live = m
  induction m generalizing m0 with
  | nil => exact h0
  | cons b m ih => exact ih _ (memoryWf_writeByte _ _ _ h0)

@[simp] theorem State.takeUp_wf (s : State) (g : Nat) (h : memoryWf s.mem = true) : memoryWf (State.takeUp s g).mem = true := by
  unfold State.takeUp
  split
  · exact h
  · dsimp only
    have e : ∀ (l : List (Nat × Parked)) (s : State), memoryWf s.mem = true →
        memoryWf (l.foldl (fun s p => (s.fillContext p.2.cell p.2).setCell p.1 p.2.cell) s).mem = true :=
      fun l s hs => foldl_wf _ (fun s a h => by simp [h]) _ _ hs
    rw [State.openStays_mem]
    exact State.resumeGang_wf _ _ (e _ _ h)

@[simp] theorem State.checkTaken_wf (s : State) (g : Nat) (b : Bool) (h : memoryWf s.mem = true) :
    memoryWf (State.checkTaken s g b).mem = true := by
  unfold State.checkTaken
  split <;> simp [h]

@[simp] theorem State.unparkGang_wf (s : State) (g : Nat) (h : memoryWf s.mem = true) : memoryWf (State.unparkGang s g).mem = true :=
  State.checkTaken_wf _ _ _ (State.takeUp_wf _ _ h)

@[simp] theorem State.exchange_wf (s : State) (p : Nat) (w : Swap) (h : memoryWf s.mem = true) :
    memoryWf (State.exchange s p w).mem = true := by
  unfold State.exchange
  dsimp only
  rw [State.answerCore_mem]
  refine State.settleDoom_wf _ _ (State.settleDoom_wf _ _ ?_)
  (repeat' split) <;> simp [h]

@[simp] theorem State.fillSlice_wf (s : State) (k : Kernel) (c : Cell) (h : memoryWf s.mem = true) :
    memoryWf (State.fillSlice s k c).mem = true := by
  unfold State.fillSlice
  (repeat' split) <;> first | exact h | exact foldl_wf _ (fun s a h => by (repeat' split) <;> simp [h]) _ _ (by
  simp [h])

@[simp] theorem State.writeEres_wf (s : State) (l c : Nat) (v : Word) (h : memoryWf s.mem = true) :
    memoryWf (State.writeEres s l c v).mem = true := by
  unfold State.writeEres
  split <;> simp [h]

@[simp] theorem State.failScan_wf (s : State) (p : Nat) (c : Scan) (rest : List Scan) (h : memoryWf s.mem = true) :
    memoryWf (State.failScan s p c rest).mem = true := by
  unfold State.failScan
  dsimp only
  rw [State.finishPtupd_mem]
  split <;> simp [h]

@[simp] theorem State.finishScan_wf (s : State) (p : Nat) (c : Scan) (rest : List Scan) (h : memoryWf s.mem = true) :
    memoryWf (State.finishScan s p c rest).mem = true := by
  unfold State.finishScan
  dsimp only
  split
  · have e : ∀ (b : Bool) (l : List ((Nat × Nat) × List Byte)) (t : State), memoryWf t.mem = true →
        memoryWf (if b = true then l.foldl (fun s q => s.putBytes q.1.1 q.2) t else t).mem = true := by
      intro b l t ht
      split
      · exact foldl_wf _ (fun s a h => by simp [h]) _ _ ht
      · exact ht
    split
    · rw [State.resumeCore_mem]; exact e _ _ _ h
    · exact e _ _ _ h
  · rw [State.finishPtupd_mem]
    split
    · apply State.writeEres_wf
      split <;> simp [h]
    · split <;> simp [h]

@[simp] theorem State.freeRecords_wf (s : State) (p : Nat) (h : memoryWf s.mem = true) : memoryWf (State.freeRecords s p).mem = true := by
  unfold State.freeRecords
  (repeat' split) <;> simp [h]

@[simp] theorem State.judgeOrphans_mem (s : State) : (State.judgeOrphans s).mem = s.mem := by
  unfold State.judgeOrphans
  exact foldl_mem _ (fun s a => by (repeat' split) <;> simp) _ _

@[simp] theorem State.pathTrap_wf (s : State) (ag : Agent) (code : Nat) (addr : Word) (h : memoryWf s.mem = true) :
    memoryWf (State.pathTrap s ag code addr).mem = true := by
  unfold State.pathTrap
  (repeat' split) <;> simp [h]

@[simp] theorem State.xlatTrap_wf (s : State) (ag : Agent) (code : Nat) (addr : Word) (h : memoryWf s.mem = true) :
    memoryWf (State.xlatTrap s ag code addr).mem = true := by
  unfold State.xlatTrap
  (repeat' split) <;> simp [h]

@[simp] theorem State.issueAccess_wf (s : State) (ag : Agent) (q : ASeq) (kind : AccessKind) (ea : Word) (w : Nat) (first : BitVec 32) (size : Nat) (h : memoryWf s.mem = true) : memoryWf (State.issueAccess s ag q kind ea w first size).mem = true := by
  unfold State.issueAccess
  dsimp only
  (repeat' split) <;> simp [h]

@[simp] theorem State.fillTlb_mem (s : State) (ag : Agent) (e : PageEntry) : (State.fillTlb s ag e).mem = s.mem := by
  unfold State.fillTlb
  dsimp only
  (repeat' split) <;> first | rfl | simp

@[simp] theorem State.touch_mem (s : State) (ag : Agent) (user : Bool) (va : Nat) (pr : Probe) : (State.touch s ag user va pr).mem = s.mem := by
  unfold State.touch
  (repeat' split) <;> first | rfl | simp

@[simp] theorem State.touchAccess_mem (s : State) (ag : Agent) (ea : Word) (pr : Probe) : (State.touchAccess s ag ea pr).mem = s.mem := by
  unfold State.touchAccess
  split <;> simp

@[simp] theorem State.abandonAccess_mem (s : State) (ag : Agent) (x : Access) : (State.abandonAccess s ag x).mem = s.mem := by
  unfold State.abandonAccess
  split <;> simp

@[simp] theorem State.issueQueue_wf (s : State) (key : Nat) (c : Cell) (kind : AccessKind) (ea : Word) (w : Nat) (first : BitVec 32) (inc : Option (BitVec 5 × Word)) (popped : Option (Nat × Word × Word)) (h : memoryWf s.mem = true) : memoryWf (State.issueQueue s key c kind ea w first inc popped).mem = true := by
  unfold State.issueQueue
  dsimp only
  (repeat' split) <;> simp [h]

@[simp] theorem State.joinLane_wf (s : State) (key k rank : Nat) (poison : Bool) (h : memoryWf s.mem = true) :
    memoryWf (State.joinLane s key k rank poison).mem = true := by
  unfold State.joinLane
  (repeat' split) <;> simp [h]

@[simp] theorem State.pastLacking_mem (s : State) : s.pastLacking.mem = s.mem := rfl

@[simp] theorem State.loadGang_wf (s : State) (k : Nat) (area : Word) (bs : List Byte) (ts : List CellType) (g : Nat) (link : Option (Nat × Launch × StreamCmd)) (h : memoryWf s.mem = true) : memoryWf (State.loadGang s k area bs ts g link).mem = true := by
  unfold State.loadGang
  (repeat' split) <;> simp [h]

@[simp] theorem State.lordDeliver_wf (s : State) (key : Nat) (x : Cmd) (fmt : Nat) (h : memoryWf s.mem = true) :
    memoryWf (State.lordDeliver s key x fmt).1.mem = true := by
  unfold State.lordDeliver
  dsimp only
  (repeat' split) <;> first | exact h | skip
  · rename_i e
    obtain ⟨vs, -, e⟩ := Eng.bind_eq_ok e
    exact State.joinLane_wf _ _ _ _ _ (writeGroup_wf _ _ _ _ _ h _ e)
  · simp [h]
  · simp [h]

@[simp] theorem State.matrixTrap_wf (s : State) (key code : Nat) (h : memoryWf s.mem = true) :
    memoryWf (State.matrixTrap s key code).mem = true := by
  unfold State.matrixTrap
  (repeat' split) <;> simp [h]

@[simp] theorem State.streamFault_wf (s : State) (l : Nat) (x : Launch) (c : StreamCmd) (code opnd : Nat) (addr : Word) (h : memoryWf s.mem = true) : memoryWf (State.streamFault s l x c code opnd addr).mem = true := by
  unfold State.streamFault
  dsimp only
  (repeat' split) <;> simp [h]

@[simp] theorem State.moveChunk_wf (s : State) (l : Nat) (x : Launch) (c : StreamCmd) (src dst : Word) (len : Nat) (h :
    memoryWf s.mem = true) : memoryWf (State.moveChunk s l x c src dst len).mem = true := by
  unfold State.moveChunk
  dsimp only
  (repeat' split) <;> simp [h]

@[simp] theorem State.noteQuota_wf (s : State) (n r : Nat) (h : memoryWf s.mem = true) : memoryWf (State.noteQuota s n r).mem = true := by
  unfold State.noteQuota
  dsimp only
  (repeat' split) <;> simp [h]

@[simp] theorem State.objectFault_wf (s : State) (ag : Agent) (x : Access) (h : memoryWf s.mem = true) :
    memoryWf (State.objectFault s ag x).mem = true := by
  unfold State.objectFault
  (repeat' split) <;> simp [h]

@[simp] theorem State.observeCancel_wf (s : State) (n : Nat) (cseq : BitVec 32) (valid : Bool) (h :
    memoryWf s.mem = true) : memoryWf (State.observeCancel s n cseq valid).mem = true := by
  unfold State.observeCancel
  (repeat' split) <;> first | exact h | exact foldl_wf _ (fun s a h => by (repeat' split) <;> simp [h]) _ _ (by
  simp [h])

@[simp] theorem State.performWrite_wf (s : State) (ag : Agent) (x : Access) (loc : Nat) (bs : List Byte) (h :
    memoryWf s.mem = true) : memoryWf (State.performWrite s ag x loc bs).mem = true := by
  unfold State.performWrite
  (repeat' split) <;> simp [h]

@[simp] theorem State.placeGang_wf (s : State) (l : Nat) (x : Launch) (c : StreamCmd) (k : Kernel) (gid : Nat) (units : List Nat) (h : memoryWf s.mem = true) : memoryWf (State.placeGang s l x c k gid units).mem = true := by
  unfold State.placeGang
  refine foldl_wf _ (fun s a h => by (repeat' split) <;> simp [h]) _ _ ?_
  exact foldl_wf _ (fun s p h => by rw [State.clearRo_mem]; exact h) _ _ (by rw [State.applyIdlePends_mem]; exact h)

@[simp] theorem State.placeWord_wf (s : State) (nbits w : Nat) (h : memoryWf s.mem = true) :
    memoryWf (State.placeWord s nbits w).mem = true := by
  unfold State.placeWord
  dsimp only
  have e : memoryWf s.atRest.mem = true := h
  split <;> simp [e]

@[simp] theorem State.predict_wf (s : State) (key : Nat) (x : ArrayState) (h : memoryWf s.mem = true) :
    memoryWf (State.predict s key x).mem = true := by
  unfold State.predict
  dsimp only
  (repeat' split) <;> simp [h]

@[simp] theorem State.privilegeTrap_wf (s : State) (ag : Agent) (major minor : Nat) (h : memoryWf s.mem = true) :
    memoryWf (State.privilegeTrap s ag major minor).mem = true := by
  unfold State.privilegeTrap
  (repeat' split) <;> simp [h]

@[simp] theorem State.readFrame_wf (s : State) (key w : Nat) (h : memoryWf s.mem = true) :
    memoryWf (State.readFrame s key w).2.mem = true := by
  unfold State.readFrame
  (repeat' split) <;> simp [h]

@[simp] theorem State.renewTraps_wf (s : State) (g : Nat) (h : memoryWf s.mem = true) : memoryWf (State.renewTraps s g).mem = true := by
  unfold State.renewTraps
  exact foldl_wf _ (fun s a h => by (repeat' split) <;> simp [h]) _ _ h

@[simp] theorem State.resumeCell_wf (s : State) (key : Nat) (c : Cell) (emu : Option Instr) (x : Bool) (h :
    memoryWf s.mem = true) : memoryWf (State.resumeCell s key c emu x).mem = true := by
  unfold State.resumeCell
  (repeat' split) <;> simp [h]

@[simp] theorem State.runPtupd_wf (s : State) (k : Nat) (d : BitVec 5) (n : Nat) (ls : List (Option Nat × Nat)) (h : memoryWf s.mem = true) : memoryWf (State.runPtupd s k d n ls).mem = true := by
  unfold State.runPtupd
  dsimp only
  have e : ∀ (l : List ListEntry) (f : Nat → Option Nat) (s : State), memoryWf s.mem = true →
      memoryWf (l.foldl (fun s e => match f e.index with
        | some l => s.writeEres l e.ecode 0
        | none => s) s).mem = true :=
    fun l f s hs => foldl_wf _ (fun s a h => by split <;> simp [h]) _ _ hs
  split
  · rw [State.finishPtupd_mem, State.setCore_mem, State.setPart_mem]
    exact e _ (fun i => placeAt ls (32 * i + 16)) _ h
  · rw [State.resumeCore_mem]
    exact e _ (fun i => placeAt ls (32 * i + 16)) _ h

@[simp] theorem State.scalarReply_wf (s : State) (ag : Agent) (id : Nat) (h : memoryWf s.mem = true) :
    memoryWf (State.scalarReply s ag id).mem = true := by
  unfold State.scalarReply
  (repeat' split) <;> simp [h]

@[simp] theorem State.stallOn_wf (s : State) (key : Nat) (c : Cell) (need : Nat) (h : memoryWf s.mem = true) :
    memoryWf (State.stallOn s key c need).mem = true := by
  unfold State.stallOn
  (repeat' split) <;> simp [h]

@[simp] theorem State.startLaunch_wf (s : State) (n r k : Nat) (mb : Vector Word 16) (h : memoryWf s.mem = true) :
    memoryWf (State.startLaunch s n r k mb).mem = true := by
  unfold State.startLaunch
  (repeat' split) <;> simp [h]

@[simp] theorem State.streamTrap_wf (s : State) (k code : Nat) (addr : Word) (h : memoryWf s.mem = true) :
    memoryWf (State.streamTrap s k code addr).mem = true := by
  unfold State.streamTrap
  (repeat' split) <;> simp [h]

@[simp] theorem State.suspendCmd_wf (s : State) (key : Nat) (r : Running) (h : memoryWf s.mem = true) :
    memoryWf (State.suspendCmd s key r).mem = true := by
  unfold State.suspendCmd
  dsimp only
  (repeat' split) <;> simp [h]

@[simp] theorem State.syncTrap_wf (s : State) (ag : Agent) (code : Nat) (obj : Word) (h : memoryWf s.mem = true) :
    memoryWf (State.syncTrap s ag code obj).mem = true := by
  unfold State.syncTrap
  (repeat' split) <;> simp [h]

@[simp] theorem State.takeRecord_wf (s : State) (n : Nat) (h : memoryWf s.mem = true) : memoryWf (State.takeRecord s n).mem = true := by
  unfold State.takeRecord
  dsimp only
  split
  · simp [h]
  · rename_i r _
    generalize ht : ({ s with served := s.served.insert (wqPart (s.wq n) * 8 + s.queueBand n) n } : State) = t
    have e : memoryWf t.mem = true := by subst ht; simp [h]
    (repeat' split) <;> first | simp [e] | exact State.consume_wf _ _ (State.startLaunch_wf _ _ _ _ _ (State.noteQuota_wf _ _ _ e))

@[simp] theorem State.trapCells_wf (s : State) (cells : List (Nat × Cell)) (code : Nat) (h : memoryWf s.mem = true) :
    memoryWf (State.trapCells s cells code).mem = true := by
  unfold State.trapCells
  exact foldl_wf _ (fun s a h => by (repeat' split) <;> simp [h]) _ _ h

@[simp] theorem State.modUnit_mem (s : State) (u : Nat) (f : Cell → Cell) : (State.modUnit s u f).mem = s.mem := rfl

@[simp] theorem State.dropEntry_mem (s : State) (u array n : Nat) : (State.dropEntry s u array n).mem = s.mem := by
  unfold State.dropEntry
  dsimp only
  (repeat' split) <;> rfl

@[simp] theorem State.uncorrectable_wf (s : State) (w : Store) (h : memoryWf s.mem = true) :
    memoryWf (State.uncorrectable s w).mem = true := by
  unfold State.uncorrectable
  split
  · exact h
  · rw [State.modCell_mem]; exact h
  · exact h
  · split
    · rw [State.checkEvents_mem]; exact h
    · exact h
  · rw [State.dropEntry_mem]; exact h
  · exact State.machineCheck_wf _ _ _ _ _ _ h
  · exact h

@[simp] theorem State.unitAbsent_wf (s : State) (ag : Agent) (major minor : Nat) (short : Bool) (h :
    memoryWf s.mem = true) : memoryWf (State.unitAbsent s ag major minor short).mem = true := by
  unfold State.unitAbsent
  (repeat' split) <;> simp [h]

@[simp] theorem State.vectorTrap_wf (s : State) (key code : Nat) (h : memoryWf s.mem = true) :
    memoryWf (State.vectorTrap s key code).mem = true := by
  unfold State.vectorTrap
  (repeat' split) <;> simp [h]

@[simp] theorem State.wagDeliver_wf (s : State) (key : Nat) (x : Cmd) (h : memoryWf s.mem = true) :
    memoryWf (State.wagDeliver s key x).1.mem = true := by
  unfold State.wagDeliver
  dsimp only
  (repeat' split) <;> simp [h]

@[simp] theorem State.wearCell_wf (s : State) (u : Nat) (inc : Word) (h : memoryWf s.mem = true) :
    memoryWf (State.wearCell s u inc).mem = true := by
  unfold State.wearCell
  extract_lets l l' t t'
  rw [State.changeCell_mem]
  have e : memoryWf t.mem = true := by
    rw [State.setLife_mem]
    exact h
  clear_value t
  exact State.chargeStays_wf _ _ _ _ e

@[simp] theorem State.writeTqcfg_wf (s : State) (p : Nat) (v : Word) (h : memoryWf s.mem = true) :
    memoryWf (State.writeTqcfg s p v).mem = true := by
  unfold State.writeTqcfg
  (repeat' split) <;> simp [h]

@[simp] theorem State.writeTqhead_wf (s : State) (p : Nat) (v : Word) (h : memoryWf s.mem = true) :
    memoryWf (State.writeTqhead s p v).mem = true := by
  unfold State.writeTqhead
  dsimp only
  (repeat' split) <;> simp [h]

@[simp] theorem State.writeSysreg_wf (s : State) (root : Bool) (p k : Nat) (v : Word) (h : memoryWf s.mem = true) :
    memoryWf (State.writeSysreg s root p k v).mem = true := by
  unfold State.writeSysreg
  dsimp only
  (repeat' split) <;> simp [h]

theorem drainWrite_wf (s : State) (key : Nat) (c : Cell) (x : Cmd) (v : DrainVals) (d : BitVec 512) (i j0 n : Nat) (stats : Bool) (h : memoryWf s.mem = true) (t : State) (e : drainWrite s key c x v d i j0 n stats = .ok t) : memoryWf t.mem = true := by
  unfold drainWrite at e
  obtain ⟨q, -, e⟩ := Eng.bind_eq_ok e
  dsimp only at e
  split at e
  · simp at e
  · simp only [Eng.ok.injEq] at e
    subst e
    (repeat' split) <;> simp [h]

@[simp] theorem recordFailed_wf (s : State) (key : Nat) (x : Cmd) (j : CopyJob) (code : Nat) (h :
    memoryWf s.mem = true) : memoryWf (recordFailed s key x j code).mem = true := by
  unfold recordFailed
  (repeat' split) <;> simp [h]

/-! ## The end of a cycle -/

@[simp] theorem State.acquireScope_mem (s : State) (ag : Agent) (scope : Nat) : (State.acquireScope s ag scope).mem = s.mem := by
  unfold State.acquireScope
  (repeat' split) <;> first | rfl | simp

@[simp] theorem State.engineAcquired_mem (s : State) (key : Nat) (x : Cmd) (acq : List Nat) :
    (State.engineAcquired s key x acq).mem = s.mem := by
  unfold State.engineAcquired
  split <;> simp

@[simp] theorem State.earlyAcquire_mem (s : State) (key id : Nat) : (State.earlyAcquire s key id).mem = s.mem := by
  unfold State.earlyAcquire
  dsimp only
  (repeat' split) <;> simp

@[simp] theorem State.earlyAcquires_mem (s : State) : s.earlyAcquires.mem = s.mem := by
  unfold State.earlyAcquires
  exact foldl_mem _ (fun s p => by simp) _ _

@[simp] theorem State.startPtupd_wf (s : State) (k : Nat) (d : BitVec 5) (list : Word) (n : Nat) (h : memoryWf s.mem = true) :
    memoryWf (State.startPtupd s k d list n).mem = true := by
  unfold State.startPtupd
  (repeat' split) <;> simp [h]

@[simp] theorem State.advancePtupd_wf (s : State) (h : memoryWf s.mem = true) : memoryWf (State.advancePtupd s).mem = true := by
  unfold State.advancePtupd
  dsimp only
  have e : ((List.range 8).foldl State.finishPtupd s).mem = s.mem := foldl_mem _ (fun s p => by simp) _ _
  (repeat' split) <;> simp [h, e]

@[simp] theorem State.reachPtupd_mem (s : State) (k : Nat) : (State.reachPtupd s k).mem = s.mem := by
  unfold State.reachPtupd
  (repeat' split) <;> first | rfl | simp

@[simp] theorem State.advanceCore_mem (s : State) (k : Nat) : (State.advanceCore s k).mem = s.mem := by
  unfold State.advanceCore
  (repeat' split) <;> first | rfl | simp

@[simp] theorem State.advanceCores_wf (s : State) (h : memoryWf s.mem = true) : memoryWf s.advanceCores.mem = true := by
  unfold State.advanceCores
  exact State.advancePtupd_wf _ (foldl_wf _ (fun s k h => by rw [State.advanceCore_mem]; exact h) _ _ h)

@[simp] theorem State.deliverAll_wf (s : State) (h : memoryWf s.mem = true) : memoryWf s.deliverAll.mem = true := by
  unfold State.deliverAll
  generalize s.records.foldl (fun l x => insertRecord x l) [] = l
  refine foldl_wf _ (fun s x h => ?_) l _ h
  split
  · exact State.deliver_wf _ _ _ h
  · exact h

@[simp] theorem State.nextCycle_mem (s : State) : s.nextCycle.mem = s.mem := by rw [State.nextCycle]

/-- The end of a cycle keeps the canonical form. -/
@[simp] theorem State.tick_wf (s : State) (h : memoryWf s.mem = true) : memoryWf s.tick.mem = true := by
  rw [State.tick, State.nextCycle_mem, State.endCycle]
  exact State.deliverAll_wf _ (State.advanceCores_wf _ (by simp [h]))

end Sys2Proof.Machine
end

