-- ==== Sys2Proof/Laws/Ops.lean ====
section
/-! SUPPORT. What the accessors of registers, sequencers, cells, gangs, cores and partitions read after a write, what the frames
of meanings can answer, and what taking a trap does. -/

namespace Sys2Proof.Machine

/-! ## Registers (04 R71) -/

@[simp] theorem ASeq.reg_zero (a : ASeq) : a.reg 0 = 0 := rfl

theorem ASeq.reg_setReg (a : ASeq) (d r : BitVec 5) (v : Word) :
    (a.setReg d v).reg r = if r = d ∧ d ≠ 0 then v else a.reg r := by
  unfold ASeq.setReg ASeq.reg
  by_cases hd : d = 0#5
  · subst hd
    by_cases hr : r = 0#5 <;> simp [hr]
  · by_cases hr : r = 0#5
    · simp [hr, hd, Ne.symm hd]
    · by_cases h : r = d
      · subst h; simp [hr]
      · have : ¬ d.toNat = r.toNat := fun hh => h (BitVec.eq_of_toNat_eq hh).symm
        simp [hd, hr, h, this]

@[simp] theorem ASeq.setReg_zero (a : ASeq) (v : Word) : a.setReg 0 v = a := by simp [ASeq.setReg]

theorem ASeq.pending_mono {a : ASeq} {u v : List (BitVec 5)} (h : ∀ x ∈ v, x ∈ u) (hp : a.pending u = false) :
    a.pending v = false := by
  simp only [ASeq.pending, List.any_eq_false, Bool.or_eq_true, not_or] at hp ⊢
  intro x hx
  have := hp x hx
  constructor
  · intro hh; apply this.1
    split at hh <;> simp_all
  · intro hh; apply this.2
    split at hh <;> simp_all

theorem Issues.mono {s : State} {ag : Agent} {a : ASeq} {u v : List (BitVec 5)} (h : ∀ x ∈ v, x ∈ u) (i : Issues s ag a u) :
    Issues s ag a v :=
  ⟨i.focus, i.scalar, i.issuing, i.state, ASeq.pending_mono h i.ready⟩

/-! ## Reading after writing -/

theorem State.part_setPart {s : State} {p q : Nat} {x : Partition} (hp : p < 8) (hq : q < 8) :
    (s.setPart p x).part q = if q = p then x else s.part q := by
  simp only [State.part, State.setPart, Vector.getElem_set, Nat.mod_eq_of_lt hp, Nat.mod_eq_of_lt hq, eq_comm]

theorem State.core_setCore {s : State} {j k : Nat} {x : Core} (hj : j < 16) (hk : k < 16) :
    (s.setCore k x).core j = if j = k then x else s.core j := by
  simp only [State.core, State.setCore, Vector.getElem_set, Nat.mod_eq_of_lt hj, Nat.mod_eq_of_lt hk, eq_comm]

theorem State.cell?_setCell_self (s : State) (k : Nat) (c : Cell) : (s.setCell k c).cell? k = some c :=
  AMap.find?_insert_self _ _ _

theorem State.cell?_setCell_ne (s : State) {k j : Nat} (c : Cell) (h : j ≠ k) : (s.setCell k c).cell? j = s.cell? j :=
  AMap.find?_insert_ne _ _ h

theorem State.cell?_modCell (s : State) (k j : Nat) (f : Cell → Cell) :
    (s.modCell k f).cell? j = if j = k then (s.cell? j).map f else s.cell? j :=
  AMap.find?_modify _ _ _ _

theorem State.gang?_setGang_self (s : State) (k : Nat) (g : Gang) : (s.setGang k g).gang? k = some g :=
  AMap.find?_insert_self _ _ _

theorem State.gang?_modGang (s : State) (k j : Nat) (f : Gang → Gang) :
    (s.modGang k f).gang? j = if j = k then (s.gang? j).map f else s.gang? j :=
  AMap.find?_modify _ _ _ _

theorem State.aseq?_setASeq {s : State} {ag : Agent} {q r : ASeq} (h : s.aseq? ag = some q) :
    (s.setASeq ag r).aseq? ag = some r := by
  cases ag with
  | aseq k =>
    simp only [State.aseq?, State.cell?, Option.map_eq_some_iff] at h
    obtain ⟨c, hc, -⟩ := h
    simp [State.aseq?, State.cell?, State.setASeq, State.modCell, AMap.find?_modify, hc]
  | xseq k =>
    simp only [State.aseq?, State.cell?, Option.map_eq_some_iff] at h
    obtain ⟨c, hc, -⟩ := h
    simp [State.aseq?, State.cell?, State.setASeq, State.modCell, AMap.find?_modify, hc]
  | core k =>
    simp only [State.aseq?] at h
    split at h
    · simp [State.aseq?, State.setASeq, State.setCore, State.core, *]
    · cases h

@[simp] theorem State.setASeq_gangs (s : State) (ag : Agent) (r : ASeq) : (s.setASeq ag r).gangs = s.gangs := by
  cases ag <;> rfl

@[simp] theorem State.setASeq_partitions (s : State) (ag : Agent) (r : ASeq) : (s.setASeq ag r).partitions = s.partitions := by
  cases ag <;> rfl

/-! ## Bytes (06 R120) -/

theorem State.putBytes_read_outside (s : State) (loc : Nat) (bs : List Byte) (c : Nat) (h : c < loc ∨ loc + bs.length ≤ c) :
    readByte (s.putBytes loc bs).mem c = readByte s.mem c :=
  readByte_writeBytes_outside bs s.mem loc c h

theorem State.putBytes_read_inside (s : State) (loc : Nat) (bs : List Byte) (i : Nat) (h : i < bs.length) :
    readByte (s.putBytes loc bs).mem (loc + i) = bs[i] :=
  readByte_writeBytes_inside bs s.mem loc i h

/-! ## Offsets of scalar accesses (05 R94) -/

theorem accessWidth_eq (imm : BitVec 12) : accessWidth imm = 2 ^ (imm.toNat / 1024) := by
  unfold accessWidth
  congr 1
  rw [BitVec.extractLsb'_toNat]
  have := imm.isLt
  omega

theorem accessOffset_eq (imm : BitVec 12) :
    accessOffset imm = BitVec.ofInt 64 ((imm.extractLsb' 0 10).toInt * (2 ^ (imm.toNat / 1024) : Nat)) := by
  unfold accessOffset signed
  rw [accessWidth_eq, BitVec.ofInt_mul]
  congr 1

/-! ## What the frames of meanings can answer -/

/-- An A-seq form stops, stalls, or issues. -/
theorem onA_cases (s : State) (use : List (BitVec 5)) (k : Agent → ASeq → State) :
    (∃ f, onA s use k = .fault f) ∨ onA s use k = .next s ∨
      ∃ a, s.issuing s.focus = true ∧ s.aseq? s.focus = some a ∧ a.pending use = false ∧ onA s use k = .next (k s.focus a) := by
  unfold onA
  split
  · exact .inl ⟨_, rfl⟩
  · split
    · split
      · split
        · exact .inr (.inl rfl)
        · rename_i hp
          exact .inr (.inr ⟨_, ‹_›, ‹_›, by simpa using hp, rfl⟩)
      · exact .inl ⟨_, rfl⟩
    · exact .inl ⟨_, rfl⟩

/-- An event leaves the state as it is, or takes place. -/
theorem event_cases (guard : Bool) (s t : State) :
    (guard = false ∧ event guard s t = .next s) ∨ (guard = true ∧ event guard s t = .next t) := by
  cases guard <;> simp [event]

/-! ## Taking a trap (18 R347) -/

/-- A replayable trap of a cell: the cell stops with its record, which is reported. -/
theorem State.raiseTrap_cell_replayable (s : State) (key kind code : Nat) (info addr : Word) (eng : Bool) :
    s.raiseTrap (.aseq key) kind code .replayable info addr eng =
      (s.modCell key (fun c => { c with trap := some { record := s.trapRecord (.aseq key) kind code .replayable eng info addr, held := false } })).report
        (partOfCell key) (s.trapRecord (.aseq key) kind code .replayable eng info addr) := rfl

/-- A fatal trap of a cell stops its gang too. -/
theorem State.raiseTrap_cell_fatal (s : State) (key kind code : Nat) (info addr : Word) (eng : Bool) :
    s.raiseTrap (.aseq key) kind code .fatal info addr eng =
      ((s.modCell key (fun c => { c with trap := some { record := s.trapRecord (.aseq key) kind code .fatal eng info addr, held := false } })).modGang
        (gangOfCell key) (fun g => { g with state := .stopped })).report (partOfCell key)
          (s.trapRecord (.aseq key) kind code .fatal eng info addr) := rfl

/-- An event trap only reports its record. -/
theorem State.raiseTrap_cell_event (s : State) (key kind code : Nat) (info addr : Word) (eng : Bool) :
    s.raiseTrap (.aseq key) kind code .event info addr eng =
      s.report (partOfCell key) (s.trapRecord (.aseq key) kind code .event eng info addr) := rfl

/-- A fatal trap of a launch program ends it. -/
theorem State.raiseTrap_core_fatal (s : State) (k kind code : Nat) (info addr : Word) (eng : Bool) (h : (s.core k).priv = .user) :
    s.raiseTrap (.core k) kind code .fatal info addr eng =
      (s.report ((s.core k).part.getD 0) (s.trapRecord (.core k) kind code .fatal eng info addr)).endProgram k 2
        (if kind = 0x06 then BitVec.ofNat 16 info.toNat else 0) := by
  simp [State.raiseTrap, h, State.agentPart]

/-- A trap at supervisor level stops the partition. -/
theorem State.raiseTrap_core_supervisor (s : State) (k kind code : Nat) (cls : TrapClass) (info addr : Word) (eng : Bool)
    (h : (s.core k).priv = .supervisor) :
    s.raiseTrap (.core k) kind code cls info addr eng =
      s.stopPartition ((s.core k).part.getD 0) 2 (s.trapRecord (.core k) kind code cls eng info addr) := by
  simp [State.raiseTrap, h, State.agentPart]

/-- A trap at root level stops the package. -/
theorem State.raiseTrap_core_root (s : State) (k kind code : Nat) (cls : TrapClass) (info addr : Word) (eng : Bool)
    (h : (s.core k).priv = .root) :
    s.raiseTrap (.core k) kind code cls info addr eng = s.stopPackage (s.trapRecord (.core k) kind code cls eng info addr) := by
  simp [State.raiseTrap, h]

/-- A record is written to the ring, held until there is space, or stops the partition. -/
theorem State.deliver_cases (s : State) (p : Nat) (r : TrapRecord) :
    s.deliver p r = s.writeRecord p r ∨ s.deliver p r = s.stopPartition p 1 r ∨
      (r.cls ≠ .fatal ∧ s.deliver p r = (s.setHeld p r true).setPart p
        { (s.setHeld p r true).part p with heldRecords := (s.part p).heldRecords ++ [r] }) := by
  unfold State.deliver
  dsimp only
  split
  · split
    · exact .inl rfl
    · exact .inr (.inl rfl)
  · rename_i h
    split
    · exact .inl rfl
    · exact .inr (.inr ⟨by simpa using h, rfl⟩)

end Sys2Proof.Machine
end

