-- ==== Sys2Proof/Laws/PerInstr.lean ====
section
/-! SUPPORT. For each constructor: an instruction word encodes into as many parcels as its size says (03 R43, R44), and an event
has no words. -/

open Sys2Proof

/-- The length of the encoding. -/
def Sys2Proof.Laws.EncodedSize.Statement (i : Instr) : Prop := 2 * (encode i).length = if i.isWord then i.size else 0

theorem Sys2Proof.Laws.EncodedSize.blkImmediate (n : BitVec 13) (l : BitVec 12) : Sys2Proof.Laws.EncodedSize.Statement (.blkImmediate n l) := rfl

theorem Sys2Proof.Laws.EncodedSize.blkRegister (sel : BitVec 6) (l : BitVec 12) : Sys2Proof.Laws.EncodedSize.Statement (.blkRegister sel l) := by
  have h : Instr.isWord (.blkRegister sel l) = true := Bool.or_true _
  unfold Sys2Proof.Laws.EncodedSize.Statement
  rw [if_pos h]
  rfl

theorem Sys2Proof.Laws.EncodedSize.br (off : BitVec 17) : Sys2Proof.Laws.EncodedSize.Statement (.br off) := rfl

theorem Sys2Proof.Laws.EncodedSize.bz (a : BitVec 5) (off : BitVec 17) : Sys2Proof.Laws.EncodedSize.Statement (.bz a off) := rfl

theorem Sys2Proof.Laws.EncodedSize.bnz (a : BitVec 5) (off : BitVec 17) : Sys2Proof.Laws.EncodedSize.Statement (.bnz a off) := rfl

theorem Sys2Proof.Laws.EncodedSize.dcbnz (a : BitVec 5) (off : BitVec 17) : Sys2Proof.Laws.EncodedSize.Statement (.dcbnz a off) := rfl

theorem Sys2Proof.Laws.EncodedSize.call (off : BitVec 17) : Sys2Proof.Laws.EncodedSize.Statement (.call off) := rfl

theorem Sys2Proof.Laws.EncodedSize.callr (a : BitVec 5) : Sys2Proof.Laws.EncodedSize.Statement (.callr a) := rfl

theorem Sys2Proof.Laws.EncodedSize.ret (a : BitVec 5) : Sys2Proof.Laws.EncodedSize.Statement (.ret a) := rfl

theorem Sys2Proof.Laws.EncodedSize.bqpush (a : BitVec 5) : Sys2Proof.Laws.EncodedSize.Statement (.bqpush a) := rfl

theorem Sys2Proof.Laws.EncodedSize.halt (code : BitVec 17) : Sys2Proof.Laws.EncodedSize.Statement (.halt code) := rfl

theorem Sys2Proof.Laws.EncodedSize.bqt (off : BitVec 17) : Sys2Proof.Laws.EncodedSize.Statement (.bqt off) := rfl

theorem Sys2Proof.Laws.EncodedSize.bqf (off : BitVec 17) : Sys2Proof.Laws.EncodedSize.Statement (.bqf off) := rfl

theorem Sys2Proof.Laws.EncodedSize.brk (code10 : BitVec 10) : Sys2Proof.Laws.EncodedSize.Statement (.brk code10) := rfl

theorem Sys2Proof.Laws.EncodedSize.addShort (d : BitVec 5) (a : BitVec 5) : Sys2Proof.Laws.EncodedSize.Statement (.addShort d a) := rfl

theorem Sys2Proof.Laws.EncodedSize.addiShort (d : BitVec 5) (imm : BitVec 5) : Sys2Proof.Laws.EncodedSize.Statement (.addiShort d imm) := rfl

theorem Sys2Proof.Laws.EncodedSize.brShort (off10 : BitVec 10) : Sys2Proof.Laws.EncodedSize.Statement (.brShort off10) := rfl

theorem Sys2Proof.Laws.EncodedSize.cwaitShort (n : BitVec 5) (v : BitVec 5) : Sys2Proof.Laws.EncodedSize.Statement (.cwaitShort n v) := rfl

theorem Sys2Proof.Laws.EncodedSize.cincShort (n : BitVec 5) (v1 : BitVec 5) : Sys2Proof.Laws.EncodedSize.Statement (.cincShort n v1) := rfl

theorem Sys2Proof.Laws.EncodedSize.tnextShort (d : BitVec 5) : Sys2Proof.Laws.EncodedSize.Statement (.tnextShort d) := rfl

theorem Sys2Proof.Laws.EncodedSize.bqtShort (off10 : BitVec 10) : Sys2Proof.Laws.EncodedSize.Statement (.bqtShort off10) := rfl

theorem Sys2Proof.Laws.EncodedSize.movShort (d : BitVec 5) (a : BitVec 5) : Sys2Proof.Laws.EncodedSize.Statement (.movShort d a) := rfl

theorem Sys2Proof.Laws.EncodedSize.subShort (d : BitVec 5) (a : BitVec 5) : Sys2Proof.Laws.EncodedSize.Statement (.subShort d a) := rfl

theorem Sys2Proof.Laws.EncodedSize.dcbnzShort (a : BitVec 5) (off1 : BitVec 5) : Sys2Proof.Laws.EncodedSize.Statement (.dcbnzShort a off1) := rfl

theorem Sys2Proof.Laws.EncodedSize.add (d : BitVec 5) (a : BitVec 5) (b : BitVec 5) (sh : BitVec 5) : Sys2Proof.Laws.EncodedSize.Statement (.add d a b sh) := rfl

theorem Sys2Proof.Laws.EncodedSize.sub (d : BitVec 5) (a : BitVec 5) (b : BitVec 5) : Sys2Proof.Laws.EncodedSize.Statement (.sub d a b) := rfl

theorem Sys2Proof.Laws.EncodedSize.and (d : BitVec 5) (a : BitVec 5) (b : BitVec 5) : Sys2Proof.Laws.EncodedSize.Statement (.and d a b) := rfl

theorem Sys2Proof.Laws.EncodedSize.or (d : BitVec 5) (a : BitVec 5) (b : BitVec 5) : Sys2Proof.Laws.EncodedSize.Statement (.or d a b) := rfl

theorem Sys2Proof.Laws.EncodedSize.xor (d : BitVec 5) (a : BitVec 5) (b : BitVec 5) : Sys2Proof.Laws.EncodedSize.Statement (.xor d a b) := rfl

theorem Sys2Proof.Laws.EncodedSize.andn (d : BitVec 5) (a : BitVec 5) (b : BitVec 5) : Sys2Proof.Laws.EncodedSize.Statement (.andn d a b) := rfl

theorem Sys2Proof.Laws.EncodedSize.shl (d : BitVec 5) (a : BitVec 5) (b : BitVec 5) : Sys2Proof.Laws.EncodedSize.Statement (.shl d a b) := rfl

theorem Sys2Proof.Laws.EncodedSize.shr (d : BitVec 5) (a : BitVec 5) (b : BitVec 5) : Sys2Proof.Laws.EncodedSize.Statement (.shr d a b) := rfl

theorem Sys2Proof.Laws.EncodedSize.sra (d : BitVec 5) (a : BitVec 5) (b : BitVec 5) : Sys2Proof.Laws.EncodedSize.Statement (.sra d a b) := rfl

theorem Sys2Proof.Laws.EncodedSize.slt (d : BitVec 5) (a : BitVec 5) (b : BitVec 5) : Sys2Proof.Laws.EncodedSize.Statement (.slt d a b) := rfl

theorem Sys2Proof.Laws.EncodedSize.sltu (d : BitVec 5) (a : BitVec 5) (b : BitVec 5) : Sys2Proof.Laws.EncodedSize.Statement (.sltu d a b) := rfl

theorem Sys2Proof.Laws.EncodedSize.min (d : BitVec 5) (a : BitVec 5) (b : BitVec 5) : Sys2Proof.Laws.EncodedSize.Statement (.min d a b) := rfl

theorem Sys2Proof.Laws.EncodedSize.max (d : BitVec 5) (a : BitVec 5) (b : BitVec 5) : Sys2Proof.Laws.EncodedSize.Statement (.max d a b) := rfl

theorem Sys2Proof.Laws.EncodedSize.minu (d : BitVec 5) (a : BitVec 5) (b : BitVec 5) : Sys2Proof.Laws.EncodedSize.Statement (.minu d a b) := rfl

theorem Sys2Proof.Laws.EncodedSize.maxu (d : BitVec 5) (a : BitVec 5) (b : BitVec 5) : Sys2Proof.Laws.EncodedSize.Statement (.maxu d a b) := rfl

theorem Sys2Proof.Laws.EncodedSize.mov (d : BitVec 5) (a : BitVec 5) (cls : BitVec 5) : Sys2Proof.Laws.EncodedSize.Statement (.mov d a cls) := rfl

theorem Sys2Proof.Laws.EncodedSize.addi (d : BitVec 5) (a : BitVec 5) (imm : BitVec 12) : Sys2Proof.Laws.EncodedSize.Statement (.addi d a imm) := rfl

theorem Sys2Proof.Laws.EncodedSize.andi (d : BitVec 5) (a : BitVec 5) (imm : BitVec 12) : Sys2Proof.Laws.EncodedSize.Statement (.andi d a imm) := rfl

theorem Sys2Proof.Laws.EncodedSize.ori (d : BitVec 5) (a : BitVec 5) (imm : BitVec 12) : Sys2Proof.Laws.EncodedSize.Statement (.ori d a imm) := rfl

theorem Sys2Proof.Laws.EncodedSize.xori (d : BitVec 5) (a : BitVec 5) (imm : BitVec 12) : Sys2Proof.Laws.EncodedSize.Statement (.xori d a imm) := rfl

theorem Sys2Proof.Laws.EncodedSize.shli (d : BitVec 5) (a : BitVec 5) (imm : BitVec 12) : Sys2Proof.Laws.EncodedSize.Statement (.shli d a imm) := rfl

theorem Sys2Proof.Laws.EncodedSize.shri (d : BitVec 5) (a : BitVec 5) (imm : BitVec 12) : Sys2Proof.Laws.EncodedSize.Statement (.shri d a imm) := rfl

theorem Sys2Proof.Laws.EncodedSize.srai (d : BitVec 5) (a : BitVec 5) (imm : BitVec 12) : Sys2Proof.Laws.EncodedSize.Statement (.srai d a imm) := rfl

theorem Sys2Proof.Laws.EncodedSize.slti (d : BitVec 5) (a : BitVec 5) (imm : BitVec 12) : Sys2Proof.Laws.EncodedSize.Statement (.slti d a imm) := rfl

theorem Sys2Proof.Laws.EncodedSize.sltiu (d : BitVec 5) (a : BitVec 5) (imm : BitVec 12) : Sys2Proof.Laws.EncodedSize.Statement (.sltiu d a imm) := rfl

theorem Sys2Proof.Laws.EncodedSize.mini (d : BitVec 5) (a : BitVec 5) (imm : BitVec 12) : Sys2Proof.Laws.EncodedSize.Statement (.mini d a imm) := rfl

theorem Sys2Proof.Laws.EncodedSize.maxi (d : BitVec 5) (a : BitVec 5) (imm : BitVec 12) : Sys2Proof.Laws.EncodedSize.Statement (.maxi d a imm) := rfl

theorem Sys2Proof.Laws.EncodedSize.seqi (d : BitVec 5) (a : BitVec 5) (imm : BitVec 12) : Sys2Proof.Laws.EncodedSize.Statement (.seqi d a imm) := rfl

theorem Sys2Proof.Laws.EncodedSize.li (d : BitVec 5) (imm : BitVec 17) : Sys2Proof.Laws.EncodedSize.Statement (.li d imm) := rfl

theorem Sys2Proof.Laws.EncodedSize.lsh (d : BitVec 5) (imm : BitVec 17) : Sys2Proof.Laws.EncodedSize.Statement (.lsh d imm) := rfl

theorem Sys2Proof.Laws.EncodedSize.lown (d : BitVec 5) (imm : BitVec 17) : Sys2Proof.Laws.EncodedSize.Statement (.lown d imm) := rfl

theorem Sys2Proof.Laws.EncodedSize.lpc (d : BitVec 5) (imm : BitVec 17) : Sys2Proof.Laws.EncodedSize.Statement (.lpc d imm) := rfl

theorem Sys2Proof.Laws.EncodedSize.clz (d : BitVec 5) (a : BitVec 5) (w : BitVec 5) : Sys2Proof.Laws.EncodedSize.Statement (.clz d a w) := rfl

theorem Sys2Proof.Laws.EncodedSize.ffs (d : BitVec 5) (a : BitVec 5) (w : BitVec 5) : Sys2Proof.Laws.EncodedSize.Statement (.ffs d a w) := rfl

theorem Sys2Proof.Laws.EncodedSize.popc (d : BitVec 5) (a : BitVec 5) (w : BitVec 5) : Sys2Proof.Laws.EncodedSize.Statement (.popc d a w) := rfl

theorem Sys2Proof.Laws.EncodedSize.padd (d : BitVec 5) (a : BitVec 5) (b : BitVec 5) (m : BitVec 5) : Sys2Proof.Laws.EncodedSize.Statement (.padd d a b m) := rfl

theorem Sys2Proof.Laws.EncodedSize.psub (d : BitVec 5) (a : BitVec 5) (b : BitVec 5) (m : BitVec 5) : Sys2Proof.Laws.EncodedSize.Statement (.psub d a b m) := rfl

theorem Sys2Proof.Laws.EncodedSize.bfx (d : BitVec 5) (a : BitVec 5) (b : BitVec 5) (len1 : BitVec 5) : Sys2Proof.Laws.EncodedSize.Statement (.bfx d a b len1) := rfl

theorem Sys2Proof.Laws.EncodedSize.mul (d : BitVec 5) (a : BitVec 5) (b : BitVec 5) : Sys2Proof.Laws.EncodedSize.Statement (.mul d a b) := rfl

theorem Sys2Proof.Laws.EncodedSize.mulh (d : BitVec 5) (a : BitVec 5) (b : BitVec 5) : Sys2Proof.Laws.EncodedSize.Statement (.mulh d a b) := rfl

theorem Sys2Proof.Laws.EncodedSize.mulhu (d : BitVec 5) (a : BitVec 5) (b : BitVec 5) : Sys2Proof.Laws.EncodedSize.Statement (.mulhu d a b) := rfl

theorem Sys2Proof.Laws.EncodedSize.div (d : BitVec 5) (a : BitVec 5) (b : BitVec 5) : Sys2Proof.Laws.EncodedSize.Statement (.div d a b) := rfl

theorem Sys2Proof.Laws.EncodedSize.rem (d : BitVec 5) (a : BitVec 5) (b : BitVec 5) : Sys2Proof.Laws.EncodedSize.Statement (.rem d a b) := rfl

theorem Sys2Proof.Laws.EncodedSize.divu (d : BitVec 5) (a : BitVec 5) (b : BitVec 5) : Sys2Proof.Laws.EncodedSize.Statement (.divu d a b) := rfl

theorem Sys2Proof.Laws.EncodedSize.remu (d : BitVec 5) (a : BitVec 5) (b : BitVec 5) : Sys2Proof.Laws.EncodedSize.Statement (.remu d a b) := rfl

theorem Sys2Proof.Laws.EncodedSize.madd (d : BitVec 5) (a : BitVec 5) (b : BitVec 5) : Sys2Proof.Laws.EncodedSize.Statement (.madd d a b) := rfl

theorem Sys2Proof.Laws.EncodedSize.mvShort (t : BitVec 2) (d : BitVec 7) (src : BitVec 5) : Sys2Proof.Laws.EncodedSize.Statement (.mvShort t d src) := rfl

theorem Sys2Proof.Laws.EncodedSize.mv (r : BitVec 3) (t : BitVec 2) (d : BitVec 7) (src : BitVec 5) : Sys2Proof.Laws.EncodedSize.Statement (.mv r t d src) := rfl

theorem Sys2Proof.Laws.EncodedSize.mvi (t : BitVec 2) (d : BitVec 7) (imm : BitVec 11) : Sys2Proof.Laws.EncodedSize.Statement (.mvi t d imm) := rfl

theorem Sys2Proof.Laws.EncodedSize.moveTransport (cell : Nat) : Sys2Proof.Laws.EncodedSize.Statement (.moveTransport cell) := rfl

theorem Sys2Proof.Laws.EncodedSize.xseqOperationComplete (cell : Nat) : Sys2Proof.Laws.EncodedSize.Statement (.xseqOperationComplete cell) := rfl

theorem Sys2Proof.Laws.EncodedSize.xseqFreezeEnd (cell : Nat) : Sys2Proof.Laws.EncodedSize.Statement (.xseqFreezeEnd cell) := rfl

theorem Sys2Proof.Laws.EncodedSize.bqEntryVisible (cell : Nat) : Sys2Proof.Laws.EncodedSize.Statement (.bqEntryVisible cell) := rfl

theorem Sys2Proof.Laws.EncodedSize.ld (d : BitVec 5) (a : BitVec 5) (imm : BitVec 12) : Sys2Proof.Laws.EncodedSize.Statement (.ld d a imm) := rfl

theorem Sys2Proof.Laws.EncodedSize.lds (d : BitVec 5) (a : BitVec 5) (imm : BitVec 12) : Sys2Proof.Laws.EncodedSize.Statement (.lds d a imm) := rfl

theorem Sys2Proof.Laws.EncodedSize.st (d : BitVec 5) (a : BitVec 5) (imm : BitVec 12) : Sys2Proof.Laws.EncodedSize.Statement (.st d a imm) := rfl

theorem Sys2Proof.Laws.EncodedSize.pref (a : BitVec 5) (imm : BitVec 12) : Sys2Proof.Laws.EncodedSize.Statement (.pref a imm) := rfl

theorem Sys2Proof.Laws.EncodedSize.loadReturn (ag : Agent) (id : Nat) : Sys2Proof.Laws.EncodedSize.Statement (.loadReturn ag id) := rfl

theorem Sys2Proof.Laws.EncodedSize.qld (q : BitVec 5) (a : BitVec 5) (imm : BitVec 12) : Sys2Proof.Laws.EncodedSize.Statement (.qld q a imm) := rfl

theorem Sys2Proof.Laws.EncodedSize.qst (q : BitVec 5) (a : BitVec 5) (imm : BitVec 12) : Sys2Proof.Laws.EncodedSize.Statement (.qst q a imm) := rfl

theorem Sys2Proof.Laws.EncodedSize.qldi (q : BitVec 5) (a : BitVec 5) (imm : BitVec 12) : Sys2Proof.Laws.EncodedSize.Statement (.qldi q a imm) := rfl

theorem Sys2Proof.Laws.EncodedSize.qsti (q : BitVec 5) (a : BitVec 5) (imm : BitVec 12) : Sys2Proof.Laws.EncodedSize.Statement (.qsti q a imm) := rfl

theorem Sys2Proof.Laws.EncodedSize.queueLoadFill (ag : Agent) (id : Nat) : Sys2Proof.Laws.EncodedSize.Statement (.queueLoadFill ag id) := rfl

theorem Sys2Proof.Laws.EncodedSize.cadrG (d : BitVec 5) (a : BitVec 5) (b : BitVec 5) : Sys2Proof.Laws.EncodedSize.Statement (.cadrG d a b) := rfl

theorem Sys2Proof.Laws.EncodedSize.cadrB (d : BitVec 5) (a : BitVec 5) (b : BitVec 5) : Sys2Proof.Laws.EncodedSize.Statement (.cadrB d a b) := rfl

theorem Sys2Proof.Laws.EncodedSize.pchk (d : BitVec 5) (a : BitVec 5) (m : BitVec 5) : Sys2Proof.Laws.EncodedSize.Statement (.pchk d a m) := rfl

theorem Sys2Proof.Laws.EncodedSize.bind (d : BitVec 5) (a : BitVec 5) (b : BitVec 5) : Sys2Proof.Laws.EncodedSize.Statement (.bind d a b) := rfl

theorem Sys2Proof.Laws.EncodedSize.unbind (d : BitVec 5) (a : BitVec 5) : Sys2Proof.Laws.EncodedSize.Statement (.unbind d a) := rfl

theorem Sys2Proof.Laws.EncodedSize.acq (d : BitVec 5) (a : BitVec 5) (b : BitVec 5) (m : BitVec 5) : Sys2Proof.Laws.EncodedSize.Statement (.acq d a b m) := rfl

theorem Sys2Proof.Laws.EncodedSize.rel (d : BitVec 5) (a : BitVec 5) (m : BitVec 5) : Sys2Proof.Laws.EncodedSize.Statement (.rel d a m) := rfl

theorem Sys2Proof.Laws.EncodedSize.fence (m : BitVec 5) : Sys2Proof.Laws.EncodedSize.Statement (.fence m) := rfl

theorem Sys2Proof.Laws.EncodedSize.xfer (d : BitVec 5) (a : BitVec 5) (b : BitVec 5) (m : BitVec 5) : Sys2Proof.Laws.EncodedSize.Statement (.xfer d a b m) := rfl

theorem Sys2Proof.Laws.EncodedSize.oinit (a : BitVec 5) (b : BitVec 5) : Sys2Proof.Laws.EncodedSize.Statement (.oinit a b) := rfl

theorem Sys2Proof.Laws.EncodedSize.releasePerformed (ag : Agent) (id : Nat) : Sys2Proof.Laws.EncodedSize.Statement (.releasePerformed ag id) := rfl

theorem Sys2Proof.Laws.EncodedSize.xferPerformed (ag : Agent) (id : Nat) : Sys2Proof.Laws.EncodedSize.Statement (.xferPerformed ag id) := rfl

theorem Sys2Proof.Laws.EncodedSize.cwait (n : BitVec 5) (a : BitVec 5) (imm : BitVec 12) : Sys2Proof.Laws.EncodedSize.Statement (.cwait n a imm) := rfl

theorem Sys2Proof.Laws.EncodedSize.cwaitlt (n : BitVec 5) (k : BitVec 5) (imm : BitVec 12) : Sys2Proof.Laws.EncodedSize.Statement (.cwaitlt n k imm) := rfl

theorem Sys2Proof.Laws.EncodedSize.cinc (n : BitVec 5) (imm : BitVec 12) : Sys2Proof.Laws.EncodedSize.Statement (.cinc n imm) := rfl

theorem Sys2Proof.Laws.EncodedSize.crinc (n : BitVec 5) (a : BitVec 5) (imm : BitVec 12) : Sys2Proof.Laws.EncodedSize.Statement (.crinc n a imm) := rfl

theorem Sys2Proof.Laws.EncodedSize.cset (n : BitVec 5) (a : BitVec 5) : Sys2Proof.Laws.EncodedSize.Statement (.cset n a) := rfl

theorem Sys2Proof.Laws.EncodedSize.cread (d : BitVec 5) (n : BitVec 5) : Sys2Proof.Laws.EncodedSize.Statement (.cread d n) := rfl

theorem Sys2Proof.Laws.EncodedSize.cstat (d : BitVec 5) (n : BitVec 5) (clr : BitVec 12) : Sys2Proof.Laws.EncodedSize.Statement (.cstat d n clr) := rfl

theorem Sys2Proof.Laws.EncodedSize.tinv (c : BitVec 5) (a : BitVec 5) : Sys2Proof.Laws.EncodedSize.Statement (.tinv c a) := rfl

theorem Sys2Proof.Laws.EncodedSize.tval (c : BitVec 5) (a : BitVec 5) : Sys2Proof.Laws.EncodedSize.Statement (.tval c a) := rfl

theorem Sys2Proof.Laws.EncodedSize.tread (d : BitVec 5) (a : BitVec 5) : Sys2Proof.Laws.EncodedSize.Statement (.tread d a) := rfl

theorem Sys2Proof.Laws.EncodedSize.crincArrival (gang : Nat) (idx : Nat) : Sys2Proof.Laws.EncodedSize.Statement (.crincArrival gang idx) := rfl

theorem Sys2Proof.Laws.EncodedSize.amo (d : BitVec 5) (a : BitVec 5) (b : BitVec 5) (m : BitVec 5) : Sys2Proof.Laws.EncodedSize.Statement (.amo d a b m) := rfl

theorem Sys2Proof.Laws.EncodedSize.red (a : BitVec 5) (b : BitVec 5) (m : BitVec 5) : Sys2Proof.Laws.EncodedSize.Statement (.red a b m) := rfl

theorem Sys2Proof.Laws.EncodedSize.swap (d : BitVec 5) (a : BitVec 5) (b : BitVec 5) (m : BitVec 5) : Sys2Proof.Laws.EncodedSize.Statement (.swap d a b m) := rfl

theorem Sys2Proof.Laws.EncodedSize.cas (d : BitVec 5) (a : BitVec 5) (b : BitVec 5) (m : BitVec 5) : Sys2Proof.Laws.EncodedSize.Statement (.cas d a b m) := rfl

theorem Sys2Proof.Laws.EncodedSize.atomicPerform (ag : Agent) (id : Nat) : Sys2Proof.Laws.EncodedSize.Statement (.atomicPerform ag id) := rfl

theorem Sys2Proof.Laws.EncodedSize.accalloc (d : BitVec 5) (n : BitVec 12) : Sys2Proof.Laws.EncodedSize.Statement (.accalloc d n) := rfl

theorem Sys2Proof.Laws.EncodedSize.accfree (a : BitVec 5) (n : BitVec 12) : Sys2Proof.Laws.EncodedSize.Statement (.accfree a n) := rfl

theorem Sys2Proof.Laws.EncodedSize.mxmm (e : EngineFlags) (fmt : BitVec 3) (ck : Bool) (new : Bool) (zs : Bool) (tm : BitVec 2) (sA : BitVec 5) (sB : BitVec 5) (sS : BitVec 5) (sD : BitVec 5) (sT : BitVec 5) (sXA : BitVec 5) (sXB : BitVec 5) : Sys2Proof.Laws.EncodedSize.Statement (.mxmm e fmt ck new zs tm sA sB sS sD sT sXA sXB) := by
  change 2 * (_ ++ List.flatMap argParcels (List.take (ite (fmt = 6#3) 2 1) _)).length = 4 + 4 * (ite (fmt = 6#3) 2 1)
  by_cases h : fmt = 6#3
  · rw [if_pos h]; rfl
  · rw [if_neg h]; rfl

theorem Sys2Proof.Laws.EncodedSize.mxld (e : EngineFlags) (accum : Bool) (i32 : Bool) (tm : BitVec 2) (sA : BitVec 5) (sS : BitVec 5) (sD : BitVec 5) (sT : BitVec 5) : Sys2Proof.Laws.EncodedSize.Statement (.mxld e accum i32 tm sA sS sD sT) := rfl

theorem Sys2Proof.Laws.EncodedSize.mxclr (e : EngineFlags) (tm : BitVec 2) (sD : BitVec 5) (sT : BitVec 5) : Sys2Proof.Laws.EncodedSize.Statement (.mxclr e tm sD sT) := rfl

theorem Sys2Proof.Laws.EncodedSize.mxmma (e : EngineFlags) (new : Bool) (zs : Bool) (tm : BitVec 2) (sB : BitVec 5) (sS : BitVec 5) (sD : BitVec 5) (sT : BitVec 5) : Sys2Proof.Laws.EncodedSize.Statement (.mxmma e new zs tm sB sS sD sT) := rfl

theorem Sys2Proof.Laws.EncodedSize.mxmv (e : EngineFlags) (tr : Bool) (tm : BitVec 2) (sD : BitVec 5) (sT : BitVec 5) : Sys2Proof.Laws.EncodedSize.Statement (.mxmv e tr tm sD sT) := rfl

theorem Sys2Proof.Laws.EncodedSize.mxmark (e : EngineFlags) : Sys2Proof.Laws.EncodedSize.Statement (.mxmark e) := rfl

theorem Sys2Proof.Laws.EncodedSize.mxmarkStamped (e : EngineFlags) (tm : BitVec 2) (sT : BitVec 5) : Sys2Proof.Laws.EncodedSize.Statement (.mxmarkStamped e tm sT) := rfl

theorem Sys2Proof.Laws.EncodedSize.mxdrn (e : EngineFlags) (k : BitVec 2) (ck : Bool) (tm : BitVec 2) (sA : BitVec 5) (sB : BitVec 5) (sS : BitVec 5) (sD : BitVec 5) (sT : BitVec 5) : Sys2Proof.Laws.EncodedSize.Statement (.mxdrn e k ck tm sA sB sS sD sT) := rfl

theorem Sys2Proof.Laws.EncodedSize.mxepl (e : EngineFlags) (k : BitVec 2) (sA : BitVec 5) : Sys2Proof.Laws.EncodedSize.Statement (.mxepl e k sA) := rfl

theorem Sys2Proof.Laws.EncodedSize.mxcks (e : EngineFlags) (sD : BitVec 5) : Sys2Proof.Laws.EncodedSize.Statement (.mxcks e sD) := rfl

theorem Sys2Proof.Laws.EncodedSize.mxdrs (e : EngineFlags) (k : BitVec 2) (ck : Bool) (tm : BitVec 2) (sB : BitVec 5) (sD : BitVec 5) (sT : BitVec 5) : Sys2Proof.Laws.EncodedSize.Statement (.mxdrs e k ck tm sB sD sT) := rfl

theorem Sys2Proof.Laws.EncodedSize.mxshp (e : EngineFlags) (k : BitVec 2) (sA : BitVec 5) : Sys2Proof.Laws.EncodedSize.Statement (.mxshp e k sA) := rfl

theorem Sys2Proof.Laws.EncodedSize.mxcv (e : EngineFlags) (k : BitVec 2) (ck : Bool) (new : Bool) (zs : Bool) (tm : BitVec 2) (sA : BitVec 5) (sB : BitVec 5) (sS : BitVec 5) (sD : BitVec 5) (sT : BitVec 5) : Sys2Proof.Laws.EncodedSize.Statement (.mxcv e k ck new zs tm sA sB sS sD sT) := rfl

theorem Sys2Proof.Laws.EncodedSize.drainCheckResolve (cell : Nat) (id : Nat) : Sys2Proof.Laws.EncodedSize.Statement (.drainCheckResolve cell id) := rfl

theorem Sys2Proof.Laws.EncodedSize.vadd (e : EngineFlags) (rm : BitVec 3) (fmt : BitVec 2) (um : Bool) (sD : BitVec 5) (sA : BitVec 5) (sB : BitVec 5) (sE : BitVec 5) : Sys2Proof.Laws.EncodedSize.Statement (.vadd e rm fmt um sD sA sB sE) := rfl

theorem Sys2Proof.Laws.EncodedSize.vsub (e : EngineFlags) (rm : BitVec 3) (fmt : BitVec 2) (um : Bool) (sD : BitVec 5) (sA : BitVec 5) (sB : BitVec 5) (sE : BitVec 5) : Sys2Proof.Laws.EncodedSize.Statement (.vsub e rm fmt um sD sA sB sE) := rfl

theorem Sys2Proof.Laws.EncodedSize.vmul (e : EngineFlags) (rm : BitVec 3) (fmt : BitVec 2) (um : Bool) (sD : BitVec 5) (sA : BitVec 5) (sB : BitVec 5) (sE : BitVec 5) : Sys2Proof.Laws.EncodedSize.Statement (.vmul e rm fmt um sD sA sB sE) := rfl

theorem Sys2Proof.Laws.EncodedSize.vfma (e : EngineFlags) (rm : BitVec 3) (fmt : BitVec 2) (um : Bool) (sD : BitVec 5) (sA : BitVec 5) (sB : BitVec 5) (sC : BitVec 5) (sE : BitVec 5) : Sys2Proof.Laws.EncodedSize.Statement (.vfma e rm fmt um sD sA sB sC sE) := rfl

theorem Sys2Proof.Laws.EncodedSize.vmin (e : EngineFlags) (fmt : BitVec 2) (um : Bool) (sD : BitVec 5) (sA : BitVec 5) (sB : BitVec 5) : Sys2Proof.Laws.EncodedSize.Statement (.vmin e fmt um sD sA sB) := rfl

theorem Sys2Proof.Laws.EncodedSize.vmax (e : EngineFlags) (fmt : BitVec 2) (um : Bool) (sD : BitVec 5) (sA : BitVec 5) (sB : BitVec 5) : Sys2Proof.Laws.EncodedSize.Statement (.vmax e fmt um sD sA sB) := rfl

theorem Sys2Proof.Laws.EncodedSize.vdiv (e : EngineFlags) (rm : BitVec 3) (fmt : BitVec 2) (um : Bool) (sD : BitVec 5) (sA : BitVec 5) (sB : BitVec 5) (sE : BitVec 5) : Sys2Proof.Laws.EncodedSize.Statement (.vdiv e rm fmt um sD sA sB sE) := rfl

theorem Sys2Proof.Laws.EncodedSize.vsqrt (e : EngineFlags) (rm : BitVec 3) (fmt : BitVec 2) (um : Bool) (sD : BitVec 5) (sA : BitVec 5) (sE : BitVec 5) : Sys2Proof.Laws.EncodedSize.Statement (.vsqrt e rm fmt um sD sA sE) := rfl

theorem Sys2Proof.Laws.EncodedSize.vsgn (e : EngineFlags) (fmt : BitVec 2) (op : BitVec 2) (um : Bool) (sD : BitVec 5) (sA : BitVec 5) (sB : BitVec 5) : Sys2Proof.Laws.EncodedSize.Statement (.vsgn e fmt op um sD sA sB) := rfl

theorem Sys2Proof.Laws.EncodedSize.vcmp (e : EngineFlags) (cond : BitVec 3) (fmt : BitVec 2) (um : Bool) (sD : BitVec 5) (sA : BitVec 5) (sB : BitVec 5) : Sys2Proof.Laws.EncodedSize.Statement (.vcmp e cond fmt um sD sA sB) := rfl

theorem Sys2Proof.Laws.EncodedSize.vrsc (e : EngineFlags) (rm : BitVec 3) (fmt : BitVec 2) (um : Bool) (sD : BitVec 5) (sA : BitVec 5) (sB : BitVec 5) (sC : BitVec 5) (sE : BitVec 5) : Sys2Proof.Laws.EncodedSize.Statement (.vrsc e rm fmt um sD sA sB sC sE) := rfl

theorem Sys2Proof.Laws.EncodedSize.vrst (e : EngineFlags) (fmt : BitVec 2) (op : BitVec 2) (um : Bool) (sD : BitVec 5) (sA : BitVec 5) (sE : BitVec 5) : Sys2Proof.Laws.EncodedSize.Statement (.vrst e fmt op um sD sA sE) := rfl

theorem Sys2Proof.Laws.EncodedSize.viadd (e : EngineFlags) (iw : BitVec 2) (sat : BitVec 2) (um : Bool) (sD : BitVec 5) (sA : BitVec 5) (sB : BitVec 5) : Sys2Proof.Laws.EncodedSize.Statement (.viadd e iw sat um sD sA sB) := rfl

theorem Sys2Proof.Laws.EncodedSize.visub (e : EngineFlags) (iw : BitVec 2) (sat : BitVec 2) (um : Bool) (sD : BitVec 5) (sA : BitVec 5) (sB : BitVec 5) : Sys2Proof.Laws.EncodedSize.Statement (.visub e iw sat um sD sA sB) := rfl

theorem Sys2Proof.Laws.EncodedSize.vimul (e : EngineFlags) (iop : BitVec 3) (iw : BitVec 2) (sat : BitVec 2) (um : Bool) (sD : BitVec 5) (sA : BitVec 5) (sB : BitVec 5) : Sys2Proof.Laws.EncodedSize.Statement (.vimul e iop iw sat um sD sA sB) := rfl

theorem Sys2Proof.Laws.EncodedSize.vilog (e : EngineFlags) (iop : BitVec 3) (iw : BitVec 2) (um : Bool) (sD : BitVec 5) (sA : BitVec 5) (sB : BitVec 5) : Sys2Proof.Laws.EncodedSize.Statement (.vilog e iop iw um sD sA sB) := rfl

theorem Sys2Proof.Laws.EncodedSize.vishf (e : EngineFlags) (iop : BitVec 3) (iw : BitVec 2) (um : Bool) (sD : BitVec 5) (sA : BitVec 5) (sB : BitVec 5) : Sys2Proof.Laws.EncodedSize.Statement (.vishf e iop iw um sD sA sB) := rfl

theorem Sys2Proof.Laws.EncodedSize.vicmp (e : EngineFlags) (iop : BitVec 3) (iw : BitVec 2) (um : Bool) (sD : BitVec 5) (sA : BitVec 5) (sB : BitVec 5) : Sys2Proof.Laws.EncodedSize.Statement (.vicmp e iop iw um sD sA sB) := rfl

theorem Sys2Proof.Laws.EncodedSize.vsel (e : EngineFlags) (iw : BitVec 2) (um : Bool) (sD : BitVec 5) (sA : BitVec 5) (sB : BitVec 5) (sC : BitVec 5) : Sys2Proof.Laws.EncodedSize.Statement (.vsel e iw um sD sA sB sC) := rfl

theorem Sys2Proof.Laws.EncodedSize.vcvt (e : EngineFlags) (rm : BitVec 3) (df : BitVec 4) (um : Bool) (sat : Bool) (sD : BitVec 5) (sA : BitVec 5) (sf : BitVec 5) (sC : BitVec 5) (sE : BitVec 5) : Sys2Proof.Laws.EncodedSize.Statement (.vcvt e rm df um sat sD sA sf sC sE) := rfl

theorem Sys2Proof.Laws.EncodedSize.vred (e : EngineFlags) (fmt : BitVec 2) (op : BitVec 2) (um : Bool) (sD : BitVec 5) (sA : BitVec 5) (sE : BitVec 5) : Sys2Proof.Laws.EncodedSize.Statement (.vred e fmt op um sD sA sE) := rfl

theorem Sys2Proof.Laws.EncodedSize.vdot (e : EngineFlags) (fmt : BitVec 2) (um : Bool) (sD : BitVec 5) (sA : BitVec 5) (sB : BitVec 5) (sE : BitVec 5) : Sys2Proof.Laws.EncodedSize.Statement (.vdot e fmt um sD sA sB sE) := rfl

theorem Sys2Proof.Laws.EncodedSize.vscan (e : EngineFlags) (fmt : BitVec 2) (op : BitVec 2) (um : Bool) (sD : BitVec 5) (sA : BitVec 5) (sE : BitVec 5) : Sys2Proof.Laws.EncodedSize.Statement (.vscan e fmt op um sD sA sE) := rfl

theorem Sys2Proof.Laws.EncodedSize.vbcast (e : EngineFlags) (iw : BitVec 2) (um : Bool) (sD : BitVec 5) (sA : BitVec 5) : Sys2Proof.Laws.EncodedSize.Statement (.vbcast e iw um sD sA) := rfl

theorem Sys2Proof.Laws.EncodedSize.mpush (e : EngineFlags) (sA : BitVec 5) : Sys2Proof.Laws.EncodedSize.Statement (.mpush e sA) := rfl

theorem Sys2Proof.Laws.EncodedSize.minv (e : EngineFlags) : Sys2Proof.Laws.EncodedSize.Statement (.minv e) := rfl

theorem Sys2Proof.Laws.EncodedSize.mpop (e : EngineFlags) : Sys2Proof.Laws.EncodedSize.Statement (.mpop e) := rfl

theorem Sys2Proof.Laws.EncodedSize.bmz (off : BitVec 17) : Sys2Proof.Laws.EncodedSize.Statement (.bmz off) := rfl

theorem Sys2Proof.Laws.EncodedSize.tfn (e : EngineFlags) (fn : BitVec 4) (fmt : BitVec 2) (sr : Bool) (sD : BitVec 5) (sA : BitVec 5) (sE : BitVec 5) : Sys2Proof.Laws.EncodedSize.Statement (.tfn e fn fmt sr sD sA sE) := rfl

theorem Sys2Proof.Laws.EncodedSize.tfnx (e : EngineFlags) (fn : BitVec 4) (fmt : BitVec 2) (sr : Bool) (sD : BitVec 5) (sA : BitVec 5) (sB : BitVec 5) (sC : BitVec 5) (sE : BitVec 5) : Sys2Proof.Laws.EncodedSize.Statement (.tfnx e fn fmt sr sD sA sB sC sE) := rfl

theorem Sys2Proof.Laws.EncodedSize.tver (e : EngineFlags) (sD : BitVec 5) : Sys2Proof.Laws.EncodedSize.Statement (.tver e sD) := rfl

theorem Sys2Proof.Laws.EncodedSize.tvchk (e : EngineFlags) (sA : BitVec 5) : Sys2Proof.Laws.EncodedSize.Statement (.tvchk e sA) := rfl

theorem Sys2Proof.Laws.EncodedSize.cpy (e : EngineFlags) (crc : Bool) (tm : BitVec 2) (sD : BitVec 5) (sA : BitVec 5) (sB : BitVec 5) (sT : BitVec 5) (sR : BitVec 5) : Sys2Proof.Laws.EncodedSize.Statement (.cpy e crc tm sD sA sB sT sR) := by
  change 2 * (_ ++ List.flatMap argParcels (List.take (ite (sR = 0#5) 1 2) _)).length = 4 + 4 * (ite (sR = 0#5) 1 2)
  by_cases h : sR = 0#5
  · rw [if_pos h]; rfl
  · rw [if_neg h]; rfl

theorem Sys2Proof.Laws.EncodedSize.cpy2 (e : EngineFlags) (crc : Bool) (tm : BitVec 2) (sD : BitVec 5) (sA : BitVec 5) (sB : BitVec 5) (sC : BitVec 5) (sT : BitVec 5) (sR : BitVec 5) : Sys2Proof.Laws.EncodedSize.Statement (.cpy2 e crc tm sD sA sB sC sT sR) := by
  change 2 * (_ ++ List.flatMap argParcels (List.take (ite (sR = 0#5) 1 2) _)).length = 4 + 4 * (ite (sR = 0#5) 1 2)
  by_cases h : sR = 0#5
  · rw [if_pos h]; rfl
  · rw [if_neg h]; rfl

theorem Sys2Proof.Laws.EncodedSize.cfill (e : EngineFlags) (crc : Bool) (tm : BitVec 2) (sD : BitVec 5) (sB : BitVec 5) (sC : BitVec 5) (sT : BitVec 5) (sR : BitVec 5) : Sys2Proof.Laws.EncodedSize.Statement (.cfill e crc tm sD sB sC sT sR) := by
  change 2 * (_ ++ List.flatMap argParcels (List.take (ite (sR = 0#5) 1 2) _)).length = 4 + 4 * (ite (sR = 0#5) 1 2)
  by_cases h : sR = 0#5
  · rw [if_pos h]; rfl
  · rw [if_neg h]; rfl

theorem Sys2Proof.Laws.EncodedSize.cpym (e : EngineFlags) (crc : Bool) (tm : BitVec 2) (sD : BitVec 5) (sA : BitVec 5) (sB : BitVec 5) (sT : BitVec 5) (sM : BitVec 5) (sR : BitVec 5) : Sys2Proof.Laws.EncodedSize.Statement (.cpym e crc tm sD sA sB sT sM sR) := rfl

theorem Sys2Proof.Laws.EncodedSize.cpym2 (e : EngineFlags) (crc : Bool) (tm : BitVec 2) (sD : BitVec 5) (sA : BitVec 5) (sB : BitVec 5) (sC : BitVec 5) (sT : BitVec 5) (sM : BitVec 5) (sR : BitVec 5) : Sys2Proof.Laws.EncodedSize.Statement (.cpym2 e crc tm sD sA sB sC sT sM sR) := rfl

theorem Sys2Proof.Laws.EncodedSize.ccrc (e : EngineFlags) (crc : Bool) (tm : BitVec 2) (sA : BitVec 5) (sB : BitVec 5) (sT : BitVec 5) (sR : BitVec 5) : Sys2Proof.Laws.EncodedSize.Statement (.ccrc e crc tm sA sB sT sR) := rfl

theorem Sys2Proof.Laws.EncodedSize.gth (e : EngineFlags) (sD : BitVec 5) (sA : BitVec 5) (sB : BitVec 5) (sC : BitVec 5) (sE : BitVec 5) : Sys2Proof.Laws.EncodedSize.Statement (.gth e sD sA sB sC sE) := rfl

theorem Sys2Proof.Laws.EncodedSize.sct (e : EngineFlags) (op : BitVec 3) (fmt : BitVec 4) (sD : BitVec 5) (sA : BitVec 5) (sB : BitVec 5) (sC : BitVec 5) (sE : BitVec 5) : Sys2Proof.Laws.EncodedSize.Statement (.sct e op fmt sD sA sB sC sE) := rfl

theorem Sys2Proof.Laws.EncodedSize.gred (e : EngineFlags) (op : BitVec 3) (fmt : BitVec 4) (sD : BitVec 5) (sA : BitVec 5) (sB : BitVec 5) (sC : BitVec 5) (sE : BitVec 5) (sO : BitVec 5) : Sys2Proof.Laws.EncodedSize.Statement (.gred e op fmt sD sA sB sC sE sO) := rfl

theorem Sys2Proof.Laws.EncodedSize.topk (e : EngineFlags) (up : Bool) (fmt : BitVec 4) (sD : BitVec 5) (sA : BitVec 5) (sB : BitVec 5) (sC : BitVec 5) (sE : BitVec 5) : Sys2Proof.Laws.EncodedSize.Statement (.topk e up fmt sD sA sB sC sE) := rfl

theorem Sys2Proof.Laws.EncodedSize.psort (e : EngineFlags) (up : Bool) (fmt : BitVec 4) (sD : BitVec 5) (sA : BitVec 5) (sB : BitVec 5) (sC : BitVec 5) (sE : BitVec 5) : Sys2Proof.Laws.EncodedSize.Statement (.psort e up fmt sD sA sB sC sE) := rfl

theorem Sys2Proof.Laws.EncodedSize.gscan (e : EngineFlags) (exc : Bool) (fmt : BitVec 4) (sD : BitVec 5) (sA : BitVec 5) (sB : BitVec 5) (sC : BitVec 5) (sE : BitVec 5) : Sys2Proof.Laws.EncodedSize.Statement (.gscan e exc fmt sD sA sB sC sE) := rfl

theorem Sys2Proof.Laws.EncodedSize.ghist (e : EngineFlags) (clamp : Bool) (accum : Bool) (fmt : BitVec 4) (sD : BitVec 5) (sA : BitVec 5) : Sys2Proof.Laws.EncodedSize.Statement (.ghist e clamp accum fmt sD sA) := rfl

theorem Sys2Proof.Laws.EncodedSize.rndh (e : EngineFlags) (seed : Bool) (fmt : BitVec 4) (sD : BitVec 5) (sA : BitVec 5) (sB : BitVec 5) : Sys2Proof.Laws.EncodedSize.Statement (.rndh e seed fmt sD sA sB) := rfl

theorem Sys2Proof.Laws.EncodedSize.lred (e : EngineFlags) (op : BitVec 3) (w : BitVec 2) (sD : BitVec 5) (sA : BitVec 5) : Sys2Proof.Laws.EncodedSize.Statement (.lred e op w sD sA) := rfl

theorem Sys2Proof.Laws.EncodedSize.lopen (e : EngineFlags) (op : BitVec 3) (fmt : BitVec 2) (sD : BitVec 5) (sA : BitVec 5) (sB : BitVec 5) : Sys2Proof.Laws.EncodedSize.Statement (.lopen e op fmt sD sA sB) := rfl

theorem Sys2Proof.Laws.EncodedSize.lord (e : EngineFlags) (fmt : BitVec 2) (sA : BitVec 5) (sB : BitVec 5) : Sys2Proof.Laws.EncodedSize.Statement (.lord e fmt sA sB) := rfl

theorem Sys2Proof.Laws.EncodedSize.lwag (e : EngineFlags) (sA : BitVec 5) (sB : BitVec 5) (sC : BitVec 5) (sE : BitVec 5) : Sys2Proof.Laws.EncodedSize.Statement (.lwag e sA sB sC sE) := rfl

theorem Sys2Proof.Laws.EncodedSize.lordArrival (cell : Nat) (id : Nat) : Sys2Proof.Laws.EncodedSize.Statement (.lordArrival cell id) := rfl

theorem Sys2Proof.Laws.EncodedSize.waggleArrival (cell : Nat) (id : Nat) : Sys2Proof.Laws.EncodedSize.Statement (.waggleArrival cell id) := rfl

theorem Sys2Proof.Laws.EncodedSize.engineCommandStart (cell : Nat) (id : Nat) : Sys2Proof.Laws.EncodedSize.Statement (.engineCommandStart cell id) := rfl

theorem Sys2Proof.Laws.EncodedSize.granuleCommit (cell : Nat) (id : Nat) : Sys2Proof.Laws.EncodedSize.Statement (.granuleCommit cell id) := rfl

theorem Sys2Proof.Laws.EncodedSize.tagWait (cell : Nat) (id : Nat) : Sys2Proof.Laws.EncodedSize.Statement (.tagWait cell id) := rfl

theorem Sys2Proof.Laws.EncodedSize.translationReply (ag : Agent) (eng : Bool) (id : Nat) : Sys2Proof.Laws.EncodedSize.Statement (.translationReply ag eng id) := rfl

theorem Sys2Proof.Laws.EncodedSize.stampStart (cell : Nat) (id : Nat) : Sys2Proof.Laws.EncodedSize.Statement (.stampStart cell id) := rfl

theorem Sys2Proof.Laws.EncodedSize.engineCommandComplete (cell : Nat) (id : Nat) : Sys2Proof.Laws.EncodedSize.Statement (.engineCommandComplete cell id) := rfl

theorem Sys2Proof.Laws.EncodedSize.rdcyc (d : BitVec 5) : Sys2Proof.Laws.EncodedSize.Statement (.rdcyc d) := rfl

theorem Sys2Proof.Laws.EncodedSize.rdgcyc (d : BitVec 5) : Sys2Proof.Laws.EncodedSize.Statement (.rdgcyc d) := rfl

theorem Sys2Proof.Laws.EncodedSize.rdtinf (d : BitVec 5) (sel : BitVec 5) : Sys2Proof.Laws.EncodedSize.Statement (.rdtinf d sel) := rfl

theorem Sys2Proof.Laws.EncodedSize.realign (a : BitVec 5) (t : BitVec 5) : Sys2Proof.Laws.EncodedSize.Statement (.realign a t) := rfl

theorem Sys2Proof.Laws.EncodedSize.twait (a : BitVec 5) (t : BitVec 5) : Sys2Proof.Laws.EncodedSize.Statement (.twait a t) := rfl

theorem Sys2Proof.Laws.EncodedSize.realignResume (gang : Nat) : Sys2Proof.Laws.EncodedSize.Statement (.realignResume gang) := rfl

theorem Sys2Proof.Laws.EncodedSize.twaitExpiry (cell : Nat) : Sys2Proof.Laws.EncodedSize.Statement (.twaitExpiry cell) := rfl

theorem Sys2Proof.Laws.EncodedSize.tnext (d : BitVec 5) : Sys2Proof.Laws.EncodedSize.Statement (.tnext d) := rfl

theorem Sys2Proof.Laws.EncodedSize.tinfo (d : BitVec 5) (sel : BitVec 5) : Sys2Proof.Laws.EncodedSize.Statement (.tinfo d sel) := rfl

theorem Sys2Proof.Laws.EncodedSize.gbarRelease (gang : Nat) : Sys2Proof.Laws.EncodedSize.Statement (.gbarRelease gang) := rfl

theorem Sys2Proof.Laws.EncodedSize.klaunch (d : BitVec 5) (a : BitVec 5) (b : BitVec 5) : Sys2Proof.Laws.EncodedSize.Statement (.klaunch d a b) := rfl

theorem Sys2Proof.Laws.EncodedSize.sxin (d : BitVec 5) (a : BitVec 5) (b : BitVec 5) : Sys2Proof.Laws.EncodedSize.Statement (.sxin d a b) := rfl

theorem Sys2Proof.Laws.EncodedSize.sxout (d : BitVec 5) (a : BitVec 5) (b : BitVec 5) : Sys2Proof.Laws.EncodedSize.Statement (.sxout d a b) := rfl

theorem Sys2Proof.Laws.EncodedSize.swait (d : BitVec 5) (a : BitVec 5) : Sys2Proof.Laws.EncodedSize.Statement (.swait d a) := rfl

theorem Sys2Proof.Laws.EncodedSize.evget (d : BitVec 5) : Sys2Proof.Laws.EncodedSize.Statement (.evget d) := rfl

theorem Sys2Proof.Laws.EncodedSize.evgetNb (d : BitVec 5) : Sys2Proof.Laws.EncodedSize.Statement (.evgetNb d) := rfl

theorem Sys2Proof.Laws.EncodedSize.lcancel (a : BitVec 5) : Sys2Proof.Laws.EncodedSize.Statement (.lcancel a) := rfl

theorem Sys2Proof.Laws.EncodedSize.tret (d : BitVec 5) (a : BitVec 5) : Sys2Proof.Laws.EncodedSize.Statement (.tret d a) := rfl

theorem Sys2Proof.Laws.EncodedSize.tretEmu (d : BitVec 5) (a : BitVec 5) : Sys2Proof.Laws.EncodedSize.Statement (.tretEmu d a) := rfl

theorem Sys2Proof.Laws.EncodedSize.tretKill (d : BitVec 5) (a : BitVec 5) : Sys2Proof.Laws.EncodedSize.Statement (.tretKill d a) := rfl

theorem Sys2Proof.Laws.EncodedSize.tqwait (d : BitVec 5) : Sys2Proof.Laws.EncodedSize.Statement (.tqwait d) := rfl

theorem Sys2Proof.Laws.EncodedSize.rdsr (d : BitVec 5) (a : BitVec 5) : Sys2Proof.Laws.EncodedSize.Statement (.rdsr d a) := rfl

theorem Sys2Proof.Laws.EncodedSize.wrsr (a : BitVec 5) (b : BitVec 5) : Sys2Proof.Laws.EncodedSize.Statement (.wrsr a b) := rfl

theorem Sys2Proof.Laws.EncodedSize.ibinv (a : BitVec 5) : Sys2Proof.Laws.EncodedSize.Statement (.ibinv a) := rfl

theorem Sys2Proof.Laws.EncodedSize.cpatch (d : BitVec 5) (a : BitVec 5) (b : BitVec 5) : Sys2Proof.Laws.EncodedSize.Statement (.cpatch d a b) := rfl

theorem Sys2Proof.Laws.EncodedSize.pswap (d : BitVec 5) (a : BitVec 5) (b : BitVec 5) : Sys2Proof.Laws.EncodedSize.Statement (.pswap d a b) := rfl

theorem Sys2Proof.Laws.EncodedSize.ctxsv (d : BitVec 5) (a : BitVec 5) (b : BitVec 5) : Sys2Proof.Laws.EncodedSize.Statement (.ctxsv d a b) := rfl

theorem Sys2Proof.Laws.EncodedSize.ctxld (d : BitVec 5) (a : BitVec 5) : Sys2Proof.Laws.EncodedSize.Statement (.ctxld d a) := rfl

theorem Sys2Proof.Laws.EncodedSize.ptupd (d : BitVec 5) (a : BitVec 5) (b : BitVec 5) : Sys2Proof.Laws.EncodedSize.Statement (.ptupd d a b) := rfl

theorem Sys2Proof.Laws.EncodedSize.tlbinv (a : BitVec 5) (b : BitVec 5) : Sys2Proof.Laws.EncodedSize.Statement (.tlbinv a b) := rfl

theorem Sys2Proof.Laws.EncodedSize.xlat (d : BitVec 5) (a : BitVec 5) (m : BitVec 5) : Sys2Proof.Laws.EncodedSize.Statement (.xlat d a m) := rfl

theorem Sys2Proof.Laws.EncodedSize.wqry (d : BitVec 5) (a : BitVec 5) (sel : BitVec 5) : Sys2Proof.Laws.EncodedSize.Statement (.wqry d a sel) := rfl

theorem Sys2Proof.Laws.EncodedSize.wset (d : BitVec 5) (a : BitVec 5) (b : BitVec 5) : Sys2Proof.Laws.EncodedSize.Statement (.wset d a b) := rfl

theorem Sys2Proof.Laws.EncodedSize.scanComplete (part : Nat) : Sys2Proof.Laws.EncodedSize.Statement (.scanComplete part) := rfl

theorem Sys2Proof.Laws.EncodedSize.replicaStep (part : Nat) (slot : Nat) : Sys2Proof.Laws.EncodedSize.Statement (.replicaStep part slot) := rfl

theorem Sys2Proof.Laws.EncodedSize.cellHalt (cell : Nat) : Sys2Proof.Laws.EncodedSize.Statement (.cellHalt cell) := rfl

theorem Sys2Proof.Laws.EncodedSize.pswapExchange (part : Nat) : Sys2Proof.Laws.EncodedSize.Statement (.pswapExchange part) := rfl

theorem Sys2Proof.Laws.EncodedSize.restoredGangDispatch (gang : Nat) : Sys2Proof.Laws.EncodedSize.Statement (.restoredGangDispatch gang) := rfl

theorem Sys2Proof.Laws.EncodedSize.wqTailWrite (n : Nat) (tail : BitVec 32) : Sys2Proof.Laws.EncodedSize.Statement (.wqTailWrite n tail) := rfl

theorem Sys2Proof.Laws.EncodedSize.wqCancel (n : Nat) (cseq : BitVec 32) : Sys2Proof.Laws.EncodedSize.Statement (.wqCancel n cseq) := rfl

theorem Sys2Proof.Laws.EncodedSize.launchStart (part : Nat) : Sys2Proof.Laws.EncodedSize.Statement (.launchStart part) := rfl

theorem Sys2Proof.Laws.EncodedSize.launchCompletion (launch : Nat) : Sys2Proof.Laws.EncodedSize.Statement (.launchCompletion launch) := rfl

theorem Sys2Proof.Laws.EncodedSize.kernelEligible (launch : Nat) (handle : Nat) : Sys2Proof.Laws.EncodedSize.Statement (.kernelEligible launch handle) := rfl

theorem Sys2Proof.Laws.EncodedSize.gangDispatch (launch : Nat) (handle : Nat) : Sys2Proof.Laws.EncodedSize.Statement (.gangDispatch launch handle) := rfl

theorem Sys2Proof.Laws.EncodedSize.gangBaseCycle (gang : Nat) : Sys2Proof.Laws.EncodedSize.Statement (.gangBaseCycle gang) := rfl

theorem Sys2Proof.Laws.EncodedSize.streamTransfer (launch : Nat) (handle : Nat) : Sys2Proof.Laws.EncodedSize.Statement (.streamTransfer launch handle) := rfl

theorem Sys2Proof.Laws.EncodedSize.streamCompletion (launch : Nat) (handle : Nat) : Sys2Proof.Laws.EncodedSize.Statement (.streamCompletion launch handle) := rfl

theorem Sys2Proof.Laws.EncodedSize.cellExit (cell : Nat) : Sys2Proof.Laws.EncodedSize.Statement (.cellExit cell) := rfl

theorem Sys2Proof.Laws.EncodedSize.gangExit (gang : Nat) : Sys2Proof.Laws.EncodedSize.Statement (.gangExit gang) := rfl

theorem Sys2Proof.Laws.EncodedSize.samplingIntervalEnd (readings : List (Nat × BitVec 64 × BitVec 64)) : Sys2Proof.Laws.EncodedSize.Statement (.samplingIntervalEnd readings) := rfl

theorem Sys2Proof.Laws.EncodedSize.mirrorTimeout (part : Nat) : Sys2Proof.Laws.EncodedSize.Statement (.mirrorTimeout part) := rfl

theorem Sys2Proof.Laws.EncodedSize.contextSaveComplete (part : Nat) : Sys2Proof.Laws.EncodedSize.Statement (.contextSaveComplete part) := rfl

theorem Sys2Proof.Laws.EncodedSize.scalarWritePerformed (ag : Agent) (id : Nat) : Sys2Proof.Laws.EncodedSize.Statement (.scalarWritePerformed ag id) := rfl

theorem Sys2Proof.Laws.EncodedSize.tqheadWrite (part : Nat) (val : BitVec 64) : Sys2Proof.Laws.EncodedSize.Statement (.tqheadWrite part val) := rfl

theorem Sys2Proof.Laws.EncodedSize.wqcfgWrite (root : Bool) (n : Nat) (val : BitVec 64) : Sys2Proof.Laws.EncodedSize.Statement (.wqcfgWrite root n val) := rfl

theorem Sys2Proof.Laws.EncodedSize.sysregWrite (root : Bool) (num : BitVec 64) (val : BitVec 64) : Sys2Proof.Laws.EncodedSize.Statement (.sysregWrite root num val) := rfl

theorem Sys2Proof.Laws.EncodedSize.packageReset (test : SelfTest) : Sys2Proof.Laws.EncodedSize.Statement (.packageReset test) := rfl

theorem Sys2Proof.Laws.EncodedSize.monitorAlarm (unit : Nat) : Sys2Proof.Laws.EncodedSize.Statement (.monitorAlarm unit) := rfl

theorem Sys2Proof.Laws.EncodedSize.patrolScrub (place : Store) : Sys2Proof.Laws.EncodedSize.Statement (.patrolScrub place) := rfl

theorem Sys2Proof.Laws.EncodedSize.mirrorAck (part : Nat) : Sys2Proof.Laws.EncodedSize.Statement (.mirrorAck part) := rfl

theorem Sys2Proof.Laws.EncodedSize.bufferDieFailure (slot : Nat) : Sys2Proof.Laws.EncodedSize.Statement (.bufferDieFailure slot) := rfl

theorem Sys2Proof.Laws.EncodedSize.eyeMarginPrediction (link : Nat) : Sys2Proof.Laws.EncodedSize.Statement (.eyeMarginPrediction link) := rfl

theorem Sys2Proof.Laws.EncodedSize.hostLinkDown (port : Bool) : Sys2Proof.Laws.EncodedSize.Statement (.hostLinkDown port) := rfl

theorem Sys2Proof.Laws.EncodedSize.hostMemoryAccess (port : Bool) (op : HostAccess) : Sys2Proof.Laws.EncodedSize.Statement (.hostMemoryAccess port op) := rfl

theorem Sys2Proof.Laws.EncodedSize.hsemAcquire (port : Bool) : Sys2Proof.Laws.EncodedSize.Statement (.hsemAcquire port) := rfl

theorem Sys2Proof.Laws.EncodedSize.hsemRelease (port : Bool) : Sys2Proof.Laws.EncodedSize.Statement (.hsemRelease port) := rfl

theorem Sys2Proof.Laws.EncodedSize.formPartition (port : Bool) (addr : BitVec 64) : Sys2Proof.Laws.EncodedSize.Statement (.formPartition port addr) := rfl

theorem Sys2Proof.Laws.EncodedSize.dissolvePartition (port : Bool) (addr : BitVec 64) : Sys2Proof.Laws.EncodedSize.Statement (.dissolvePartition port addr) := rfl

theorem Sys2Proof.Laws.EncodedSize.writeWpol (port : Bool) (addr : BitVec 64) : Sys2Proof.Laws.EncodedSize.Statement (.writeWpol port addr) := rfl

theorem Sys2Proof.Laws.EncodedSize.writeCethr (port : Bool) (addr : BitVec 64) : Sys2Proof.Laws.EncodedSize.Statement (.writeCethr port addr) := rfl

theorem Sys2Proof.Laws.EncodedSize.stageFirmware (port : Bool) (addr : BitVec 64) : Sys2Proof.Laws.EncodedSize.Statement (.stageFirmware port addr) := rfl

theorem Sys2Proof.Laws.EncodedSize.layoutReservedOp (port : Bool) (op : BitVec 4) (addr : BitVec 64) : Sys2Proof.Laws.EncodedSize.Statement (.layoutReservedOp port op addr) := rfl

theorem Sys2Proof.Laws.EncodedSize.getVersion (port : Bool) (req : List (BitVec 8)) : Sys2Proof.Laws.EncodedSize.Statement (.getVersion port req) := rfl

theorem Sys2Proof.Laws.EncodedSize.getCapabilities (port : Bool) (req : List (BitVec 8)) : Sys2Proof.Laws.EncodedSize.Statement (.getCapabilities port req) := rfl

theorem Sys2Proof.Laws.EncodedSize.negotiateAlgorithms (port : Bool) (req : List (BitVec 8)) : Sys2Proof.Laws.EncodedSize.Statement (.negotiateAlgorithms port req) := rfl

theorem Sys2Proof.Laws.EncodedSize.getDigests (port : Bool) (req : List (BitVec 8)) : Sys2Proof.Laws.EncodedSize.Statement (.getDigests port req) := rfl

theorem Sys2Proof.Laws.EncodedSize.getCertificate (port : Bool) (req : List (BitVec 8)) : Sys2Proof.Laws.EncodedSize.Statement (.getCertificate port req) := rfl

theorem Sys2Proof.Laws.EncodedSize.challenge (port : Bool) (req : List (BitVec 8)) : Sys2Proof.Laws.EncodedSize.Statement (.challenge port req) := rfl

theorem Sys2Proof.Laws.EncodedSize.getMeasurements (port : Bool) (req : List (BitVec 8)) : Sys2Proof.Laws.EncodedSize.Statement (.getMeasurements port req) := rfl

theorem Sys2Proof.Laws.EncodedSize.pskExchange (port : Bool) (req : List (BitVec 8)) : Sys2Proof.Laws.EncodedSize.Statement (.pskExchange port req) := rfl

theorem Sys2Proof.Laws.EncodedSize.hostLinkUp (port : Bool) : Sys2Proof.Laws.EncodedSize.Statement (.hostLinkUp port) := rfl

theorem Sys2Proof.Laws.EncodedSize.mirrorWriteReceive (pa : Nat) (data : List (BitVec 8)) : Sys2Proof.Laws.EncodedSize.Statement (.mirrorWriteReceive pa data) := rfl

theorem Sys2Proof.Laws.EncodedSize.softError (place : Store) (double : Bool) : Sys2Proof.Laws.EncodedSize.Statement (.softError place double) := rfl

theorem Sys2Proof.Laws.EncodedSize.arrayUndervolt (unit : Nat) (array : Nat) : Sys2Proof.Laws.EncodedSize.Statement (.arrayUndervolt unit array) := rfl

theorem Sys2Proof.Laws.EncodedSize.ideKmKeyProg (port : Bool) (req : List (BitVec 8)) : Sys2Proof.Laws.EncodedSize.Statement (.ideKmKeyProg port req) := rfl

theorem Sys2Proof.Laws.EncodedSize.exit : Sys2Proof.Laws.EncodedSize.Statement (.exit) := rfl

theorem Sys2Proof.Laws.EncodedSize.nop : Sys2Proof.Laws.EncodedSize.Statement (.nop) := rfl

theorem Sys2Proof.Laws.EncodedSize.mpopShort : Sys2Proof.Laws.EncodedSize.Statement (.mpopShort) := rfl

theorem Sys2Proof.Laws.EncodedSize.minvShort : Sys2Proof.Laws.EncodedSize.Statement (.minvShort) := rfl

theorem Sys2Proof.Laws.EncodedSize.retShort : Sys2Proof.Laws.EncodedSize.Statement (.retShort) := rfl

theorem Sys2Proof.Laws.EncodedSize.exitShort : Sys2Proof.Laws.EncodedSize.Statement (.exitShort) := rfl

theorem Sys2Proof.Laws.EncodedSize.gbar : Sys2Proof.Laws.EncodedSize.Statement (.gbar) := rfl

theorem Sys2Proof.Laws.EncodedSize.launchAgeing : Sys2Proof.Laws.EncodedSize.Statement (.launchAgeing) := rfl

theorem Sys2Proof.Laws.EncodedSize.lifetimeCommit : Sys2Proof.Laws.EncodedSize.Statement (.lifetimeCommit) := rfl

theorem Sys2Proof.Laws.EncodedSize.errorWindowEnd : Sys2Proof.Laws.EncodedSize.Statement (.errorWindowEnd) := rfl

theorem Sys2Proof.Laws.EncodedSize.packageLinkUp : Sys2Proof.Laws.EncodedSize.Statement (.packageLinkUp) := rfl
end

