-- ==== Sys2Proof/Tests/Slice0.lean ====
section
/-! SUPPORT. Tests and witnesses, each about one step or one operation on a small state. Expected values come from the
manual's examples and tables. A `witness_` theorem shows a state and operands that meet the hypotheses of the statement of its
name, clause by clause. -/

namespace Sys2Proof.Tests

open Sys2Proof Sys2Proof.Machine

set_option Elab.async false

/-! ## Decoding

The words stand as the manual's examples give them; for a family without an example they are the sum of the fields that its
encoding table names. -/

/-- The parcels of 32-bit words, the high parcel of each first (03 R43). -/
def words (ws : List Nat) : List Parcel :=
  ws.flatMap (fun w => [BitVec.ofNat 16 (w / 2 ^ 16), BitVec.ofNat 16 w])

/-- The words decode to the instruction, and nothing is left over. -/
def decodesTo (ws : List Nat) (i : Instr) : Bool :=
  match decode (words ws) with
  | .ok p => decide (p = (i, []))
  | .error _ => false

/-- The parcel decodes to the instruction. -/
def shortDecodesTo (p : Parcel) (i : Instr) : Bool :=
  match decode [p] with
  | .ok r => decide (r = (i, []))
  | .error _ => false

/-- Why the parcels are rejected. -/
def rejected (ps : List Parcel) : Option DecodeError :=
  match decode ps with
  | .ok _ => none
  | .error e => some e

/-- The common fields of a command that names a counter, or none, and acquires and releases nothing. -/
def flagsOf (cnt : Option (BitVec 5)) : EngineFlags :=
  { ce := cnt.isSome, cnt := cnt.getD 0, acq := false, rel := false, scope := 0, tag := false }

/-- Example 4-1: .rep 2 of length 2, and .rep mb1 of length 1. -/
theorem test_decode_blk :
    decodesTo [0x80002002] (.blkImmediate 2 2) = true ∧ decodesTo [0x82021001] (.blkRegister 33 1) = true := by decide +kernel

/-- Example 4-2: bz s4 over three parcels; br of −1 from its format, halt 5. -/
theorem test_decode_ctl :
    decodesTo [0x84120003] (.bz 4 3) = true ∧ decodesTo [0x80000000 + 0x01 * 2 ^ 26 + 3 * 2 ^ 24 + 0x7FFF] (.br (-1)) = true ∧
    decodesTo [0x80000000 + 0x01 * 2 ^ 26 + 0x8 * 2 ^ 20 + 5] (.halt 5) = true := by decide +kernel

/-- The short words of Examples 11-1, 18-1 and 24-1, and cinc cc1, 2. -/
theorem test_decode_short :
    shortDecodesTo 0x2400 .minvShort = true ∧ shortDecodesTo 0x2000 .mpopShort = true ∧
    shortDecodesTo 0x2C00 .exitShort = true ∧ shortDecodesTo 0x0403 (.brk 3) = true ∧ shortDecodesTo 0x0000 .nop = true ∧
    shortDecodesTo (BitVec.ofNat 16 (6 * 2 ^ 10 + 1 * 2 ^ 5 + 1)) (.cincShort 1 1) = true := by decide +kernel

/-- Example 5-2: add s3, s4, s5, 3 and mov s6, mb2. -/
theorem test_decode_alu :
    decodesTo [0x880190A3] (.add 3 4 5 3) = true ∧ decodesTo [0x88F30803] (.mov 6 2 3) = true := by decide +kernel

/-- Table 24-1: addi s4, s4, 128; seqi s1, s2, −1, whose immediate has its two high bits in bits 25:24. -/
theorem test_decode_alui :
    decodesTo [0x8C021080] (.addi 4 4 128) = true ∧
    decodesTo [0x80000000 + 0x03 * 2 ^ 26 + 3 * 2 ^ 24 + 0xB * 2 ^ 20 + 1 * 2 ^ 15 + 2 * 2 ^ 10 + 0x3FF] (.seqi 1 2 (-1)) = true := by
  decide +kernel

/-- Example 5-2: li s5, 0x3F80; Example 24-4: li s9, 0x8000 and lsh s9, 0x2936; Table 24-1: lown s6, 2. -/
theorem test_decode_wide :
    decodesTo [0x9002BF80] (.li 5 0x3F80) = true ∧ decodesTo [0x91048000] (.li 9 0x8000) = true ∧
    decodesTo [0x9014A936] (.lsh 9 0x2936) = true ∧ decodesTo [0x90230002] (.lown 6 2) = true := by decide +kernel

/-- popc.16 s1, s2 and bfx with a length of 8 (05 R101, R103). -/
theorem test_decode_bits :
    decodesTo [0x80000000 + 0x05 * 2 ^ 26 + 0x2 * 2 ^ 20 + 1 * 2 ^ 15 + 2 * 2 ^ 10 + 1] (.popc 1 2 1) = true ∧
    decodesTo [0x80000000 + 0x05 * 2 ^ 26 + 0x5 * 2 ^ 20 + 1 * 2 ^ 15 + 2 * 2 ^ 10 + 3 * 2 ^ 5 + 7] (.bfx 1 2 3 7) = true := by
  decide +kernel

/-- rem s1, s2, s3: minor 0x3 with M = 1 (05 R104). -/
theorem test_decode_muld :
    decodesTo [0x80000000 + 0x06 * 2 ^ 26 + 0x3 * 2 ^ 20 + 1 * 2 ^ 15 + 2 * 2 ^ 10 + 3 * 2 ^ 5 + 1] (.rem 1 2 3) = true := by
  decide +kernel

/-- Example 5-4: mv.1.rtz F.cvt.l.s, g3 and mvi.0 I.o, −5; Example 5-5: the short moves 0x4436 and 0x7C12. -/
theorem test_decode_xmov :
    decodesTo [0x9C022E43] (.mv 1 1 0x39 3) = true ∧ decodesTo [0x9C1087FB] (.mvi 0 0x10 (-5)) = true ∧
    shortDecodesTo 0x4436 (.mvShort 0 0x21 0x16) = true ∧ shortDecodesTo 0x7C12 (.mvShort 3 0x60 0x12) = true := by decide +kernel

/-- Table 24-1: ld.64 s5, s3, 8; Table 20-2: st.64 s9, 16, s12. -/
theorem test_decode_smem :
    decodesTo [0xA3028C01] (.ld 5 3 (3 * 1024 + 1)) = true ∧ decodesTo [0xA3262402] (.st 12 9 (3 * 1024 + 2)) = true := by
  decide +kernel

/-- Example 6-2: qldi.32 lq1, s7, 4 and qsti.32 s8, 4, sq0. -/
theorem test_decode_qmem :
    decodesTo [0xA6209C01] (.qldi 1 7 (2 * 1024 + 1)) = true ∧ decodesTo [0xA6302001] (.qsti 0 8 (2 * 1024 + 1)) = true := by
  decide +kernel

/-- Example 6-1: cadr.g s9, s10, s11 and cadr.b. -/
theorem test_decode_path :
    decodesTo [0xA804A960] (.cadrG 9 10 11) = true ∧ decodesTo [0xA804A961] (.cadrB 9 10 11) = true := by decide +kernel

/-- Table 7-5. -/
theorem test_decode_sync :
    decodesTo [0xAC04B1A0] (.bind 9 12 13) = true ∧ decodesTo [0xAC22A553] (.acq 5 9 10 0x13) = true ∧
    decodesTo [0xAC30240C] (.rel 0 9 0xC) = true ∧ decodesTo [0xAC400004] (.fence 4) = true := by decide +kernel

/-- The words of Example 8-1. -/
theorem test_decode_counters :
    decodesTo [0xB0110040] (.cwaitlt 2 0 64) = true ∧ decodesTo [0xB0329C00] (.crinc 5 7 0) = true ∧
    decodesTo [0xB0621801] (.cstat 4 6 1) = true ∧ decodesTo [0xB0208063] (.cinc 1 99) = true := by decide +kernel

/-- Example 8-1: amo.add.64 s5, s6, s7. -/
theorem test_decode_amo : decodesTo [0xB40298F8] (.amo 5 6 7 0b11000) = true := by decide +kernel

/-- Example 9-1: accalloc s5, 2 and accfree s4, 8. -/
theorem test_decode_acc :
    decodesTo [0xB8028002] (.accalloc 5 2) = true ∧ decodesTo [0xB8101008] (.accfree 4 8) = true := by decide +kernel

/-- Example 9-2: mxmm.bf16.new s10, s4, s5, s6, cc2. -/
theorem test_decode_mxm :
    decodesTo [0xBD088008, 0xFC429940] (.mxmm (flagsOf (some 2)) 0 false true false 0 4 5 6 10 0 0 0) = true := by decide +kernel

/-- Example 10-1: mxdrn.e1.ck.rel.pkg.tag s10, s4, s0, s6, cc3 and mxepl.e1 s7. -/
theorem test_decode_drn :
    decodesTo [0xC108D960, 0xFC401940]
      (.mxdrn { ce := true, cnt := 3, acq := false, rel := true, scope := 4, tag := true } 1 true 0 4 0 6 10 0) = true ∧
    decodesTo [0xC1100040, 0xFC700000] (.mxepl (flagsOf none) 1 7) = true := by decide +kernel

/-- mxshp.w2 s7 (10 Table 10-1). -/
theorem test_decode_mxc :
    decodesTo [0x80000000 + 0x11 * 2 ^ 26 + 2 ^ 24 + 2 * 2 ^ 6, 0xFC000000 + 7 * 2 ^ 20] (.mxshp (flagsOf none) 2 7) = true := by
  decide +kernel

/-- Table 11-13. -/
theorem test_decode_vfp_vrd_msk :
    decodesTo [0xC9900080, 0xFC621400] (.vcmp (flagsOf none) 4 0 false 6 4 5) = true ∧
    decodesTo [0xC9200000, 0xFC721000] (.vmul (flagsOf none) 0 0 false 7 4 4 0) = true ∧
    decodesTo [0xD1084000, 0xFC838000] (.vred (flagsOf (some 1)) 0 0 false 8 7 0) = true ∧
    decodesTo [0xD5000000, 0xFC030000] (.mpush (flagsOf none) 6) = true ∧ decodesTo [0xD5300000, 0xFC000008] (.bmz 8) = true := by
  decide +kernel

/-- viadd.i32.us s1, s2, s3 under the mask (11 R250, Table 11-5). -/
theorem test_decode_vic :
    decodesTo [0x80000000 + 0x13 * 2 ^ 26 + 2 ^ 24 + 2 * 2 ^ 3 + 2 * 2 ^ 1 + 1, 0xFC000000 + 1 * 2 ^ 20 + 2 * 2 ^ 15 + 3 * 2 ^ 10]
      (.viadd (flagsOf none) 2 2 true 1 2 3) = true := by decide +kernel

/-- Example 12-1: tfn.exp2.bf16 s5, s4, cc2. -/
theorem test_decode_tbl : decodesTo [0xD9088024, 0xFC520000] (.tfn (flagsOf (some 2)) 2 1 false 5 4 0) = true := by decide +kernel

/-- Example 13-1: cpy with a checksum, in two argument words; Table 24-1: cpy s6, s7, s8, cc2 in one. -/
theorem test_decode_cpy :
    decodesTo [0xDE084080, 0xFC429800, 0xFC000007] (.cpy (flagsOf (some 1)) true 0 4 5 6 0 7) = true ∧
    decodesTo [0xDD088000, 0xFC63A000] (.cpy (flagsOf (some 2)) false 0 6 7 8 0 0) = true := by decide +kernel

/-- gth s1, s2, s3, s4, s5 (14 Table 14-1); Example 14-1: topk.dn.f32 s10, s8, s11, s0, s12, cc4. -/
theorem test_decode_gth_srt :
    decodesTo [0x80000000 + 0x18 * 2 ^ 26 + 2 ^ 24, 0xFC000000 + 1 * 2 ^ 20 + 2 * 2 ^ 15 + 3 * 2 ^ 10 + 4 * 2 ^ 5 + 5]
      (.gth (flagsOf none) 1 2 3 4 5) = true ∧
    decodesTo [0xE5090000, 0xFCA42C0C] (.topk (flagsOf (some 4)) false 0 10 8 11 0 12) = true := by decide +kernel

/-- Example 15-1: lopen and lord. -/
theorem test_decode_lnk :
    decodesTo [0xE9188000, 0xFC531C00] (.lopen (flagsOf (some 2)) 0 0 5 6 7) = true ∧
    decodesTo [0xE9284000, 0xFC022000] (.lord (flagsOf (some 1)) 0 4 8) = true := by decide +kernel

/-- Example 16-1: realign.timed s4 and rdgcyc s5. -/
theorem test_decode_tim :
    decodesTo [0xEC201001] (.realign 4 1) = true ∧ decodesTo [0xEC028001] (.rdgcyc 5) = true := by decide +kernel

/-- The launch program of Example 17-1. -/
theorem test_decode_wrk :
    decodesTo [0xF0439000] (.sxin 7 4 0) = true ∧ decodesTo [0xF03414E0] (.klaunch 8 5 7) = true ∧
    decodesTo [0xF0750000] (.evget 10) = true := by decide +kernel

/-- Example 18-1: wrsr s8, s9 and tret.emu s6, s7; Example 19-1: ptupd, xlat and tlbinv; Example 21-1: wqry s5, s6, 1. -/
theorem test_decode_sys :
    decodesTo [0xF4302120] (.wrsr 8 9) = true ∧ decodesTo [0xF4031C01] (.tretEmu 6 7) = true ∧
    decodesTo [0xF49298E0] (.ptupd 5 6 7) = true ∧ decodesTo [0xF4B42401] (.xlat 8 9 1) = true ∧
    decodesTo [0xF4A010A0] (.tlbinv 4 5) = true ∧ decodesTo [0xF4C29801] (.wqry 5 6 1) = true := by decide +kernel

/-- Rejections (03 R47, R50, R51, R67): major 0x1E, a reserved minor, a reserved field, a stray and a missing argument word. -/
theorem test_decode_rejects :
    rejected (words [0xF8000000]) = some .unassignedMajor ∧ rejected (words [0x84C00000]) = some .reservedMinor ∧
    rejected (words [0x88100001]) = some .reservedField ∧ rejected (words [0xFC000010]) = some .strayArgument ∧
    rejected (words [0xDE084080, 0xFC429800]) = some .missingArgument ∧ rejected [0x8810] = some .truncated := by decide +kernel

/-! ## Well-formedness: a term for each check that refuses it -/

/-- An acquire that its form does not accept; a scope without a flag; a counter without CE. -/
def acquiring : EngineFlags := { flagsOf none with acq := true, scope := 1 }
def releasing : EngineFlags := { flagsOf none with rel := true, scope := 1 }
def tagging : EngineFlags := { flagsOf none with tag := true }
def scopeAlone : EngineFlags := { flagsOf none with scope := 1 }
def badScope : EngineFlags := { flagsOf none with acq := true, scope := 6 }
def uncounted : EngineFlags := { flagsOf none with cnt := 3 }

theorem test_flags_ill : scopeAlone.ok true true true = false ∧ badScope.ok true true true = false ∧
    uncounted.ok true true true = false ∧ acquiring.ok false true true = false ∧ releasing.ok true false true = false ∧
    tagging.ok true true false = false ∧ stampOk 3 0 = false ∧ stampOk 0 1 = false := by decide

theorem test_control_ill :
    [Instr.blkRegister 48 1, .dcbnz 0 1, .dcbnzShort 0 1, .halt 0x10000, .tnextShort 0, .tnextShort 27, .tnext 0, .tnext 27].any
      Instr.wellFormed = false := by decide

theorem test_scalar_ill :
    [Instr.mov 1 6 1, .mov 1 6 2, .mov 1 16 3, .mov 1 1 4, .mov 1 0 5, .shli 1 1 64, .shri 1 1 64, .srai 1 1 64, .lsh 1 0x10000,
     .clz 1 1 4, .ffs 1 1 4, .popc 1 1 4, .padd 1 1 1 12, .psub 1 1 1 12].any Instr.wellFormed = false := by decide

theorem test_move_ill :
    [Instr.mvShort 0 0x3C 0, .mvShort 0 0 27, .mv 0 0 0x3F 0, .mv 0 0 0 27, .mv 4 0 0x22 0, .mv 1 0 0x10 0, .mvi 0 0x4F 0].any
      Instr.wellFormed = false := by decide

theorem test_memory_ill :
    [Instr.qld 4 0 0, .qst 4 0 0, .qldi 4 0 0, .qsti 4 0 0, .pchk 1 1 8, .acq 1 1 0 6, .acq 1 1 1 0, .acq 1 1 0 24, .rel 1 1 6,
     .rel 1 1 16, .fence 6, .xfer 1 1 1 7, .xfer 1 1 1 16].any Instr.wellFormed = false := by decide

theorem test_counter_ill :
    [Instr.cwaitlt 1 6 1, .cwaitlt 1 0 0, .cstat 1 1 2, .amo 1 1 1 0, .red 1 1 0, .swap 1 1 1 0, .swap 1 1 1 17, .cas 1 1 1 0,
     .cas 1 1 1 17, .accalloc 1 0, .accalloc 1 257, .accfree 1 0, .accfree 1 257].any Instr.wellFormed = false := by decide

theorem test_matrix_ill : let e := flagsOf none
    [Instr.mxmm e 7 false false false 0 1 1 1 1 0 0 0, .mxmm e 5 true false false 0 1 1 1 1 0 0 0, .mxmm e 0 false false false 0 1 1 1 1 0 1 0,
     .mxmm e 0 false false false 3 1 1 1 1 0 0 0, .mxmm releasing 0 false false false 0 1 1 1 1 0 0 0, .mxld e false true 0 1 1 1 0,
     .mxld e false false 0 1 1 1 1, .mxld releasing false false 0 1 1 1 0, .mxclr acquiring 0 1 0, .mxclr e 3 1 0,
     .mxmma releasing false false 0 1 1 1 0, .mxmma e false false 0 1 1 1 1, .mxmv acquiring false 0 1 0, .mxmv e false 3 1 0,
     .mxmark acquiring, .mxmarkStamped acquiring 1 0, .mxmarkStamped e 3 0, .mxmarkStamped e 0 0].any Instr.wellFormed = false := by
  decide

theorem test_drain_ill : let e := flagsOf none
    [Instr.mxdrn scopeAlone 0 false 0 1 1 1 1 0, .mxdrn e 0 false 0 1 1 1 1 1, .mxepl releasing 0 1, .mxcks acquiring 1,
     .mxdrs tagging 0 false 0 1 1 0, .mxdrs e 0 false 3 1 1 0, .mxshp releasing 0 1, .mxcv releasing 0 false false false 0 1 1 1 1 0,
     .mxcv e 0 false false false 0 1 1 1 1 1].any Instr.wellFormed = false := by decide

theorem test_vector_ill : let e := flagsOf none
    [Instr.vadd e 5 0 false 1 1 1 0, .vadd e 0 0 false 1 1 1 1, .vsub e 5 0 false 1 1 1 0, .vmul e 5 0 false 1 1 1 0,
     .vfma e 5 0 false 1 1 1 1 0, .vmin scopeAlone 0 false 1 1 1, .vmax scopeAlone 0 false 1 1 1, .vdiv e 5 0 false 1 1 1 0,
     .vsqrt e 5 0 false 1 1 0, .vsgn e 0 3 false 1 1 0, .vsgn e 0 0 false 1 1 1, .vcmp e 7 0 false 1 1 1, .vrsc e 5 0 false 1 1 1 1 0,
     .vrst e 0 2 false 1 1 0, .viadd e 1 0 false 1 1 1, .viadd e 0 3 false 1 1 1, .visub e 1 0 false 1 1 1, .vimul e 3 0 0 false 1 1 1,
     .vimul e 1 0 1 false 1 1 1, .vilog e 4 1 false 1 1 1, .vishf e 3 0 false 1 1 1, .vicmp e 6 0 false 1 1 1,
     .vsel scopeAlone 0 false 1 1 1 1, .vcvt e 0 0 false false 1 1 0 0 0, .vcvt e 0 10 false false 1 1 0 0 0,
     .vcvt e 0 6 true false 1 1 9 0 0, .vcvt e 0 9 false false 1 1 0 0 0, .vcvt e 4 6 false false 1 1 0 0 0,
     .vcvt e 0 1 false true 1 1 0 0 0, .vcvt e 0 1 false false 1 1 0 1 0, .vred scopeAlone 0 0 false 1 1 0, .vdot scopeAlone 0 false 1 1 1 0,
     .vscan scopeAlone 0 0 false 1 1 0, .vbcast scopeAlone 0 false 1 1, .mpush releasing 1, .minv acquiring, .mpop acquiring].any
      Instr.wellFormed = false := by decide

theorem test_bulk_ill : let e := flagsOf none
    [Instr.tfn e 0 0 false 1 1 0, .tfn e 13 0 false 1 1 0, .tfn e 1 3 false 1 1 0, .tfn e 1 0 false 1 1 1, .tfnx e 0 0 false 1 1 1 1 0,
     .tver acquiring 1, .tvchk releasing 1, .cpy e true 0 1 1 1 0 0, .cpy e false 3 1 1 1 0 0, .cpy2 e true 0 1 1 1 1 0 0,
     .cfill acquiring false 0 1 1 1 0 0, .cpym e true 0 1 1 1 0 1 0, .cpym2 e true 0 1 1 1 1 0 1 0, .ccrc e false 0 1 1 0 1,
     .ccrc e true 0 1 1 0 0].any Instr.wellFormed = false := by decide

theorem test_gather_link_ill : let e := flagsOf none
    [Instr.gth scopeAlone 1 1 1 1 1, .sct e 4 0 1 1 1 1 1, .sct e 0 1 1 1 1 1 1, .sct e 1 2 1 1 1 1 1, .gred e 0 0 1 1 1 1 1 1,
     .gred e 1 2 1 1 1 1 1 1, .topk e false 3 1 1 1 1 1, .psort e false 3 1 1 1 1 1, .gscan e false 1 1 1 0 0 0, .gscan e false 0 1 1 1 0 0,
     .gscan e false 0 0 1 0 0 0, .ghist e false false 0 1 1, .rndh acquiring false 0 1 1 1, .rndh e false 1 1 1 1, .lred e 0 0 1 1,
     .lopen acquiring 0 0 1 1 1, .lopen e 3 0 1 1 1, .lord releasing 0 1 1, .lwag releasing 1 1 1 1].any Instr.wellFormed = false := by
  decide

theorem test_launch_ill :
    [Instr.rdtinf 1 4, .realign 1 2, .twait 1 2, .tinfo 1 8, .xlat 1 1 4, .wqry 1 1 2].any Instr.wellFormed = false := by decide

/-! ## Small states -/

/-- The value of a result. -/
def isOk {ε α : Type} [DecidableEq α] (x : Except ε α) (a : α) : Bool :=
  match x with
  | .ok b => decide (b = a)
  | .error _ => false

theorem ok_of {ε α : Type} [DecidableEq α] {x : Except ε α} {a : α} (h : isOk x a = true) : x = .ok a := by
  cases x with
  | ok b => simpa [isOk] using h
  | error e => simp [isOk] at h

/-- A sequencer whose registers hold the values given. -/
def holding (a : ASeq) (rs : List (BitVec 5 × Word)) : ASeq := rs.foldl (fun a r => a.setReg r.1 r.2) a

/-- A formed partition, one gang with one cell, a launch whose program runs on control core 0, and firmware on core 1. -/
def bench (t : CellType) (rs : List (BitVec 5 × Word)) : State :=
  let s := State.reset
  let c := Cell.fresh t (placeSlot t) 0 0 0 (Vector.replicate 16 0)
  let s := s.setPart 0 ((s.part 0).placed { placePage false with leaf := (placePage false).leaf ||| (1#64 <<< 57) })
  let s := { s with gangs := [(0, placedGang)], cells := [(0, { c with declared := 16, a := holding c.a rs })], launches := [(0, placeLaunch)],
                    nextLaunch := 1, now := 1000, focus := .aseq 0 }
  (s.setCore 0 { placeCore .user (some 0) with a := holding (placeCore .user none).a rs }).setCore 1
    { placeCore .supervisor none with a := holding (placeCore .supervisor none).a rs }

/-- The same with another in focus. -/
def benchAt (ag : Agent) (rs : List (BitVec 5 × Word)) : State := { bench .vector rs with focus := ag }

/-- The sequencer in focus, the cell of the bench and its gang. -/
def seqOf (s : State) : ASeq := (s.aseq? s.focus).getD ASeq.idle
def cellOf (s : State) : Cell := (s.cell? 0).getD (Cell.fresh .vector 13 0 0 0 (Vector.replicate 16 0))
def gangOf (s : State) : Gang := (s.gang? 0).getD placedGang
def launchOf (s : State) : Launch := (s.launches.find? 0).getD placeLaunch
def changed (s : State) (f : Cell → Cell) : State := { s with cells := [(0, f (cellOf s))] }
def changedGang (s : State) (f : Gang → Gang) : State := { s with gangs := [(0, f (gangOf s))] }
def changedLaunch (s : State) (f : Launch → Launch) : State := { s with launches := [(0, f (launchOf s))] }
def changedPart (s : State) (f : Partition → Partition) : State := s.setPart 0 (f (s.part 0))

def issuesNow (s : State) (use : List (BitVec 5)) : Bool :=
  (match s.focus with
   | .xseq _ => false
   | _ => true) && s.issuing s.focus && (s.aseq? s.focus).isSome && !(seqOf s).pending use

theorem issues_now {s : State} {use : List (BitVec 5)} (h : issuesNow s use = true) : Issues s s.focus (seqOf s) use := by
  simp only [issuesNow, Bool.and_eq_true, Bool.not_eq_true'] at h
  refine ⟨rfl, ?_, h.1.1.2, ?_, h.2⟩
  · intro k hk; simp [hk] at h
  · obtain ⟨a, ha⟩ := Option.isSome_iff_exists.mp h.1.2
    simp [seqOf, ha]

def cellNow (s : State) (use : List (BitVec 5)) : Bool :=
  decide (s.focus = .aseq 0) && s.issuing (.aseq 0) && (s.cell? 0).isSome && !(cellOf s).a.pending use

theorem cell_some {s : State} (h : (s.cell? 0).isSome = true) : s.cell? 0 = some (cellOf s) := by
  obtain ⟨c, hc⟩ := Option.isSome_iff_exists.mp h
  simp [cellOf, hc]

theorem cell_now {s : State} {use : List (BitVec 5)} (h : cellNow s use = true) : CellIssues s 0 (cellOf s) use := by
  simp only [cellNow, Bool.and_eq_true, Bool.not_eq_true', decide_eq_true_eq] at h
  exact ⟨h.1.1.1, h.1.1.2, cell_some h.1.2, h.2⟩

def coreNow (s : State) (k : Nat) (use : List (BitVec 5)) : Bool :=
  decide (s.focus = .core k) && s.issuing (.core k) && !(s.core k).a.pending use

theorem core_now {s : State} {k : Nat} {use : List (BitVec 5)} (h : coreNow s k use = true) : CoreIssues s k use := by
  simp only [coreNow, Bool.and_eq_true, Bool.not_eq_true', decide_eq_true_eq] at h
  exact ⟨h.1.1, h.1.2, h.2⟩

def supNow (s : State) (k : Nat) (use : List (BitVec 5)) : Bool := coreNow s k use && decide ((s.core k).priv ≠ .user)

theorem sup_now {s : State} {k : Nat} {use : List (BitVec 5)} (h : supNow s k use = true) : SupervisorIssues s k use := by
  simp only [supNow, Bool.and_eq_true, decide_eq_true_eq] at h
  exact ⟨core_now h.1, h.2⟩

def xNow (s : State) (adds : List Move) (needs : List (Nat × Nat)) : Bool :=
  decide (s.focus = .xseq 0) && s.issuing (.xseq 0) && (s.cell? 0).isSome &&
    (moveNeeds ((cellOf s).x.moves ++ adds) ++ needs).all ((cellOf s).meets s.now)

theorem x_now {s : State} {adds : List Move} {needs : List (Nat × Nat)} (h : xNow s adds needs = true) :
    XIssues s 0 (cellOf s) adds needs := by
  simp only [xNow, Bool.and_eq_true, decide_eq_true_eq] at h
  exact ⟨h.1.1.1, h.1.1.2, cell_some h.1.2, h.2⟩

/-- The state and the cell, gang or launch that a statement speaks of. -/
theorem gang_some {s : State} (h : (s.gang? 0).isSome = true) : s.gang? 0 = some (gangOf s) := by
  obtain ⟨c, hc⟩ := Option.isSome_iff_exists.mp h
  simp [gangOf, hc]

theorem launch_some {s : State} (h : (s.launches.find? 0).isSome = true) : s.launches.find? 0 = some (launchOf s) := by
  obtain ⟨c, hc⟩ := Option.isSome_iff_exists.mp h
  simp [launchOf, hc]

/-! ## Encoding, steps, reset -/

theorem witness_DecodeOfEncode :
    Instr.isWord (.mov 1 5 1) = true ∧ Instr.wellFormed (.mov 1 5 1) = true ∧
    (let i := Instr.cpy (flagsOf (some 31)) true 0 4 5 6 0 31; i.isWord = true ∧ i.wellFormed = true) := by decide +kernel

theorem witness_EncodeOfDecode : decode [0x2C00, 0x0000] = .ok (.exitShort, [0x0000]) := ok_of (by decide +kernel)

theorem witness_ReservedMajorsRejected :
    ((0xF800 : Parcel).getLsbD 15 = true ∧ (0xF800 : Parcel).extractLsb' 10 5 = 0x1E) ∧
    ((0xFC00 : Parcel).getLsbD 15 = true ∧ (0xFC00 : Parcel).extractLsb' 10 5 = 0x1F) := by decide

/-- add s3, s4, s5, 3 at the program counter of the vector cell. -/
def placedAdd : State := State.reset.withFetchWord 32 0x880190A3

theorem witness_StepRunsTheDecodedWord_turn :
    placedAdd.agenda = [] ∧ placedAdd.pickEvent = none ∧ nextTurn placedAdd placedAdd.cursor placedAdd.turns = some (.word (.aseq 0), 1) ∧
    (placedAdd.aseq? (.aseq 0)).isSome = true ∧ (cellOf placedAdd).a.busy = 0 ∧
    (let p := (cellOf placedAdd).a.pos
     let e := placePage false
     p.emu = none ∧ p.buffered = none ∧ p.pc.toNat < 2 ^ 48 ∧ p.pc.toNat % 2 = 0 ∧ (placedAdd.part 0).scans = [] ∧
     placedAdd.lookup (.aseq 0) (decide (placedAdd.agentPriv (.aseq 0) = .user)) 0 .fetch = some e ∧
     xlatCode (some e) (decide (placedAdd.agentPriv (.aseq 0) = .user)) .fetch = 0 ∧ e.mtype ≠ 2 ∧
     placedAdd.cannotCross (placedAdd.agentSlot (.aseq 0)) (hbmSlot (e.pa 0)) = false ∧ e.leaf.getLsbD 55 = false ∧
     wordStart placedAdd.mem (e.pa e.base) 0 1 0 = true ∧
     isOk (decode (bytesToParcels (readBytes placedAdd.mem (e.pa 0) 12))) (.add 3 4 5 3, List.replicate 4 0) = true ∧
     placedAdd.poisoned (e.pa 0) 2 = false ∧
     placedAdd.poisoned (e.pa 0) (min (fetchLen (readLE placedAdd.mem (e.pa 0) 2)) e.size) = false) := by decide +kernel

/-- mvi.0 I.o, −5 at the program counter of the X-seq. -/
def placedMove : State := State.reset.withFetchWord 32 0x9C1087FB

theorem witness_StepRunsTheDecodedWord_xseq :
    placedMove.agenda = [] ∧ placedMove.pickEvent = none ∧
    nextTurn placedMove placedMove.cursor placedMove.turns = some (.word (.xseq 0), 2) ∧ (placedMove.cell? 0).isSome = true ∧
    (let c := cellOf placedMove
     c.x.frozen = [] ∧ c.x.pos.exited = false ∧ c.x.idle = 0 ∧ (placePage true).leaf.getLsbD 55 = true ∧
     isOk (decode (bytesToParcels (readBytes placedMove.mem 0 12))) (.mvi 0 0x10 (-5), List.replicate 4 0) = true) := by decide +kernel

/-- A word of a loop buffer; a branch that takes another cycle; a port 0 that acquires HSEM after port 1 in the list. -/
theorem witness_StepRunsTheDecodedWord_waits :
    (let s := changed placedAdd (fun c => { c with a := { c.a with pos := { c.a.pos with
        levels := [{ start := 0, stop := 8, ln := 1, lx := 1 }], buf := [(0, .nop)], bufDepth := 1 } } })
     s.agenda = [] ∧ s.pickEvent = none ∧ nextTurn s s.cursor s.turns = some (.word (.aseq 0), 1) ∧ (cellOf s).a.pos.emu = none ∧
       (cellOf s).a.pos.buffered = some .nop) ∧
    (let s := changed placedAdd (fun c => { c with a := { c.a with busy := 2 } })
     s.agenda = [] ∧ s.pickEvent = none ∧ nextTurn s s.cursor s.turns = some (.word (.aseq 0), 1) ∧ (cellOf s).a.busy ≠ 0) ∧
    hsemPort (.hsemAcquire true) = some true ∧ hsemPort .lifetimeCommit ≠ some true ∧
    [Instr.lifetimeCommit, .hsemAcquire false].find? (fun j => hsemPort j == some false) = some (.hsemAcquire false) := by decide +kernel

/-- tret.emu has supplied an instruction; an event waits; nothing is left of the cycle. -/
theorem witness_StepRunsTheDecodedWord_rest :
    (let s := changed placedAdd (fun c => { c with a := { c.a with pos := { c.a.pos with emu := some { instr := .nop, last := 0, next := 2 } } } })
     s.agenda = [] ∧ s.pickEvent = none ∧ nextTurn s s.cursor s.turns = some (.word (.aseq 0), 1) ∧
       (cellOf s).a.pos.emu.isSome = true) ∧
    (let s := { State.reset with agenda := [Instr.lifetimeCommit] }; s.agenda = .lifetimeCommit :: []) ∧
    (let s := changed (bench .vector []) (fun c => { c with bqax := [{ bit := true, pushed := 0, visible := false }] })
     s.agenda = [] ∧ s.pickEvent = some (.bqEntryVisible 0)) ∧
    (State.reset.agenda = [] ∧ State.reset.pickEvent = none ∧ nextTurn State.reset State.reset.cursor State.reset.turns = none) := by
  decide +kernel

theorem witness_StepKeepsMemoryCanonical :
    State.Canonical placedAdd ∧ (match step placedAdd with | .next _ => true | _ => false) = true :=
  ⟨by unfold State.Canonical; decide +kernel, by decide +kernel⟩

/-! ## Integer forms, positions, the X-seq -/

def minInt : Word := 0x8000000000000000

theorem witness_IntegerFormsCompute :
    (∃ f, aluForm (.add 3 1 2 1) = some f ∧ Issues (bench .vector [(1, 5)]) (.aseq 0) (seqOf (bench .vector [(1, 5)])) [f.d, f.a, f.b]) ∧
    (∃ f, immForm (.lpc 3 (-1)) = some f ∧ Instr.wellFormed (.lpc 3 (-1)) = true ∧
      Issues (benchAt (.core 0) []) (.core 0) (seqOf (benchAt (.core 0) [])) [f.d, f.a]) ∧
    (CellIssues (bench .vector []) 0 (cellOf (bench .vector [])) [1, 15] ∧ (15 : BitVec 5).toNat < 16) :=
  ⟨⟨_, rfl, issues_now (by decide +kernel)⟩, ⟨_, rfl, by decide, issues_now (by decide +kernel)⟩,
    cell_now (by decide +kernel), by decide⟩

/-- A zero divisor; the most negative number by −1; a remainder of a negative dividend. -/
theorem witness_DivisionFormsCompute :
    (∃ f, divForm (.rem 3 1 2) = some f ∧ f.signed = true ∧
      Issues (bench .vector [(1, 7)]) (.aseq 0) (seqOf (bench .vector [(1, 7)])) [f.d, f.a, f.b] ∧
      (seqOf (bench .vector [(1, 7)])).reg f.b = 0 ∧
      (let q := seqOf (bench .vector [(1, minInt), (2, -1)])
       Issues (bench .vector [(1, minInt), (2, -1)]) (.aseq 0) q [f.d, f.a, f.b] ∧ q.reg f.a = BitVec.ofInt 64 (-2 ^ 63) ∧
         q.reg f.b = BitVec.ofInt 64 (-1)) ∧
      (let q := seqOf (bench .vector [(1, -7), (2, 2)])
       Issues (bench .vector [(1, -7), (2, 2)]) (.aseq 0) q [f.d, f.a, f.b] ∧ (q.reg f.b).toInt ≠ 0 ∧ (q.reg f.a).toInt = -7)) :=
  ⟨_, rfl, rfl, issues_now (by decide +kernel), by decide +kernel, ⟨issues_now (by decide +kernel), by decide +kernel, by decide +kernel⟩,
    issues_now (by decide +kernel), by decide +kernel, by decide +kernel⟩

theorem witness_BitFormsCompute :
    Issues (bench .vector []) (.aseq 0) (seqOf (bench .vector [])) [1, 2] ∧
    Issues (benchAt (.core 0) []) (.core 0) (seqOf (benchAt (.core 0) [])) [31, 30, 29] :=
  ⟨issues_now (by decide +kernel), issues_now (by decide +kernel)⟩

/-- Each value of SAT, at the largest element size. -/
theorem witness_PackedSumsSaturate :
    Issues (bench .vector [(2, minInt), (3, -1)]) (.aseq 0) (seqOf (bench .vector [(2, minInt), (3, -1)])) [1, 2, 3] ∧
    Instr.wellFormed (.padd 1 2 3 3) = true ∧ Instr.wellFormed (.psub 1 2 3 7) = true ∧ Instr.wellFormed (.padd 1 2 3 11) = true :=
  ⟨issues_now (by decide +kernel), by decide, by decide, by decide⟩

def isNext (o : Host.Outcome State Fault Refusal) : Bool :=
  match o with
  | .next _ => true
  | _ => false

theorem witness_IntegerFormsFrame : integerDest (.madd 3 1 2) = some 3 ∧ isNext (exec (.madd 3 1 2) (bench .vector [])) = true :=
  ⟨rfl, by decide +kernel⟩

/-- A cell whose A-seq stands in loops. -/
def looped (n : Nat) : State :=
  changed (bench .vector [(1, 3)]) (fun c => { c with a := { c.a with pos := { c.a.pos with
    levels := List.replicate n { start := 0, stop := 8, ln := 2, lx := 0 } } } })

theorem witness_LoopLevels :
    (∃ p : Pos, p.levels = [{ start := 0, stop := 8, ln := 2, lx := 0 }, { start := 0, stop := 16, ln := 1, lx := 3 }] ∧
      (∀ l rest, p.levels = l :: rest → l.stop = 8 ∧ l.ln ≠ 1) ∧ (∀ l rest, p.levels = l :: rest → l.stop ≠ 4)) ∧
    (Issues (looped 5) (.aseq 0) (seqOf (looped 5)) [1] ∧ (seqOf (looped 5)).reg 1 ≠ 0 ∧ (seqOf (looped 5)).pos.levels.length < 6) ∧
    (Issues (looped 6) (.aseq 0) (seqOf (looped 6)) [1] ∧ 6 ≤ (seqOf (looped 6)).pos.levels.length) ∧
    (Issues (bench .vector []) (.aseq 0) (seqOf (bench .vector [])) [] ∧ (0 : BitVec 13).setWidth 64 = (0 : Word)) ∧
    ((32 : BitVec 6).toNat - 32 < 16 ∧ (31 : BitVec 6).toNat < 32) :=
  ⟨⟨{ pc := 0, levels := [{ start := 0, stop := 8, ln := 2, lx := 0 }, { start := 0, stop := 16, ln := 1, lx := 3 }], exited := false,
      boundary := false, emu := none }, rfl, fun _ _ h => by cases h; decide, fun _ _ h => by cases h; decide⟩,
   ⟨issues_now (by decide +kernel), by decide +kernel, by decide +kernel⟩, ⟨issues_now (by decide +kernel), by decide +kernel⟩,
   ⟨issues_now (by decide +kernel), by decide⟩, by decide⟩

/-- A word of the innermost block, in a later pass, that is not in the loop buffer yet. -/
theorem witness_LoopBuffersKeepTheirWords :
    (let p : Pos := { pc := 4, levels := [{ start := 0, stop := 8, ln := 1, lx := 1 }], exited := false, boundary := false, emu := none,
                      buf := [(0, .nop)], bufDepth := 1 }
     let l : Level := { start := 0, stop := 8, ln := 1, lx := 1 }
     p.levels = [l] ∧ l.holds p.pc = true ∧ l.lx ≠ 0 ∧ p.buffered = none ∧ ∀ w ∈ p.buf, w.1 ≠ p.pc) ∧
    (let s := looped 1
     let p := (cellOf s).a.pos
     let l : Level := { start := 0, stop := 8, ln := 2, lx := 0 }
     p.emu = none ∧ p.buffered = none ∧ p.levels = [l] ∧ l.holds p.pc = true ∧
       ((s.lookup (.aseq 0) (decide (s.agentPriv (.aseq 0) = .user)) p.pc.toNat .fetch).map (fun e => bodyFits s.mem (e.pa l.start.toNat) l)) =
         some true) := by decide +kernel

/-- Branch-outcome queues with and without room and entries, on either sequencer. -/
def queued (n : Nat) (vis : Bool) : State :=
  changed (bench .vector []) (fun c => { c with
    bqax := List.replicate n { bit := true, pushed := 1000, visible := vis }, bqxa := List.replicate n { bit := true, pushed := 900, visible := vis } })

theorem witness_ControlForms :
    (Issues (bench .vector []) (.aseq 0) (seqOf (bench .vector [])) [31] ∧ Issues (benchAt (.core 1) []) (.core 1) (seqOf (benchAt (.core 1) [])) []) ∧
    (CellIssues (queued 7 true) 0 (cellOf (queued 7 true)) [1] ∧ (cellOf (queued 7 true)).bqax.length < 8) ∧
    (CellIssues (queued 8 true) 0 (cellOf (queued 8 true)) [1] ∧ 8 ≤ (cellOf (queued 8 true)).bqax.length ∧
      (cellOf (queued 8 true)).x.pos.exited = false) ∧
    (CellIssues (queued 0 true) 0 (cellOf (queued 0 true)) [] ∧ (cellOf (queued 0 true)).bqxa = [] ∧ (seqOf (queued 0 true)).pos.emu = none) ∧
    (∃ e rest, (cellOf (queued 1 true)).bqxa = e :: rest ∧ e.visible = true ∧ CellIssues (queued 1 true) 0 (cellOf (queued 1 true)) []) ∧
    (let s := { queued 1 true with focus := .xseq 0 }; XIssues s 0 (cellOf s) [] [(8, 1)]) ∧
    (let s := { queued 1 true with focus := .xseq 0 }; XIssues s 0 (cellOf s) [] []) ∧
    ((queued 1 false).cell? 0 = some (cellOf (queued 1 false)) ∧ (cellOf (queued 1 false)).bqDue ((queued 1 false).ownAge (cellOf (queued 1 false))) = true) :=
  ⟨⟨issues_now (by decide +kernel), issues_now (by decide +kernel)⟩, ⟨cell_now (by decide +kernel), by decide +kernel⟩,
   ⟨cell_now (by decide +kernel), by decide +kernel, by decide +kernel⟩,
   ⟨cell_now (by decide +kernel), by decide +kernel, by decide +kernel⟩,
   ⟨_, _, rfl, rfl, cell_now (by decide +kernel)⟩, x_now (by decide +kernel), x_now (by decide +kernel),
   ⟨cell_some (by decide +kernel), by decide +kernel⟩⟩

def moveOf (t : Nat) (dst : BitVec 7) (src : BitVec 5) : Move := { delay := t, dst, rm := 0, src, value := none, first := 0 }

theorem witness_MovesOfTheXseq :
    (let s := benchAt (.xseq 0) []
     XIssues s 0 (cellOf s) [{ delay := 3, dst := 1, rm := 0, src := 2, value := none, first := firstWord (.mvShort 3 1 2) }] []) ∧
    (let s := changed (bench .vector []) (fun c => { c with x := { c.x with issued := true, moves := [moveOf 0 1 2, moveOf 0 2 1] } })
     s.cell? 0 = some (cellOf s) ∧ (cellOf s).x.issued = true ∧ (cellOf s).x.moves = [moveOf 0 1 2, moveOf 0 2 1] ∧
       (moveOf 0 1 2).src.toNat = 2 ∧ (moveOf 0 2 1).src.toNat = 1 ∧ (moveOf 0 1 2).dst.toNat = 1 ∧ (moveOf 0 2 1).dst.toNat = 2) ∧
    (let s := changed (bench .vector []) (fun c => { c with x := { c.x with issued := true, moves := [moveOf 0 15 2, moveOf 0 15 1] } })
     s.cell? 0 = some (cellOf s) ∧ (cellOf s).x.issued = true ∧ (moveOf 0 15 2).dst.toNat = 15) :=
  ⟨x_now (by decide +kernel), ⟨cell_some (by decide +kernel), by decide +kernel⟩, cell_some (by decide +kernel), by decide +kernel⟩

def opOf (dst : BitVec 7) : XOp := { left := 0, dst, rm := 0, t := 3, o := 4, addend := 1, first := 0 }

theorem witness_ColumnsComplete :
    (let s := changed (bench .vector []) (fun c => { c with x := { c.x with ops := [opOf 0x11] } })
     s.cell? 0 = some (cellOf s) ∧ (cellOf s).x.issued = false ∧ (cellOf s).x.ops = [opOf 0x11] ∧ (opOf 0x11).left = 0) ∧
    (let s := changed (bench .vector []) (fun c => { c with x := { c.x with frozen := [(4, 1)] } })
     s.cell? 0 = some (cellOf s) ∧ (cellOf s).x.frozen ≠ [] ∧ ∀ n ∈ (cellOf s).x.frozen, (cellOf s).meets s.now n = true) :=
  ⟨⟨cell_some (by decide +kernel), by decide +kernel⟩, cell_some (by decide +kernel), by decide +kernel⟩

/-! ## Accesses, objects, counters, banks -/

/-- An address in the cell's own slice, and the place of it. -/
def own (o : Nat) : Word := BitVec.ofNat 64 (3 * 2 ^ 60 + o)
def home (o : Nat) : Nat := 2 ^ 49 + 416 * 2 ^ 30 + o

def accessOf (kind : AccessKind) (ea : Word) (w : Nat) (loc : Option Nat) (committed : Bool) : Access :=
  { id := 0, kind, ea, width := w, first := 0, committed, loc, bound := [], inc := none, mirrored := false }

/-- The bench with one outstanding access. -/
def pendingAccess (x : Access) : State :=
  changed (bench .vector []) (fun c => { c with a := { c.a with out := [x], nextId := 1 } })

/-- What the statements on an outstanding access ask of it. -/
def outstanding (s : State) (x : Access) : Bool :=
  decide (s.aseq? (.aseq 0) = some (cellOf s).a) && decide ((cellOf s).a.access? 0 = some x) && canPerform (cellOf s).a.out x

/-- A full replay queue. -/
def fullQueue (rs : List (BitVec 5 × Word)) : State :=
  changed (bench .vector rs) (fun c => { c with a := { c.a with out := (List.range 64).map (fun k =>
    { accessOf (.store 0) (own 0) 8 (some (home 0)) true with id := k }), nextId := 64 } })

theorem witness_ScalarAccessesIssue :
    (let s := bench .vector [(2, own 4)]
     Issues s (.aseq 0) (seqOf s) [1, 2] ∧ s.pathCode (.aseq 0) (own 4) 8 true ≠ 0) ∧
    (let s := fullQueue [(2, own 8)]
     Issues s (.aseq 0) (seqOf s) [1, 2] ∧ s.pathCode (.aseq 0) (own 8) 8 true = 0 ∧ (seqOf s).full (own 8) = true) ∧
    (let s := bench .vector [(2, 64)]
     Issues s (.aseq 0) (seqOf s) [1, 2] ∧ s.pathCode (.aseq 0) 64 8 false = 0 ∧ (seqOf s).full 64 = false ∧ isTranslated 64 = true) ∧
    (let s := bench .vector [(2, own 8)]
     Issues s (.aseq 0) (seqOf s) [1, 2] ∧ isTranslated (own 8).toNat = false ∧
       s.resolve (.aseq 0) (decide (s.agentPriv (.aseq 0) = .user)) (own 8) .read = .place (some (home 8))) :=
  ⟨⟨issues_now (by decide +kernel), by decide +kernel⟩, ⟨issues_now (by decide +kernel), by decide +kernel⟩,
   ⟨issues_now (by decide +kernel), by decide +kernel⟩, issues_now (by decide +kernel), by decide +kernel⟩

/-- A reply that finds an entry, none, and one without the permission. -/
theorem witness_TranslationRepliesCommit :
    (∀ x ∈ [(accessOf (.load false 3) 64 8 none false, Resolved.place (some 64)), (accessOf (.load false 3) 0x5000 8 none false, .xlatFault 1),
        (accessOf (.store 7) 64 8 none false, .xlatFault 5)],
      let s := { pendingAccess x.1 with partitions := (if x.2 = .xlatFault 5 then placedAdd else pendingAccess x.1).partitions }
      s.aseq? (.aseq 0) = some (cellOf s).a ∧ (cellOf s).a.access? 0 = some x.1 ∧ x.1.kind.isSync = false ∧ x.1.committed = false ∧
        x.1.inc = none ∧ s.accessesRun (.aseq 0) = true ∧ s.resolve (.aseq 0) true x.1.ea x.1.kind.probe = x.2) := by decide +kernel

/-- pref, and a queue store that had popped its entry and meets a page without the permission. -/
theorem witness_ScalarAccessesIssue_gives :
    (let s := bench .vector [(2, 64)]; issuesNow s [2] = true) ∧
    (let x := { accessOf (.store 7) 64 8 none false with popped := some (3, 7, 900) }
     let s := { pendingAccess x with partitions := placedAdd.partitions }
     s.aseq? (.aseq 0) = some (cellOf s).a ∧ (cellOf s).a.access? 0 = some x ∧ x.kind.isSync = false ∧ x.committed = false ∧
       s.accessesRun (.aseq 0) = true ∧ s.resolve (.aseq 0) (decide (s.agentPriv (.aseq 0) = .user)) x.ea x.kind.probe = .xlatFault 5 ∧
       x.popped = some (3, 7, 900) ∧ (s.cell? 0).isSome = true) := by decide +kernel

theorem witness_LoadsAndStoresPerform :
    (let x := accessOf (.load true 3) (own 8) 4 (some (home 8)) true
     outstanding (pendingAccess x) x = true ∧ (pendingAccess x).poisoned (home 8) 4 = false) ∧
    (let x := accessOf (.load true 3) 64 8 none true; outstanding (pendingAccess x) x = true) ∧
    (let x := accessOf (.store 7) (own 8) 8 (some (home 8)) true
     outstanding (pendingAccess x) x = true ∧ (pendingAccess x).hitsObject (home 8) 8 = false ∧ (pendingAccess x).onLostDie (home 8) = false ∧
       x.ea.toNat / 2 ^ 60 ≠ 5) ∧
    (let x := accessOf (.store 7) (own 8) 8 (some (home 8)) true
     let s := (pendingAccess x).setMark (home 0) true
     outstanding s x = true ∧ s.hitsObject (home 8) 8 = true) ∧
    (let x := accessOf (.store 7) (own 8) 8 none true; outstanding (pendingAccess x) x = true) := by decide +kernel

theorem witness_QueueAccesses :
    (let s := bench .vector [(2, own 3)]; CellIssues s 0 (cellOf s) [2] ∧ s.pathCode (.aseq 0) (own 3) 2 false ≠ 0) ∧
    (let s := changed (bench .vector [(2, own 8)]) (fun c => { c with
       lq := c.lq.set 3 { head := 31, slots := List.replicate 31 { value := some 1, since := 0 } } })
     CellIssues s 0 (cellOf s) [2] ∧ s.pathCode (.aseq 0) (own 8) 8 false = 0 ∧ (cellOf s).lq[3].slots.length < 32 ∧
       (cellOf s).a.full (own 8) = false ∧ s.resolve (.aseq 0) true (own 8) .read = .place (some (home 8))) ∧
    (∀ n ∈ [1000, 999],
      let stamp : Word := BitVec.ofNat 64 n
      let s := changed (bench .vector [(2, own 8)]) (fun c => { c with sq := c.sq.set 3 { head := 31, entries := [(5, stamp)] } })
      cellNow s [2] = true ∧ (cellOf s).sq[3].entries = [(5, stamp)] ∧ s.pathCode (.aseq 0) (own 8) 8 true = 0 ∧
        (cellOf s).a.full (own 8) = false ∧ (stamp = s.now ↔ stamp = 1000) ∧ s.resolve (.aseq 0) true (own 8) .write = .place (some (home 8))) ∧
    (let x := accessOf (.queueLoad 3 31) (own 8) 8 (some (home 8)) true
     let s := changed (pendingAccess x) (fun c => { c with lq := c.lq.set 3 { head := 31, slots := [{ value := none, since := 0 }] } })
     outstanding s x = true ∧ s.poisoned (home 8) 8 = false) :=
  ⟨⟨cell_now (by decide +kernel), by decide +kernel⟩, ⟨cell_now (by decide +kernel), by decide +kernel⟩, by decide +kernel, by decide +kernel⟩

/-- A full load-data queue and an empty store-data queue. -/
theorem witness_QueueAccesses_stall :
    (let s := changed (bench .vector [(2, own 8)]) (fun c => { c with
       lq := c.lq.set 3 { head := 31, slots := List.replicate 32 { value := some 1, since := 0 } } })
     cellNow s [2] = true ∧ s.pathCode (.aseq 0) (own 8) 8 false = 0 ∧ 32 ≤ (cellOf s).lq[3].slots.length) ∧
    (let s := bench .vector [(2, own 8)]
     cellNow s [2] = true ∧ s.pathCode (.aseq 0) (own 8) 8 true = 0 ∧ (cellOf s).a.full (own 8) = false ∧ (cellOf s).sq[3].entries = []) := by
  decide +kernel

theorem witness_PathForms :
    (let s := bench .vector [(2, 447), (3, 2 ^ 30 - 1)]; Issues s (.aseq 0) (seqOf s) [1, 2, 3]) ∧
    (let s := bench .vector [(2, 128)]; Issues s (.aseq 0) (seqOf s) [1, 2]) ∧
    (∀ n ∈ [0x6000000000000000, 0x0001000000000000, 0x2000000000000004, 0x3000000040000000, 0x3000000000000000],
      let ea : Word := BitVec.ofNat 64 n
      (5 < ea.toNat / 2 ^ 60 ↔ ea = 0x6000000000000000) ∧ (ea.toNat / 2 ^ 48 % 2 ^ 12 ≠ 0 ∧ ea.toNat / 2 ^ 60 = 0 ↔ ea = 0x0001000000000000) ∧
        (ea.toNat / 2 ^ 60 = 2 ↔ ea = 0x2000000000000004) ∧
        (ea.toNat / 2 ^ 60 = 3 ∧ ea.toNat / 2 ^ 30 % 2 ^ 30 ≠ 0 ↔ ea = 0x3000000040000000)) :=
  ⟨issues_now (by decide +kernel), issues_now (by decide +kernel), by decide +kernel⟩

theorem witness_AtomicsIssueAndPerform :
    (let s := bench .vector [(2, own 4)]
     Issues s (.aseq 0) (seqOf s) [1, 2, 3] ∧ s.pathCode (.aseq 0) (own 4) 8 true ≠ 0 ∧ s.pathCode (.aseq 0) (own 4) 4 true = 0 ∧
       (seqOf s).full (own 4) = false ∧ isTranslated (own 4).toNat = false ∧ s.resolve (.aseq 0) true (own 4) .atomic = .place (some (home 4))) ∧
    (let s := bench .vector [(2, 64)]
     Issues s (.aseq 0) (seqOf s) [2, 3] ∧ s.pathCode (.aseq 0) 64 8 true = 0 ∧ (seqOf s).full 64 = false ∧ isTranslated 64 = true) ∧
    (∀ k ∈ [AccessKind.atomic (.amo 4) (some 3) (-1) 0, .atomic .swap (some 0) 5 0, .atomic .cas (some 3) 5 0, .atomic (.amo 7) none 1 0],
      let x := accessOf k (own 8) 4 (some (home 8)) true
      let s := pendingAccess x
      outstanding s x = true ∧ x.ea.toNat / 2 ^ 60 ≠ 5 ∧ s.hitsObject (home 8) 4 = false ∧ s.poisoned (home 8) 4 = false) :=
  ⟨⟨issues_now (by decide +kernel), by decide +kernel⟩, ⟨issues_now (by decide +kernel), by decide +kernel⟩, by decide +kernel⟩

/-- Atomics on the mirrored path: a swap, a cas that finds its value, and one that finds another. -/
theorem witness_AtomicsPerform_mirrored :
    ∀ k ∈ [AccessKind.atomic .swap (some 3) 5 0, .atomic .cas (some 3) 5 0, .atomic .cas none 5 1],
      let x := accessOf k 0x5000000000000040 4 (some 0x40) true
      let s := pendingAccess x
      outstanding s x = true ∧ x.ea.toNat / 2 ^ 60 = 5 ∧ s.hitsObject 0x40 4 = false ∧ s.poisoned 0x40 4 = false ∧ readLE s.mem 0x40 4 = 0 ∧
        s.agentPart (.aseq 0) < 8 := by decide +kernel

/-- pref on another path, of a page that is not mapped, of a line that is there, that holds poison, and of one that is brought in. -/
theorem witness_PrefetchFillsItsLine :
    ∀ p ∈ [(0x40, 0), (0x2000000000005000, 1), (0x2000000000000040, 2), (0x2000000000000040, 3), (0x2000000000000040, 4)],
      let ea : Word := BitVec.ofNat 64 p.1
      let s := bench .vector [(2, ea)]
      let s := if p.2 = 2 then { s with roCache := [(roLine 13 0x40, [])] } else if p.2 = 3 then { s with poison := [(8, 1)] } else s
      let l := s.lookup (.aseq 0) true (ea.toNat % 2 ^ 48) .read
      issuesNow s [2] = true ∧ decide (s.agentPriv (.aseq 0) = .user) = true ∧ s.agentSlot (.aseq 0) = 13 ∧
        (ea.toNat / 2 ^ 48 ≠ 0x2000 ↔ p.2 = 0) ∧ (l = none ↔ p.2 = 1) ∧
        (p.2 = 1 ∨ (l.map (fun e => (xlatCode (some e) true .read, decide (e.mtype < 2), e.pa 0x40, s.cannotCross 13 (hbmSlot 0x40))) =
          some (0, true, 0x40, false))) ∧
        (s.poisoned 0x40 64 = true ↔ p.2 = 3) ∧ ((s.roCache.find? (roLine 13 0x40)).isSome = true ↔ p.2 = 2) := by decide +kernel

/-- Comb names with each code, at the ends of their ranges: the gang has 40 cells, one buffer die is mapped with 16 slices. -/
theorem witness_PathChecks_comb :
    (∀ p ∈ [(14, 0, 0, 0x03), (15, 0, 0, 0x03), (24, 0, 0, 0x03), (31, 31, 0, 0x03), (2, 0, 0, 0x03), (13, 31, 0, 0x03), (1, 8, 0, 0x04),
        (1, 31, 0, 0x04), (0, 0, 0x400000, 0x05), (0, 0, 0x3FFFF8, 0), (0, 0, 4, 0x0B), (17, 0, 0, 0x03), (16, 16, 0, 0x04), (16, 31, 0, 0x04),
        (16, 15, 0xA00000, 0x05), (16, 15, 0x9FFFF8, 0)],
      let s := changedGang (changedPart (bench .vector []) (fun x => { x with dremap := BitVec.ofNat 64 (2 ^ 40 + 20) })) (fun g => { g with ncells := 40 })
      let s := { s with diecell := s.diecell.set 20 0xFFFF }
      let ea : Word := BitVec.ofNat 64 (2 ^ 60 + p.1 * 2 ^ 35 + p.2.1 * 2 ^ 30 + p.2.2.1)
      s.pathCode (.aseq 0) ea 8 false = p.2.2.2 ∧ (s.gang? 0).map (·.ncells) = some 40 ∧
        (List.range 16).countP (fun j => (s.avail 20).getLsbD j) = 16 ∧ s.lostDies.find? 20 = none) ∧
    (let s := benchAt (.core 0) []
     s.pathCode (.core 0) (BitVec.ofNat 64 (2 ^ 60)) 8 false = 0x03) ∧
    (let s := bench .vector []
     (s.cell? 0).map (fun c => decide (c.ctype = .vector)) = some true ∧ s.pathCode (.aseq 0) (own 0x400000) 8 false = 0x05 ∧
       s.pathCode (.aseq 0) (own 0x3FFFF8) 8 false = 0) := by decide +kernel

/-- The object check finds the object with that name and place. -/
def targets (s : State) (a : Word) (o l : Nat) : Bool :=
  match s.objTarget (.aseq 0) a with
  | .object x y => decide (x = o ∧ y = some l)
  | .trapped _ => false

theorem target_of {s : State} {a : Word} {o l : Nat} (h : targets s a o l = true) : s.objTarget (.aseq 0) a = .object o (some l) := by
  unfold targets at h
  split at h
  · rename_i x y hx
    obtain ⟨rfl, rfl⟩ := of_decide_eq_true h
    exact hx
  · cases h

/-- The bench with an object at offset 64 of the slice, RELSEQ 5 and GEN 9, or with no object there. -/
def withObject (mark : Bool) (rs : List (BitVec 5 × Word)) : State :=
  let s := bench .vector rs
  { s with mem := writeBytes (writeBytes s.mem (home 64) [5]) (home 72) [9] }.setMark (home 64) mark

def objName : Nat := combName 0 (own 64).toNat

theorem witness_AcquiresAndFences :
    (let s := withObject false [(2, own 64)]
     Issues s (.aseq 0) (seqOf s) [1, 2, 3] ∧ s.objTarget (.aseq 0) ((seqOf s).reg 2) = .object objName (some (home 64)) ∧
       s.marked (home 64) = false) ∧
    (let s := withObject true [(2, own 64), (3, 5)]
     Issues s (.aseq 0) (seqOf s) [1, 2, 3] ∧ s.objTarget (.aseq 0) ((seqOf s).reg 2) = .object objName (some (home 64)) ∧
       s.marked (home 64) = true ∧ s.poisoned (home 64) 16 = false ∧
       ((readLE s.mem (home 64) 8 : Int) - ((seqOf s).reg 3).toNat) % 2 ^ 64 < 2 ^ 63) ∧
    (let s := withObject true [(2, own 64), (3, 10)]
     Issues s (.aseq 0) (seqOf s) [1, 2, 3] ∧ s.marked (home 64) = true ∧
       ¬((readLE s.mem (home 64 + 8) 4 : Int) - ((seqOf s).reg 3).toNat % 2 ^ 32) % 2 ^ 32 < 2 ^ 31) ∧
    (let s := bench .vector []; Issues s (.aseq 0) (seqOf s) [] ∧ (seqOf s).out = [] ∧ (cellOf s).cmds = []) ∧
    (let s := fullQueue []; Issues s (.aseq 0) (seqOf s) [] ∧ (seqOf s).out ≠ []) :=
  ⟨⟨issues_now (by decide +kernel), target_of (by decide +kernel), by decide +kernel⟩,
   ⟨issues_now (by decide +kernel), target_of (by decide +kernel), by decide +kernel⟩,
   ⟨issues_now (by decide +kernel), by decide +kernel⟩, ⟨issues_now (by decide +kernel), by decide +kernel⟩,
   issues_now (by decide +kernel), by decide +kernel⟩

/-- A release or an xfer of the object that has issued; the object's owner is the gang or another. -/
def pendingSync (k : AccessKind) (owner : Nat) : State :=
  let s := withObject true []
  let s := { s with mem := writeBytes s.mem (home 76) (leBytes 2 (BitVec.ofNat 16 owner).toNat) }
  changed s (fun c => { c with a := { c.a with out := [accessOf k (BitVec.ofNat 64 objName) 8 none true], nextId := 1 } })

theorem witness_ReleasesIssueAndPerform :
    (∀ m ∈ [true, false], let s := withObject m [(2, own 64), (3, 0xFFFF)]
     cellNow s [1, 2, 3] = true ∧ targets s ((cellOf s).a.reg 2) objName (home 64) = true ∧ s.marked (home 64) = m ∧
       (cellOf s).a.replay.length < 16 ∧ ((cellOf s).a.reg 3).toNat = 0xFFFF) ∧
    (let s := withObject true [(2, own 64), (3, 0x2000)]
     cellNow s [1, 2, 3] = true ∧ ¬(((cellOf s).a.reg 3).toNat = 0xFFFF ∨ ((cellOf s).a.reg 3).toNat < 0x2000)) ∧
    (∀ p ∈ [(AccessKind.release 3, 0), (.xfer 3 7, 0), (.xfer 0 0xFFFF, 1)],
      let s := pendingSync p.1 p.2
      let x := accessOf p.1 (BitVec.ofNat 64 objName) 8 none true
      s.aseq? (.aseq 0) = some (cellOf s).a ∧ (cellOf s).a.access? 0 = some x ∧ (cellOf s).a.out.takeWhile (fun y => y.id ≠ x.id) = [] ∧
        s.objectLoc (.aseq 0) x.ea.toNat = some (home 64) ∧ s.marked (home 64) = true ∧ s.poisoned (home 64) 16 = false ∧
        (readLE s.mem (home 64 + 12) 2 = ((((Agent.aseq 0).gang?).bind s.gang?).map Gang.owner).getD 0xFFFF ↔ p.2 = 0)) := by
  decide +kernel

theorem witness_ObjectsAndBindings :
    (∀ n ∈ [0x1FFF, 0x1FFFF, 0x2000, 0x20000],
     let v : Word := BitVec.ofNat 64 n
     let s := withObject true [(1, own 64), (2, v)]
     issuesNow s [1, 2] = true ∧ targets s ((cellOf s).a.reg 1) objName (home 64) = true ∧ (seqOf s).out = [] ∧
       (((seqOf s).reg 2).toNat < 2 ^ 17 ∧ (((seqOf s).reg 2).toNat % 2 ^ 16 = 0xFFFF ∨ ((seqOf s).reg 2).toNat % 2 ^ 16 < 0x2000) ↔
         v = 0x1FFF ∨ v = 0x1FFFF)) ∧
    (∀ n ∈ [0, 64, 63], let p : Word × Nat := (if n = 0 then 0 else 8, n)
      let s := changedGang (withObject true [(1, own 64), (2, own 0), (3, p.1)]) (fun g => { g with
        bindings := List.replicate p.2 { object := objName, base := combName 0 (own 1024).toNat, len := 8, perCell := none, translated := false } })
      s.gang? (gangOfCell 0) = some (gangOf s) ∧ cellNow s [1, 2, 3] = true ∧ targets s ((cellOf s).a.reg 1) objName (home 64) = true ∧
        (s.badRegion (.aseq 0) (own 0) p.1 = true ↔ p.1 = 0) ∧ (64 ≤ (gangOf s).bindings.length ↔ p.2 = 64) ∧ s.marked (home 64) = true ∧
        ¬∃ e ∈ (gangOf s).bindings, ∃ o ∈ e.objectsOf (s.gangCells (gangOfCell 0)) false (compareName 0 (own 0).toNat) 8, o ≠ objName) ∧
    (let s := changedGang (withObject true [(1, own 64), (2, own 0), (3, 8)]) (fun g => { g with
        bindings := [{ object := 0, base := combName 0 (own 0).toNat, len := 8, perCell := none, translated := false }] })
     ∃ e ∈ (gangOf s).bindings, ∃ o ∈ e.objectsOf (s.gangCells (gangOfCell 0)) false (compareName 0 (own 0).toNat) 8, o ≠ objName) := by
  decide +kernel

/-- Sixteen accesses that wait for their translation, one of them a store bound to the object: an entry of the replay queue stalls, an
access to the own slice does not, and a release of the object stalls while one of another does not. -/
theorem witness_ReplayQueueStalls :
    let s := withObject true [(1, own 64), (2, 64), (3, 0xFFFF)]
    let s := changed s (fun c => { c with a := { c.a with nextId := 16, out := (List.range 16).map (fun k =>
      { accessOf (.store 0) 64 8 none false with id := k, bound := if k = 0 then [objName] else [] }) } })
    issuesNow s [1, 2, 3] = true ∧ s.pathCode (.aseq 0) 64 8 true = 0 ∧ (seqOf s).full 64 = true ∧ (seqOf s).full (own 8) = false ∧
      targets s ((seqOf s).reg 1) objName (home 64) = true ∧ s.marked (home 64) = true ∧ 16 ≤ (seqOf s).replay.length ∧
      ((seqOf s).replay.any (fun y => y.kind.isSync || (y.kind.isWrite && y.bound.contains objName))) = true ∧
      ((seqOf s).replay.any (fun y => y.kind.isSync || (y.kind.isWrite && y.bound.contains 0))) = false := by decide +kernel

/-- A release behind a store to what it covers; oinit behind an access to its line, behind a release of its object, and on a die that
has failed. -/
theorem witness_SyncsWait :
    (let x := { accessOf (.release 3) (BitVec.ofNat 64 objName) 8 none true with id := 1, bound := [objName] }
     let y := { accessOf (.store 0) (own 0) 8 (some (home 0)) true with bound := [objName] }
     let s := changed (withObject true []) (fun c => { c with a := { c.a with out := [y, x], nextId := 2 } })
     s.aseq? (.aseq 0) = some (cellOf s).a ∧ (cellOf s).a.access? 1 = some x ∧
       ∃ z ∈ (cellOf s).a.out.takeWhile (fun y => y.id ≠ x.id), z.kind.isSync = true ∨ (z.kind.isWrite = true ∧ ∃ o ∈ z.bound, o ∈ x.bound)) ∧
    (∀ n ∈ [0, 1, 2],
      let y := { (if n = 0 then accessOf (.store 0) (own 72) 8 (some (home 72)) true else accessOf (.release 3) (BitVec.ofNat 64 objName) 8 none true) with
        bound := [objName] }
      let s := withObject true [(1, own 64), (2, 5)]
      let s := if n = 2 then s else changed s (fun c => { c with a := { c.a with out := [y], nextId := 1 } })
      issuesNow s [1, 2] = true ∧ targets s ((seqOf s).reg 1) objName (home 64) = true ∧
        ((seqOf s).touches (some (home 64)) = true ↔ n = 0) ∧ ((∃ x ∈ (seqOf s).out, x.kind.isSync = true ∧ objName ∈ x.bound) ↔ n = 1)) ∧
    (let l := sliceLoc (unitKey 20 3) 64
     let s := { bench .vector [] with lostDies := [(20, 1)] }
     s.onLostDie l = true) := by decide +kernel

/-- Both sides of unbind: an entry with the object and base, and none. -/
theorem witness_ObjectsAndBindings_unbind :
    ∀ n ∈ [0, 8],
      let base := own n
      let s := changedGang (withObject true [(1, own 64), (2, base)]) (fun g => { g with
        bindings := [{ object := objName, base := combName 0 (own 0).toNat, len := 8, perCell := none, translated := false }] })
      cellNow s [1, 2] = true ∧ ((gangOf s).bindings.any (fun e => decide (e.object = objName ∧ e.perCell = none ∧ e.translated = false ∧
        e.base = compareName 0 base.toNat)) = true ↔ base = own 0) := by decide +kernel

theorem witness_Counters :
    (∀ n ∈ [0xFFFFFFFF, 0xFFFFFFFE, 0],
     let v : Word := BitVec.ofNat 64 n
     let s := bench .vector [(2, v)]
     cellNow s [2] = true ∧ (2 ^ 32 ≤ v.toNat + 1 ↔ v = 0xFFFFFFFF) ∧
       (let s := changed s (fun c => c.setCc 5 1); ((cellOf s).ccOf 5).toNat < v.toNat + 1 ↔ v ≠ 0)) ∧
    (∀ n ∈ [0, 1, 2],
     let t : Word := BitVec.ofNat 64 n
     let s := changedGang (bench .vector [(2, t)]) (fun g => { g with ncells := 2 })
     s.gang? (gangOfCell 0) = some (gangOf s) ∧ cellNow s [2] = true ∧ ((gangOf s).ncells ≤ t.toNat ↔ t = 2) ∧ (t.toNat = 0 % 512 ↔ t = 0)) ∧
    (∀ n ∈ [5, 6], let x := Instr.cpy (flagsOf (some 5)) false 0 1 2 3 0 0
     (x.flags.ce = true ∧ x.flags.cnt = BitVec.ofNat 5 n) ↔ n = 5) ∧
    (let x : RemoteInc := { sender := 1, target := 0, counter := 5, amount := 7 }
     let s := changedGang (bench .vector []) (fun g => { g with ncells := 2, incs := [x] })
     (gangOf s).state = .resident ∧ (gangOf s).incs[0]? = some x ∧ (gangOf s).incs.take 0 = [] ∧ s.cell? (cellKey (gangOfCell 0) 0) = some (cellOf s)) := by
  decide +kernel

theorem witness_TagsAndBanks :
    (∀ n ∈ [1, 1023, 1024], let p : Word × Word := (if n = 1 then own 2048 else own 4096, BitVec.ofNat 64 n)
     let s := bench .vector [(1, p.2), (2, p.1)]
     cellNow s [1, 2] = true ∧ s.pathCode (.aseq 0) p.1 1 false = 0 ∧ (p.1.toNat % 4096 ≠ 0 ↔ p.1 = own 2048) ∧ p.1.toNat / 2 ^ 60 = 3 ∧
       (cellOf s).gone = false ∧ s.cell? 0 = some (cellOf s) ∧ (p.1.toNat % 2 ^ 30 + 4096 * p.2.toNat ≤ (cellOf s).ctype.sliceSize ↔ p.2 ≠ 1024)) ∧
    (let s := bench .vector [(2, own 4096)]; cellNow s [1, 2] = true) ∧
    (let s := bench .matrix []; cellNow s [1] = true ∧ (cellOf s).ctype = .matrix ∧ (cellOf s).declared ≤ 256) ∧
    (let s := bench .vector []; cellNow s [1] = true ∧ (cellOf s).ctype ≠ .matrix) := by decide +kernel

/-- Held banks 0, 1 and 8 to 11 of 16: one bank has a place, eight have none though there is room, eleven have no room. -/
theorem witness_TagsAndBanks_alloc :
    let c := { cellOf (bench .matrix []) with banks := 0x0F03 }
    let held := (List.range 256).countP (fun k => c.banks.getLsbD k)
    held = 6 ∧ c.declared < held + 11 ∧ held + 8 ≤ c.declared ∧
      (∀ b ∈ List.range 17, ¬(b % 8 = 0 ∧ b + 8 ≤ c.declared ∧ ∀ k, k < 8 → c.banks.getLsbD (b + k) = false)) ∧
      (2 % 1 = 0 ∧ 2 + 1 ≤ c.declared ∧ ∀ k, k < 1 → c.banks.getLsbD (2 + k) = false) ∧
      (∀ b, b < 2 → ¬∀ k, k < 1 → c.banks.getLsbD (b + k) = false) ∧
      (∀ k, k < 2 → c.banks.getLsbD (0 + k) = true) ∧ c.banks.getLsbD 2 = false := by decide +kernel

/-! ## Engine commands -/

/-- A command of the cell as it stands after its issue, and the cell with one. -/
def cmdOf (i : Instr) (queue : Nat) (st : CmdState) (vals : List Word) : Cmd :=
  { id := 0, instr := i, vals, queue, slot := 0, state := st, startAt := none, elastic := true, prog := 0, aux := [], ranges := [],
    tiles := [], dtile := none, acqObjs := [], relObjs := [], table := [], maskLevel := 0, claims := [], passed := [], failedW := [],
    afterAcc := 0, corr := false, failed := none, fault := none }

def withCmds (t : CellType) (xs : List Cmd) (rs : List (BitVec 5 × Word)) : State :=
  changed (bench t rs) (fun c => { c with cmds := xs, nextCmd := xs.length, banks := 0xFFFF })

theorem witness_MatrixCommandsIssue_place :
    (let i := Instr.mxclr (flagsOf none) 0 1 0
     let s := bench .vector []
     engineUnit i = some .matrix ∧ CellIssues s 0 (cellOf s) i.captured ∧ EngineUnit.on .matrix (cellOf s).ctype = false) ∧
    (let i := Instr.lred (flagsOf none) 0 2 1 2
     let s := benchAt (.core 0) []
     engineUnit i = some .link ∧ CoreIssues s 0 i.captured) :=
  ⟨⟨rfl, cell_now (by decide +kernel), rfl⟩, rfl, core_now (by decide +kernel)⟩

/-- mxclr of tile 2, whose banks are not held, and of tile 0. -/
theorem witness_MatrixCommandsIssue :
    (let i := Instr.mxclr (flagsOf none) 0 1 0
     let s := withCmds .matrix [] [(1, 2)]
     engineUnit i = some .matrix ∧ CellIssues s 0 (cellOf s) i.captured ∧ (cellOf s).ctype = .matrix ∧
       matrixFault i (cellOf s) 5 ∧ (∀ k, k < 5 → ¬matrixFault i (cellOf s) k)) ∧
    (let i := Instr.mxclr (flagsOf none) 0 1 0
     let s := withCmds .matrix [] []
     engineUnit i = some .matrix ∧ CellIssues s 0 (cellOf s) i.captured ∧ (cellOf s).ctype = .matrix ∧
       (∀ code, ¬matrixFault i (cellOf s) code)) := by
  refine ⟨⟨rfl, cell_now (by decide +kernel), rfl, ?_, ?_⟩, rfl, cell_now (by decide +kernel), rfl, ?_⟩
  · refine ⟨rfl, Or.inl (fun h => ?_)⟩
    have := h 0 (by decide)
    revert this
    decide +kernel
  · intro k hk h
    match k, hk with
    | 0, _ => exact h
    | 1, _ => exact h
    | 2, _ => exact h
    | 3, _ => exact h
    | 4, _ => exact h
  · intro code h
    match code, h with
    | 5, h =>
      obtain ⟨-, h | ⟨h, -⟩⟩ := h
      · exact h (by decide +kernel)
      · cases h
    | 6, h =>
      obtain ⟨-, h | h | h | h | h | ⟨-, h⟩ | ⟨-, h | h⟩ | ⟨-, h⟩ | h⟩ := h
      all_goals first | exact h.elim | exact h (by decide +kernel)
    | 0, h => exact h
    | 1, h => exact h
    | 2, h => exact h
    | 3, h => exact h
    | 4, h => exact h
    | 7, h => exact h
    | 8, h => exact h
    | 9, h => exact h
    | 10, h => exact h
    | n + 11, h => exact h

/-- A timed command whose stamp has passed; a full queue. -/
theorem witness_IssuesOrWaits :
    (let i := Instr.mxclr (flagsOf none) 1 1 2
     let s := withCmds .matrix [] [(2, 500)]
     CellIssues s 0 (cellOf s) i.captured ∧ StampPassed s 0 (cellOf s) i) ∧
    (let i := Instr.mxclr (flagsOf none) 1 1 2
     let s := withCmds .matrix (List.replicate 16 (cmdOf i 0 .queued [])) [(2, 5000)]
     CellIssues s 0 (cellOf s) i.captured ∧ ¬StampPassed s 0 (cellOf s) i ∧ 16 ≤ (cellOf s).queued EngineUnit.matrix.queue) ∧
    (let i := Instr.mxclr (flagsOf none) 0 1 0
     let s := withCmds .matrix [] []
     ¬StampPassed s 0 (cellOf s) i ∧ (cellOf s).queued EngineUnit.matrix.queue < 16) := by
  unfold StampPassed
  exact ⟨⟨cell_now (by decide +kernel), by decide +kernel⟩, ⟨cell_now (by decide +kernel), by decide +kernel⟩, by decide +kernel⟩

/-- Descriptors with each code, elements of 4 bytes: reserved bits, no element, one out of the slice, one misaligned, none. -/
theorem witness_RegionFaultCodes :
    ∀ p ∈ [(2 ^ 56, 1), (0, 2), (2 ^ 40 + 2 ^ 24 + 0x3FFFFD, 3), (2 ^ 40 + 2 ^ 24 + 2, 4), (2 ^ 40 + 2 ^ 24 + 0x3FFFFC, 0),
        (3 * 2 ^ 40 + 0xFFFF * 2 ^ 24 + 8, 0), (3 * 2 ^ 40 + 0xFFFF * 2 ^ 24 + 4, 3)],
      regionsCode 0x400000 [(BitVec.ofNat 64 p.1, 8)] true = p.2 := by decide +kernel

/-- A region of 8 elements and one with reserved bits. -/
def region (o : Nat) : Word := BitVec.ofNat 64 (8 * 2 ^ 40 + 2 ^ 24 + o)

theorem witness_RegionCommandsIssue :
    (∀ p ∈ [(true, 0), (false, 1)],
      let i := Instr.viadd (flagsOf none) 2 0 false 1 2 3
      let s := bench .vector [(1, if p.1 then region 0 else -1), (2, region 64), (3, region 128)]
      engineUnit i = some .vector ∧ cellNow s i.captured = true ∧ (cellOf s).ctype = .vector ∧
        regionsCode 0x400000 (commandRegions i (cellOf s)).1 (commandRegions i (cellOf s)).2 = p.2) ∧
    (∀ p ∈ [(true, 0), (false, 1)],
      let i := Instr.tfn (flagsOf none) 2 0 false 1 2 0
      let s := bench .vector [(1, if p.1 then region 0 else -1), (2, region 64)]
      engineUnit i = some .table ∧ cellNow s i.captured = true ∧
        regionsCode 0x400000 (commandRegions i (cellOf s)).1 (commandRegions i (cellOf s)).2 = p.2) ∧
    (∀ p ∈ [(true, 0), (false, 1)],
      let i := Instr.gth (flagsOf none) 1 2 3 4 5
      let s := bench .gather [(2, if p.1 then region 0 else -1)]
      engineUnit i = some .gather ∧ cellNow s i.captured = true ∧ (cellOf s).ctype = .gather ∧
        regionsCode 0x400000 (commandRegions i (cellOf s)).1 (commandRegions i (cellOf s)).2 = p.2) ∧
    (∀ p ∈ [(true, 0), (false, 1)],
      let i := Instr.lred (flagsOf none) 0 2 1 2
      let s := bench .matrix [(2, if p.1 then region 0 else -1)]
      engineUnit i = some .link ∧ cellNow s i.captured = true ∧
        regionsCode 0x600000 (commandRegions i (cellOf s)).1 (commandRegions i (cellOf s)).2 = p.2) ∧
    (let i := Instr.cpy (flagsOf none) false 0 1 2 3 0 0
     engineUnit i = some .copy ∧ cellNow (bench .gather []) i.captured = true) := by decide +kernel

theorem witness_MaskCommands :
    (∀ p ∈ [(true, 0), (true, 7), (true, 8), (false, 0)],
      let s := changed (bench .vector [(1, if p.1 then region 0 else -1)]) (fun c => { c with mdi := p.2 })
      cellNow s [1] = true ∧ (cellOf s).ctype = .vector ∧ (regionsCode 0x400000 [((cellOf s).a.reg 1, 2)] true = 0 ↔ p.1 = true) ∧
        ((cellOf s).mdi < 8 ↔ p.2 ≠ 8)) ∧
    (∀ n ∈ [0, 1], let s := changed (bench .vector []) (fun c => { c with mdi := n }); cellNow s [] = true ∧ ((cellOf s).mdi = 0 ↔ n = 0)) ∧
    (let s := withCmds .vector [cmdOf (.mpush (flagsOf none) 1) 1 .active [0]] []
     cellNow s [] = true ∧ (cellOf s).mskBusy = true) ∧
    (∀ p ∈ [(0, false), (1, false), (1, true)],
      let s := changed (bench .vector []) (fun c => { c with mdi := p.1, masks := [{ bits := 1, any := p.2, psn := false }] })
      cellNow s [] = true ∧ (cellOf s).mskBusy = false ∧ ((cellOf s).mdi ≠ 0 ↔ p.1 = 1) ∧
        (p.1 = 1 → (((cellOf s).mask 0).any = false ∨ ((cellOf s).mask 0).psn = true ↔ p.2 = false))) := by decide +kernel

/-- mxclr of tile 0, in the queue. -/
def clr (st : CmdState) : Cmd := cmdOf (.mxclr (flagsOf (some 3)) 0 1 0) 0 st [0]

/-- A copy of 64 bytes within the slice, in the queue: its two ranges, and one of them with a wrong path. -/
def copyCmd (src : Word) (st : CmdState) : Cmd :=
  { cmdOf (.cpy (flagsOf (some 3)) false 0 1 2 3 0 0) 4 st [own 4096, src, 64] with ranges :=
      [{ addr := src, name := combName 0 src.toNat, translated := false, len := 64, write := false, tagged := false },
       { addr := own 4096, name := combName 0 (own 4096).toNat, translated := false, len := 64, write := true, tagged := false }] }

/-- A command that starts, and one that a check at its start fails. -/
theorem witness_EngineCommandsStart :
    (∀ n ∈ [0, 2, 1], let p := (if n = 1 then BitVec.ofNat 64 (6 * 2 ^ 60) else own n, decide (n ≠ 1))
      let x := copyCmd p.1 .queued
      let s := withCmds .vector [x] []
      s.cell? 0 = some (cellOf s) ∧ (cellOf s).cmd? 0 = some x ∧ x.state = .queued ∧ s.startsRun 0 (cellOf s) = true ∧
        (cellOf s).ready (s.rangesOf 0 (cellOf s)) x = true ∧ x.startAt = none ∧ slotUse x.instr = none ∧
        (s.startStatus 0 x (engineForm s 0 (cellOf s) x) x.acqObjs = none ↔ p.2 = true)) ∧
    (let x := { copyCmd (own 0) .queued with startAt := some 2000 }
     let s := withCmds .vector [x] []
     (cellOf s).cmd? 0 = some x ∧ x.queue ≠ 2 ∧ s.startsRun 0 (cellOf s) = true ∧ (cellOf s).ready (s.rangesOf 0 (cellOf s)) x = true) := by
  decide +kernel

/-- An earlier command of the queue that waits; an earlier copy that writes what the later one reads. -/
theorem witness_EngineStartsKeepOrder :
    (let x := { clr .queued with id := 1 }
     let s := withCmds .matrix [clr .queued, x] []
     s.cell? 0 = some (cellOf s) ∧ (cellOf s).cmd? 1 = some x ∧ clr .queued ∈ (cellOf s).cmds ∧ (clr .queued).id < x.id ∧
       (clr .queued).queue = x.queue ∧ (clr .queued).state = .queued) ∧
    (let y := clr .suspended
     let x := { clr .queued with id := 1 }
     let s := withCmds .matrix [y, x] []
     (cellOf s).cmd? 1 = some x ∧ y ∈ (cellOf s).cmds ∧ y.queue = x.queue ∧ y.state = .suspended) ∧
    (let y := copyCmd (own 0) .active
     let x := { copyCmd (own 4096) .queued with id := 1 }
     let s := withCmds .vector [y, x] []
     s.cell? 0 = some (cellOf s) ∧ (cellOf s).cmd? 1 = some x ∧ y ∈ (cellOf s).cmds ∧ y.id < x.id ∧ slotUse x.instr = none ∧
       slotUse y.instr = none ∧ ∃ a ∈ x.ranges, ∃ b ∈ y.ranges, a.tagged = false ∧ b.tagged = false ∧ (a.write = true ∨ b.write = true) ∧
         a.translated = b.translated ∧ a.len ≠ 0 ∧ b.len ≠ 0 ∧ a.name < b.name + b.len ∧ b.name < a.name + a.len) := by decide +kernel

/-- Stamps before, on and after their cycle, ready and not. -/
theorem witness_StampedCommandsStart :
    ∀ p ∈ [(1001, true, true), (1000, true, false), (999, true, true), (1000, false, false)],
      let x := { clr .queued with startAt := some (BitVec.ofNat 64 p.1), elastic := p.2.2, id := 1 }
      let s := withCmds .matrix (if p.2.1 then [x] else [{ clr .active with tiles := [0] }, x]) []
      s.cell? 0 = some (cellOf s) ∧ (cellOf s).cmd? 1 = some x ∧ x.state = .queued ∧ s.startsRun 0 (cellOf s) = true ∧ x.fault = none ∧
        (cellOf s).trap = none ∧ (p.2.1 = true → (cellOf s).ready (s.rangesOf 0 (cellOf s)) x = true) ∧
        (2 ^ 63 ≤ (s.now - BitVec.ofNat 64 p.1).toNat ↔ p.1 = 1001) := by decide +kernel

/-- A timed copy on its stamp: its first unit's operands are there, or on a page that is not mapped. -/
theorem witness_StampedCommandsStart_operands :
    ∀ p ∈ [(true, 3 * 2 ^ 60), (false, 0x5000)],
      let x := { copyCmd (BitVec.ofNat 64 p.2) .queued with startAt := some 1000, elastic := false }
      let s := withCmds .vector [x] []
      s.cell? 0 = some (cellOf s) ∧ (cellOf s).cmd? 0 = some x ∧ x.state = .queued ∧ s.startsRun 0 (cellOf s) = true ∧ x.queue ≠ 2 ∧
        (s.now - 1000).toNat = 0 ∧ (cellOf s).ready (s.rangesOf 0 (cellOf s)) x = true ∧ (cellOf s).trap = none ∧
        s.operandsArrived 0 (cellOf s) x = p.1 := by decide +kernel

/-! ## Work and completion of commands, link arrivals -/

/-- The execution of a command of the bench. -/
def running (s : State) (x : Cmd) : Running := { c := cellOf s, x, f := engineForm s 0 (cellOf s) x }

def runningNow (s : State) (x : Cmd) : Bool :=
  (s.cell? 0).isSome && decide ((cellOf s).cmd? x.id = some x) && s.enginesRun 0 (cellOf s) && (x.state == .active || x.state == .withheld)

theorem running_now {s : State} {x : Cmd} (h : runningNow s x = true) : s.running? 0 x.id = some (running s x) := by
  simp only [runningNow, Bool.and_eq_true, decide_eq_true_eq] at h
  obtain ⟨⟨⟨h1, h2⟩, h3⟩, h4⟩ := h
  unfold State.running?
  rw [cell_some h1]
  simp only [h2, h3, h4, Bool.and_self, if_true, running]

def failsWith {α : Type} (u : Eng α) : Option Nat :=
  match u with
  | .fail n => some n
  | _ => none

theorem fail_of {α : Type} {u : Eng α} {n : Nat} (h : failsWith u = some n) : u = .fail n := by
  cases u <;> simp_all [failsWith]

def faultsWith {α : Type} (u : Eng α) : Option (Nat × Word × Nat) :=
  match u with
  | .fault o a c => some (o, a, c)
  | _ => none

theorem fault_of {α : Type} {u : Eng α} {o c : Nat} {a : Word} (h : faultsWith u = some (o, a, c)) : u = .fault o a c := by
  cases u <;> simp_all [faultsWith]

/-- A tagged copy that reads tile 0 of the slice, which is full, empty, or claimed. -/
theorem witness_TagWaitsClaim :
    ∀ tag ∈ [1, 0, 3],
      let x : Cmd := { copyCmd (own 0) .active with
        instr := .cpy { flagsOf none with tag := true } false 0 1 2 3 0 0
        ranges := (copyCmd (own 0) .active).ranges.map (fun r => { r with tagged := true }) }
      let t := combName 0 (own 0).toNat / 4096
      let s := withCmds .vector [x] []
      let s := { s with tags := if tag = 0 then [] else [(home 0 / 4096, tag)] }
      let r := running s x
      runningNow s x = true ∧ r.x.failed = none ∧ r.x.sent = false ∧ r.x.prog < r.f.units ∧ unitBy r.x r.f ≠ .held ∧
        r.x.wants (r.f.spans r.x.prog) = some (t, false) ∧ s.tileLoc 0 t = some (home 0) ∧
        (s.tagC (home 0) = false ∧ s.tagV (home 0) = !false ↔ tag = 1) := by decide +kernel

/-- A copy from a poisoned line fails; one from an unmapped page takes a translation fault. -/
theorem witness_UnitsFailOrSuspend :
    (let x := copyCmd (own 0) .active
     let s := { withCmds .vector [x] [] with poison := [(home 0 / 8, 1)] }
     s.running? 0 x.id = some (running s x) ∧ (running s x).due .commit = true ∧ (running s x).f.unit x.prog = .fail 1) ∧
    (let x := copyCmd 0x5000 .active
     let s := withCmds .vector [x] []
     s.running? 0 x.id = some (running s x) ∧ (running s x).due .commit = true ∧ (running s x).f.unit x.prog = .fault 1 0x5000 1 ∧
       x.queue ≠ 5 ∧ 1 < 16) :=
  ⟨⟨running_now (by decide +kernel), by decide +kernel, fail_of (by decide +kernel)⟩,
   running_now (by decide +kernel), by decide +kernel, fault_of (by decide +kernel), by decide +kernel⟩

/-- A copy whose unit's writes are on their way to the neighbour, acknowledged or not; one whose unit can be made. -/
theorem witness_UnitsCount :
    (∀ out ∈ [true, false],
      let x := { copyCmd (own 0) .active with sent := true }
      let w : MirrorWrite := { id := 0, loc := 0x100, ea := 0x5000000000000100, data := [1], since := 0, owner := .command 0 0 }
      let s := changedPart (withCmds .vector [x] []) (fun p => { p with mirrorOut := if out then [w] else [] })
      runningNow s x = true ∧ unitBy x (running s x).f = .commit ∧ s.mirrorsOf 0 x.id = out) ∧
    (let x := copyCmd (own 0) .active
     let s := withCmds .vector [x] []
     runningNow s x = true ∧ (running s x).due .commit = true ∧
       (match (running s x).f.unit x.prog with
        | .ok w => !w.s.mirrorsOf 0 w.x.id
        | _ => false) = true) := by decide +kernel

/-- A form of two units that reads tile 3072 in its first unit only; one that touches it again. -/
theorem witness_UnitsCount_tiles :
    let t := combName 0 (own 0).toNat / 4096
    let s := withCmds .vector [] []
    s.tileLoc 0 t = some (home 0) ∧ (clr .active).passed.contains t = false ∧
      (∀ again ∈ [false, true],
        let f : Form := { Form.base s (clr .active) [] 2 (fun _ => .fail 1) with
          spans := fun k => if k = 0 || again then [{ name := t * 4096, len := 64, write := false }] else [] }
        spansTiles (f.spans 0) = [(t, false)] ∧ f.laterTile 1 t = again) := by decide +kernel

/-- A command with all its units done, failed and not, before and at the end of its counter's range. -/
theorem witness_EngineCommandsComplete :
    ∀ p ∈ [(none, 0), (some 2, 0), (none, 0xFFFFFFFF)],
      let x := { clr .active with prog := 1, failed := p.1 }
      let s := changed (withCmds .matrix [x] []) (fun c => c.setCc 3 (BitVec.ofNat 32 p.2))
      runningNow s x = true ∧ s.completeDue 0 0 = true ∧ x.instr.flags.ce = true ∧ x.relObjs = [] ∧ s.objectsCode 0 x.relObjs = 0 ∧
        (((cellOf s).ccOf 3).toNat + 1 < 2 ^ 32 ↔ p.2 = 0) ∧ ((cellOf s).cswOf 3).toNat / 2 ^ 32 = 0 := by decide +kernel

/-- A command that releases an object: one that is there, one that has lost its mark, one whose count is poisoned. -/
theorem witness_EngineCommandsComplete_releases :
    ∀ code ∈ [0, 7, 1],
      let x := { copyCmd (own 0) .active with prog := 1, relObjs := [objName] }
      let s := { withObject (code != 7) [] with poison := if code = 1 then [(home 64 / 8, 1)] else [] }
      let s := changed s (fun c => { c with cmds := [x] })
      runningNow s x = true ∧ s.completeDue 0 0 = true ∧ s.objectsCode 0 x.relObjs = code ∧ x.relObjs.Nodup ∧
        s.objectLoc (.aseq 0) objName = some (home 64) ∧ s.mirrorsOf 0 x.id = false ∧ (s.objectMarked 0 objName = false ↔ code = 7) ∧
        (s.poisoned (home 64) 8 = true ↔ code = 1) := by decide +kernel

/-- mxclr, a transposing mxmv of 2 × 3 from tile 1 to tile 0, and mxcks. -/
theorem witness_TileFormsAndChecks :
    ∀ i ∈ [Instr.mxclr (flagsOf none) 0 1 0, .mxmv (flagsOf none) true 0 1 0, .mxcks (flagsOf none) 1],
      let x := cmdOf i 0 .active [BitVec.ofNat 64 (2 * 2 ^ 24 + 2 ^ 16 + 2 ^ 8)]
      let s := withCmds .matrix [x] []
      s.cell? 0 = some (cellOf s) ∧ (cellOf s).cmd? 0 = some x ∧ x.state = .active ∧ x.prog = 0 ∧ x.failed = none ∧ x.sent = false ∧
        s.mirrorsOf 0 0 = false ∧ s.enginesRun 0 (cellOf s) = true ∧ (cellOf s).poisonElems = [] := by decide +kernel

/-- A tile of one element with its checksums: as they should be, off by 4, and with a value that is not finite noted. -/
theorem witness_ChecksResolve :
    ∀ p ∈ [(0x41700000, false, CheckOutcome.clean), (0x41300000, false, .corrected 0 0 0x41700000), (0x41700000, true, .fails 0x11)],
      let c := { cellOf (bench .matrix []) with
        elems := [(accKey 0 0 0, BitVec.ofNat 32 p.1), (accKey 0 0 63, 0x41700000), (accKey 0 63 0, 0x41700000)]
        tiles := [(0, { Tile.clear with cv := true, cm := 1, cn := 1, nf := p.2.1, muR := [0x41700000], muC := [0x41700000] })] }
      c.check 0 0x10 = p.2.2 := by decide +kernel

/-- lord to lane 0 of the cell itself, whose lane is closed, has another count, has the rank, or takes it. -/
def lordState (v : Word) (l : Lane) : State :=
  changed (withCmds .vector [cmdOf (.lord (flagsOf none) 0 1 2) 5 .active [region 0, v]] []) (fun c => { c with lanes := c.lanes.set 0 l })

theorem witness_ContributionsArrive :
    let open_ : Lane := { Lane.closed with opened := true, count := 8, rows := 2, staging := region 4096, dest := region 8192 }
    (∀ p ∈ [(1, Lane.closed), (0, Lane.closed), (0, { open_ with count := 4 }), (0, { open_ with arrived := [0] }), (2 ^ 24, open_)],
      let v : Word := BitVec.ofNat 64 p.1
      let s := lordState v p.2
      let x := cmdOf (.lord (flagsOf none) 0 1 2) 5 .active [region 0, v]
      runningNow s x = true ∧ x.failed = none ∧ x.sent = false ∧ x.prog = 0 ∧ s.gang? (gangOfCell 0) = some (gangOf s) ∧
        ((gangOf s).ncells ≤ lordCell v ↔ p.1 = 1) ∧ (p.1 ≠ 1 → lordTarget 0 v = 0) ∧ (cellOf s).gone = false ∧
        (cellOf s).lane 0 = p.2) ∧
    (let v : Word := BitVec.ofNat 64 (2 ^ 24)
     let s := lordState v open_
     let src := linkRegion (.lord (flagsOf none) 0 1 2) (region 0)
     src.count = open_.count ∧ lordRank v = 1 ∧
       (match readElems s 0 src (List.range src.count) with
        | .ok vs => (match writeGroup s 0 0 0 ((List.range src.count).zipWith
            (fun j x => ((linkRegion (.lord (flagsOf none) 0 1 2) (region 4096)).addr (1 * 8 + j),
              leBytes (linkRegion (.lord (flagsOf none) 0 1 2) (region 4096)).eb x)) vs) with
          | .ok _ => true
          | _ => false)
        | _ => false) = true) := by decide +kernel

/-- A contribution to a cell of the gang that has exited. -/
theorem witness_ContributionsArrive_gone :
    let v : Word := 1
    let x := cmdOf (.lord (flagsOf none) 0 1 2) 5 .active [region 0, v]
    let s := lordState v Lane.closed
    let s := changedGang { s with cells := s.cells ++ [(1, (Cell.fresh .vector 13 1 0 0 (Vector.replicate 16 0)).exited)] } (fun g => { g with ncells := 2 })
    runningNow s x = true ∧ s.gang? 0 = some (gangOf s) ∧ lordCell v < (gangOf s).ncells ∧ lordTarget 0 v = 1 ∧
      ((s.cell? 1).map (·.gone)) = some true := by decide +kernel

/-- Lines that hold no step and one, at the ends of their ranges. -/
theorem witness_WaggleLinesCompare :
    (∀ line ∈ [0, 2 ^ 64 - 1, 2 ^ 105 + 447 * 2 ^ 96 + 7 * 2 ^ 64 + 5, 2 ^ 96 + 7 * 2 ^ 64 + 5],
      line < 2 ^ 106 ∧ line / 2 ^ 96 % 2 ^ 9 < 448 ∧ (line / 2 ^ 96 % 2 ^ 9 = 0 → line / 2 ^ 105 = 0)) ∧
    (let line := 2 ^ 105 + 447 * 2 ^ 96 + 7 * 2 ^ 64 + 5
     line / 2 ^ 96 % 2 ^ 9 ≠ 0 ∧ line / 2 ^ 64 % 2 ^ 32 = 7 ∧ line / 2 ^ 96 % 2 ^ 9 + 1 = 448) := by decide

/-- lwag of one contributor, with its digest formed, at a line that is empty or an object. -/
theorem witness_DigestsArrive :
    ∀ m ∈ [false, true],
      let i := Instr.lwag (flagsOf none) 1 2 3 4
      let x := { cmdOf i 5 .active [own 0, 64, own 4096, BitVec.ofNat 64 (2 ^ 32 + 9)] with prog := 1, aux := [77] }
      let s := (withCmds .vector [x] []).setMark (home 4096) m
      runningNow s x = true ∧ i.flags.tag = false ∧ x.failed = none ∧ x.sent = false ∧ x.queue = 5 ∧
        (match s.engSpan 0 0 (val x.vals 2).toNat 64 .write with
         | .ok ls => decide (ls = [(some (home 4096), 64)])
         | _ => false) = true ∧
        s.poisoned (home 4096) 64 = false ∧ s.marked (home 4096) = m ∧ (∀ k, k < 64 → readByte s.mem (home 4096 + k) = 0) ∧
        wagNexp (val x.vals 3) = 1 := by decide +kernel

/-! ## Time, tile work, launches -/

theorem witness_GangTime :
    (let s := bench .vector []; CellIssues s 0 (cellOf s) [1] ∧ s.gang? (gangOfCell 0) = some (gangOf s)) ∧
    (∀ det ∈ [true, false], let s := changedPart (benchAt (.core 0) []) (fun p => { p with layout := { p.layout with det } })
     coreNow s 0 [1] = true ∧ s.det (.core 0) = det) ∧
    (∀ p ∈ [(1001, false), (1000, false), (999, false), (999, true)],
      let s := changed (bench .vector [(1, BitVec.ofNat 64 p.1)]) (fun c => { c with asElastic := p.2 })
      cellNow s [1] = true ∧ s.gang? (gangOfCell 0) = some (gangOf s) ∧
        (let slip := (s.now - ((gangOf s).base + (cellOf s).a.reg 1)).toNat
         (2 ^ 63 ≤ slip ↔ p.1 = 1001) ∧ (slip = 0 ↔ p.1 = 1000) ∧ (0 < slip ∧ slip < 2 ^ 32 ↔ p.1 = 999)) ∧ (cellOf s).asElastic = p.2) ∧
    (∀ u ∈ [1000, 1001], let s := changed (bench .vector []) (fun c => { c with until_ := some (BitVec.ofNat 64 u) })
     s.cell? 0 = some (cellOf s) ∧ s.cellRuns 0 (cellOf s) = true ∧ (2 ^ 63 ≤ (s.now - BitVec.ofNat 64 u).toNat ↔ u = 1001)) :=
  ⟨⟨cell_now (by decide +kernel), by decide +kernel⟩, by decide +kernel, by decide +kernel, by decide +kernel⟩

theorem witness_GangsStartOnTheirBaseCycle :
    ∀ b ∈ [1000, 1001], let s := changedGang (bench .vector []) (fun g => { g with state := .starting, startsAt := BitVec.ofNat 64 b })
      s.gang? 0 = some (gangOf s) ∧ (gangOf s).state = .starting ∧ (s.part (partOfGang 0)).live = true ∧
        (2 ^ 63 ≤ (s.now - (gangOf s).startsAt).toNat ↔ b = 1001) := by decide +kernel

/-- One cell has arrived at `at_`, 96 cycles before the notice: a target before, on and after the notice. -/
theorem witness_RealignsResume :
    (let s := bench .vector []; CellIssues s 0 (cellOf s) [1]) ∧
    ∀ p ∈ [(900, 990, true), (900, 1100, true), (950, 1046, true), (900, 500, false)],
      let w : GangWait := .realign (BitVec.ofNat 64 p.2.1) p.2.2 (BitVec.ofNat 64 p.1)
      let s := changed (bench .vector []) (fun c => { c with waiting := some w })
      let notice : Word := BitVec.ofNat 64 (p.1 + 96)
      let goal := (gangOf s).base + BitVec.ofNat 64 p.2.1
      s.gang? 0 = some (gangOf s) ∧ (gangOf s).state = .resident ∧ s.gangCells 0 = [(0, cellOf s)] ∧ (cellOf s).gone = false ∧
        s.cell? 0 = some (cellOf s) ∧ (BitVec.ofNat 64 p.1 - BitVec.ofNat 64 p.1).toNat < 2 ^ 62 ∧
        (p.2.2 = true → p.2.1 = 990 → (s.now - notice).toNat < 2 ^ 63) ∧ (cellOf s).waiting = some w ∧ s.cellRuns 0 (cellOf s) = true ∧ s.gangStep 0 = 0 ∧
        ((goal - notice).toNat < 2 ^ 63 ↔ p.2.1 = 1100 ∨ p.2.1 = 1046) ∧
        (p.2.1 = 500 → p.2.2 = false ∧ (notice - goal).toNat < 2 ^ 32) :=
  ⟨cell_now (by decide +kernel), by decide +kernel⟩

theorem witness_PredictionsRaiseTheStep :
    (255 < 256) ∧ (∀ w ∈ [1, 2], let s := { State.reset with lnkst := [(255, BitVec.ofNat 64 w)] }
      (s.lnkst.getD 255 0).getLsbD 6 = false ∧ ((s.lnkst.getD 255 0).toNat % 4 < 2 ↔ w = 1)) ∧
      (BitVec.ofNat 64 0x40).getLsbD 6 = true := by decide +kernel

theorem witness_TileWork :
    (∀ n ∈ [0, 1], let s := changed (bench .vector []) (fun c => { c with count := 1, walk := BitVec.ofNat 32 n })
     cellNow s [26, 27, 28, 29, 30, 31] = true ∧ (26 : BitVec 5) + 5 = 31 ∧ s.gang? (gangOfCell 0) = some (gangOf s) ∧
       ((cellOf s).walk.toNat < (cellOf s).count ↔ n = 0)) ∧
    (let perm := [2, 0]
     let ext := [3, 1, 5]
     perm.length ≤ 6 ∧ perm.Nodup ∧ (∀ d ∈ perm, d < 6 ∧ 0 < ext.getD d 1) ∧ 14 < (perm.map (fun d => ext.getD d 1)).foldl (· * ·) 1) ∧
    (let s := bench .vector []; cellNow s [1] = true ∧ s.gang? (gangOfCell 0) = some (gangOf s) ∧ (7 : BitVec 5).toNat < 8) ∧
    (let s := bench .vector []; cellNow s [] = true ∧ (cellOf s).a.out = [] ∧ (cellOf s).cmds = []) ∧
    (let s := fullQueue []; cellNow s [] = true ∧ (cellOf s).a.out ≠ []) ∧
    (∀ passed ∈ [false, true], let s := changed (bench .vector []) (fun c => { c with waiting := some (.gbar passed) })
     s.cells = [(0, cellOf s)] ∧ gangOfCell 0 = 0 ∧ (cellOf s).gone = false ∧ (cellOf s).waiting = some (.gbar passed) ∧
       s.cellRuns 0 (cellOf s) = true) ∧
    (let s := bench .vector []; s.cells = [(0, cellOf s)] ∧ (cellOf s).gone = false ∧ (cellOf s).waiting = none) := by decide +kernel

/-- A command of a launch program. -/
def streamCmd (k : StreamKind) (h : Nat) (st : Option Nat) : StreamCmd :=
  { handle := h, number := h, kind := k, desc := 0x400, waits := [], eligibleAt := none, status := st, consumed := false, kernel := none, gang := none, moved := 0,
    xfer := none, blocked := none }

def withLaunch (cs : List StreamCmd) (rs : List (BitVec 5 × Word)) : State :=
  changedLaunch { benchAt (.core 0) rs with rdymap0 := 0xFF } (fun x => { x with issued := cs.length, cmds := cs })

theorem witness_LaunchProgramForms_enter :
    ∀ p ∈ [(32, 0, 0), (64, 3 * 2 ^ 16, 1), (64, 1, 1), (64, 1, 16)],
      let s := withLaunch ((List.range p.2.2).map (fun k => streamCmd .sxin (k + 1) none)) [(2, BitVec.ofNat 64 p.1), (3, BitVec.ofNat 64 p.2.1)]
      let x := launchOf s
      coreNow s 0 [1, 2, 3] = true ∧ (s.core 0).launch = some 0 ∧ s.launches.find? 0 = some x ∧
        (p.2.1 = 3 * 2 ^ 16 → x.handleOk 3 = false) ∧ (p.2.1 = 1 → x.handleOk 1 = true) ∧
        ((s.part x.part).layout.scoreboard ≤ x.cmds.countP (fun c => !c.consumed) ↔ p.2.2 = 16) ∧
        (p.2.2 = 1 → s.entriesUsed x.part < (s.part x.part).layout.scoreboard) := by decide +kernel

/-- Another launch of the partition holds all the entries. -/
theorem witness_LaunchProgramForms_waits :
    let s := withLaunch [] [(2, 64)]
    let s := { s with launches := s.launches ++ [(1, { placeLaunch with cmds := (List.range 16).map (fun k => streamCmd .sxin (k + 1) none) })] }
    coreNow s 0 [1, 2, 3] = true ∧ (launchOf s).cmds.countP (fun c => !c.consumed) < (s.part 0).layout.scoreboard ∧
      (s.part 0).layout.scoreboard ≤ s.entriesUsed 0 := by decide +kernel

theorem witness_LaunchProgramForms_end :
    (∀ p ∈ [(5, none), (1, none), (1, some 0)],
      let s := withLaunch [streamCmd .sxout 1 p.2] [(2, BitVec.ofNat 64 p.1)]
      coreNow s 0 [1, 2] = true ∧ (s.core 0).launch = some 0 ∧ s.launches.find? 0 = some (launchOf s) ∧
        ((launchOf s).handleOk p.1 = true ↔ p.1 = 1) ∧ (p.1 = 1 → (launchOf s).statusOf 1 = p.2) ∧
        (launchOf s).cmds = [] ++ streamCmd .sxout 1 p.2 :: [] ∧ (streamCmd .sxout 1 p.2).gang = none) ∧
    (let s := withLaunch [] []; coreNow s 0 [1] = true ∧ ∀ c ∈ (launchOf s).cmds, c.consumed = true) ∧
    (let c := { streamCmd .klaunch 1 none with gang := some 0 }
     let s := withLaunch [c] [(2, 1)]
     coreNow s 0 [2] = true ∧ (launchOf s).handleOk 1 = true ∧ (launchOf s).cmds = [c] ∧ s.gang? 0 = some (gangOf s)) := by decide +kernel

/-- The vector die of slot 13 is active with all its units, and the partition's; nothing stands on them. -/
def freeDie (s : State) : State :=
  let s := { s with diemix := s.diemix.set 13 0x43, diecell := s.diecell.set 13 0xFFFFFFFF, rdymap0 := 0xFF, cells := [], gangs := [] }
  let s := { s with view := { s.view with diemix := s.diemix, diecell := s.diecell } }
  changedPart s (fun p => { p with layout := { p.layout with share := p.layout.share.set 13 0xFFFFFFFF } })

/-- A descriptor at 0x400 whose image at 0x800 has one role of one vector cell and a nest of one tile. -/
def kernelBytes : AMap Byte :=
  (([(0x401, 0x08), (0x800, 1), (0x806, 1), (0x810, 1), (0x840, 2), (0x842, 1)] : List (Nat × Nat)).map
    (fun p => (p.1, BitVec.ofNat 8 p.2)))

def kernelOf (s : State) : Kernel :=
  match s.readKernel (launchOf s) 0x400 with
  | .kernel k => k
  | _ => { gnum := 0, cl := 0, mbs := [], roles := [], binds := [], nest := { ndim := 0, extents := [], perm := [], total := 0 }, live := 0,
           plat := 0, timed := false }

theorem witness_KernelsAndGangs :
    (∀ p ∈ [(kernelBytes, true), ([], false)],
      let c := streamCmd .klaunch 1 none
      let s := { freeDie (withLaunch [c] []) with mem := p.1 }
      let x := launchOf s
      s.launches.find? 0 = some x ∧ x.cmds = [c] ∧ c.status = none ∧ c.kernel = none ∧ c.gang = none ∧ c.blocked = none ∧
        (s.part x.part).live = true ∧ s.rdymap0.getLsbD 5 = true ∧ c.waits = [] ∧
        (let u := s.modCmd 0 1 (fun d => { d with eligibleAt := some (d.eligibleAt.getD s.now) })
         u.readKernel x c.desc = if p.2 then .kernel (kernelOf s) else .status 0x04)) ∧
    (let c := streamCmd .klaunch 2 none
     let s := freeDie (withLaunch [{ c with waits := [1] }] [])
     (launchOf s).cmds = [{ c with waits := [1] }] ∧ (launchOf s).statusOf 2 = none) ∧
    (∀ st ∈ [some 0, some 6, none],
      let c := { streamCmd .klaunch 2 none with waits := [1] }
      let s := freeDie (withLaunch [streamCmd .sxin 1 st, c] [])
      s.launchCmd? 0 2 = some c ∧ (launchOf s).statusOf 1 = st) ∧
    (∀ page ∈ [0, 5],
      let c := { streamCmd .klaunch 1 none with desc := 0x5000, blocked := some (5, page) }
      let s := freeDie (withLaunch [c] [])
      let u := s.modCmd 0 1 (fun d => { d with eligibleAt := some (d.eligibleAt.getD s.now) })
      s.launchCmd? 0 1 = some c ∧ (s.part 0).changes = 0 ∧ (c.blocked = some (5, (s.part 0).changes) ↔ page = 0) ∧
        (match u.readKernel (launchOf s) c.desc with
         | .waits code ad => decide (code = 1 ∧ ad = 0x5000)
         | _ => false) = true) ∧
    (∀ up ∈ [true, false],
      let s0 := { freeDie (withLaunch [] []) with mem := kernelBytes }
      let c := { streamCmd .klaunch 1 none with kernel := some (kernelOf s0) }
      let s := changedLaunch s0 (fun x => { x with cmds := [c] })
      let s := if up then s else { s with view := State.reset.view, diecell := State.reset.diecell, diemix := State.reset.diemix }
      s.launchCmd? 0 1 = some c ∧ s.unitsShort (launchOf s) (kernelOf s0).cl (kernelOf s0).timed (kernelOf s0).roles = !up) ∧
    (let s0 := { freeDie (withLaunch [] []) with mem := kernelBytes }
     let c := { streamCmd .klaunch 1 none with kernel := some (kernelOf s0) }
     let s := changedLaunch s0 (fun x => { x with cmds := [c] })
     s.dispatchDue 0 1 = true ∧ s.launchCmd? 0 1 = some c ∧ s.unitsFor (launchOf s) (kernelOf s0) = some [416] ∧
       s.gang? (0 * 1024 + 0) = none ∧ (kernelOf s0).roles.map (fun r => (r.count, r.acc)) = [(1, 0)]) := by decide +kernel

/-- A transfer that waits for another: not completed, failed, and done. -/
theorem witness_StreamTransfersCopy_waits :
    ∀ st ∈ [none, some 6, some 0],
      let c := { streamCmd .sxin 2 none with waits := [1] }
      let s := withLaunch [streamCmd .sxin 1 st, c] []
      s.launches.find? 0 = some (launchOf s) ∧ s.launchCmd? 0 2 = some c ∧ (s.part 0).live = true ∧ s.rdymap0.getLsbD 5 = true ∧
        (launchOf s).statusOf 1 = st ∧ c.blocked = none ∧ c.xfer = none := by decide +kernel

/-- A transfer from HBM to the slice of a cell: its descriptor not read, in progress, and done. -/
theorem witness_StreamTransfersCopy :
    (let c := streamCmd .sxin 1 none
     let s := withLaunch [c] []
     (launchOf s).cmds = [c] ∧ c.kind ≠ .klaunch ∧ (s.part 0).live = true ∧
       (match s.streamBytes (launchOf s) c.desc 64 with
        | .ok _ => true
        | _ => false) = true) ∧
    (∀ m ∈ [60, 128],
      let c := { streamCmd .sxin 1 none with xfer := some (0x100, 0x800, 128), moved := m }
      let s := withLaunch [c] []
      (launchOf s).cmds = [c] ∧ (s.part 0).mirrorOut = [] ∧ (c.moved < 128 ↔ m = 60) ∧
        (m = 60 → 4 = min (128 - m) (min (64 - (0x100 + m) % 64) (64 - (0x800 + m) % 64)) ∧
          isMirrored (0x800 + BitVec.ofNat 64 m) = false ∧
          s.streamSpan (launchOf s) (0x100 + BitVec.ofNat 64 m) 4 .read = .places [(some (0x100 + m), 4)] ∧
          s.streamSpan (launchOf s) (0x800 + BitVec.ofNat 64 m) 4 .write = .places [(some (0x800 + m), 4)] ∧
          s.placesPoisoned [(some (0x100 + m), 4)] = false ∧ s.partialPoison (0x800 + m) 4 = false ∧ s.hitsObject (0x800 + m) 4 = false)) := by
  decide +kernel

/-- A queue of 16 records in HBM at 0x200 with the record of sequence number 5 at its head. -/
def queueState (en : Bool) : State :=
  let s := bench .vector []
  let record := 5 * 2 ^ 256 + 0x400 * 2 ^ 320 + 0x800 * 2 ^ 384 + 0x10 * 2 ^ 448
  { s with rdymap0 := 1, wqcfg := [(0, BitVec.ofNat 64 (en.toNat * 2 ^ 63 + 0x200))], queues := [(0, { Queue.new with tail := 1 })],
           mem := writeBytes [] 0x200 (leBytes 64 record), cores := s.cores.set 2 { Core.idle with part := some 0 } }

theorem witness_WorkQueues :
    (let s := queueState true
     s.queueSpan 0 (-128) 4 .write = some [(some 0x180, 4)] ∧ (s.wq 0).getLsbD 63 = true ∧ wqRing (s.wq 0) = 16 ∧
       s.queueSpan 0 (-112) 8 .write = some [(some 0x190, 8)] ∧
       (∀ p ∈ (changedLaunch s (fun x => { x with seq := 5 })).launches, serialGE 4 p.2.seq.toNat 32 = false)) ∧
    ({ queueState true with wqcfg := [(0, 0x8000000000005000)] }.queueSpan 0 (-128) 4 .write = none) ∧
    (let s := queueState true
     let r := 5 * 2 ^ 256 + 0x400 * 2 ^ 320 + 0x800 * 2 ^ 384 + 0x10 * 2 ^ 448
     s.launchDue 0 = true ∧ s.nextQueue 0 = some 0 ∧ wqPart (s.wq 0) = 0 ∧ s.record 0 (s.queue 0).head = some r ∧ s.headCancelled 0 = false ∧
       (s.part 0).wpol = 0 ∧ crecOk (recCrec r) = true ∧ recordOk r = true ∧ s.freeCore 0 = some 2 ∧
       s.portSpan 0 (wqPort (s.wq 0)) (recArgs r) 128 .read = some [(some 0x800, 128)] ∧
       s.placesPoisoned [(some 0x800, 128)] = false ∧ s.queueSpan 0 (-64) 4 .write = some [(some 0x1C0, 4)]) ∧
    (0 ∈ (queueState true).wqcfg.map (·.1) ∧ (queueState true).headReady 0 = true ∧ (queueState false).headReady 0 = false ∧
      1 ∉ (queueState true).wqcfg.map (·.1)) := by decide +kernel

theorem witness_WorkQueues_completion :
    (let s := withLaunch [streamCmd .sxin 1 none] []; s.launches.find? 0 = some (launchOf s) ∧ (launchOf s).ended = none) ∧
    (let s := changedLaunch (withLaunch [streamCmd .sxin 1 (some 0)] []) (fun x => { x with ended := some (2, 7), crec := 0x400 })
     let x := launchOf s
     x.ended = some (2, 7) ∧ (∀ c ∈ x.cmds, c.status ≠ none) ∧ (s.part x.part).formed = true ∧ (∀ y ∈ s.stays, y.launch ≠ some 0) ∧
       s.portSpan x.part x.port (x.crec + 64) 64 .write = some [(some 0x440, 64)] ∧
       s.portSpan x.part x.port x.crec 64 .write = some [(some 0x400, 64)] ∧ 0x400 + 64 ≤ 0x440) := by decide +kernel

/-! ## Traps, system registers, translation -/

theorem witness_FormsTrapOutOfPlace :
    (let s := bench .vector []; s.focus = .aseq 0 ∧ s.issuing (.aseq 0) = true ∧ s.aseq? (.aseq 0) = some (cellOf s).a ∧ (cellOf s).a.out = [] ∧
      supervisorMinor (.tret 1 2) = some 0 ∧ launchMinor (.swait 1 2) = some 6) ∧
    (let s := benchAt (.core 0) []; s.issuing (.core 0) = true ∧ s.aseq? (.core 0) = some (s.core 0).a ∧ (s.core 0).a.out = [] ∧
      (s.core 0).priv = .user ∧ supervisorMinor (.wset 1 2 3) = some 0xD ∧ cellForm .gbar = some (0x1C, 2, false)) ∧
    (let s := benchAt (.core 1) []; s.issuing (.core 1) = true ∧ s.aseq? (.core 1) = some (s.core 1).a ∧ (s.core 1).a.out = [] ∧
      (s.core 1).priv = .supervisor) := by decide +kernel

/-- The ring of trap records at address 0, with `n` records. -/
def ringed (ag : Agent) (n : Nat) : State :=
  changedPart (benchAt ag []) (fun p => { p with tqcfg := 0x8000000000000000, tqtail := BitVec.ofNat 32 n })

theorem witness_TrapsAreRecorded :
    (∀ ag ∈ [Agent.aseq 0, .xseq 0, .core 0], let s := benchAt ag []
     s.agentPriv ag = .user ∧ (s.cell? 0).isSome = true ∧ (s.gang? (gangOfCell 0)).isSome = true) ∧
    (∀ p ∈ [(255, TrapClass.fatal), (251, .replayable), (251, .event)],
      let s := changedPart (ringed (.aseq 0) 266) (fun q => { q with tqhead := BitVec.ofNat 32 (266 - p.1) })
      let pt := s.part 0
      s.agentPart (.aseq 0) = 0 ∧ s.agentPriv (.aseq 0) = .user ∧ pt.tqcfg.getLsbD 63 = true ∧ (pt.tqtail - pt.tqhead).toNat = p.1 ∧
        pt.heldRecords = [] ∧ s.deviceSpan 0 (BitVec.ofNat 64 (64 * (pt.tqtail.toNat % 256))) 64 .write = some [(some 640, 64)]) ∧
    (∀ p ∈ [Agent.aseq 0, .xseq 0, .core 0],
      let s := changedPart (ringed p 10) (fun p => { p with tqhead := 5 })
      s.agentPriv p = .user ∧ s.agentPart p = 0 ∧
        s.deviceSpan 0 (BitVec.ofNat 64 ((s.part 0).tqcfg.toNat / 2 ^ 14 % 2 ^ 34 * 2 ^ 14 + 64 * ((s.part 0).tqtail.toNat % 256))) 64 .write =
          some [(some 640, 64)] ∧ s.cell? 0 = some (cellOf s) ∧ s.gang? (gangOfCell 0) = some (gangOf s) ∧ (gangOf s).queue < 2 ^ 16) := by
  decide +kernel

/-- A ring with four free records, one that is full, and one that is not enabled. -/
theorem witness_TrapsWithoutRoom :
    (∀ n ∈ [252, 256], let s := ringed (.aseq 0) n
     s.agentPart (.aseq 0) = 0 ∧ (s.part 0).stopped = false ∧ s.cell? 0 = some (cellOf s) ∧
       256 - ((s.part 0).tqtail - (s.part 0).tqhead).toNat ≤ 4 ∧ (256 - ((s.part 0).tqtail - (s.part 0).tqhead).toNat = 0 ↔ n = 256)) ∧
    (let s := changedPart (bench .vector []) (fun p => { p with tqcfg := 0x8000000000004000 })
     s.deviceSpan 0 (BitVec.ofNat 64 0x4000) 64 .write = none ∧ (s.part 0).tqcfg.toNat / 2 ^ 14 % 2 ^ 34 * 2 ^ 14 = 0x4000 ∧
       (s.part 0).heldRecords = [] ∧ 4 < 256 - ((s.part 0).tqtail - (s.part 0).tqhead).toNat) ∧
    ((bench .vector []).part 0).tqcfg.getLsbD 63 = false ∧ ((bench .vector []).core 1).priv = .supervisor ∧
    (let s := (bench .vector []).setCore 2 { placeCore .root none with part := none }
     (s.core 2).priv = .root ∧ s.agentPart (.core 2) < 8 ∧ (s.part (s.agentPart (.core 2))).stopped = false) := by decide +kernel

/-- Firmware on core 1 with the cell of gang 0 stopped on a trap. -/
def trapOf (cls : TrapClass) : TrapRecord :=
  { kind := 9, code := 1, cls, sq := false, eng := false, cc := false, cell := 0, gid := 0, queue := 0, seq := 0, info := 0, cyc := 0, pc := 0, addr := 0 }

def stoppedCell (cls : TrapClass) (held : Bool) (emu : Word) (ctl : Word) (rs : List (BitVec 5 × Word)) : State :=
  { changed (bench .vector rs) (fun c => { c with trap := some { record := trapOf cls, held }, emu := c.emu.set 0 emu, emuCtl := ctl }) with
    focus := .core 1 }

theorem witness_TrapReturnsResume :
    (let s := benchAt (.core 1) [(2, 2 ^ 26)]; SupervisorIssues s 1 [1, 2] ∧ 2 ^ 26 ≤ ((s.core 1).a.reg 2).toNat) ∧
    (let s := benchAt (.core 1) [(2, 1023 * 2 ^ 16 + 511)]; SupervisorIssues s 1 [1, 2] ∧ s.gang? (0 * 1024 + 1023) = none) ∧
    (let s := benchAt (.core 1) []; s.cell? 0 = some (cellOf s) ∧ (cellOf s).trap = none ∧ (cellOf s).gone = false) ∧
    (∀ p ∈ [(TrapClass.replayable, true), (.replayable, false), (.fatal, false)],
      let s := stoppedCell p.1 p.2 0 0 []
      supNow s 1 [1, 2] = true ∧ ((s.core 1).part).getD 0 = 0 ∧ s.gang? 0 = some (gangOf s) ∧ (gangOf s).state = .resident ∧
        s.cell? 0 = some (cellOf s) ∧ (cellOf s).gone = false ∧ (cellOf s).trap = some { record := trapOf p.1, held := p.2 } ∧
        s.inExchange 0 = false) ∧
    (∀ p ∈ [(0, 0x88019080, false), (1, 0x88019080, true), (257, 0x9C1087FB, true)],
      let s := stoppedCell .replayable false (BitVec.ofNat 64 p.2.1) (BitVec.ofNat 64 p.1) []
      (emulatedInstr (cellOf s).emuCtl (cellOf s).emu).isSome = p.2.2 ∧ ((cellOf s).emuCtl.getLsbD 8 = true ↔ p.1 = 257)) ∧
    (let s := (benchAt (.core 1) [(2, 2 ^ 31)]).setCore 0 { placeCore .user (some 0) with trap := some { record := trapOf .replayable, held := false } }
     SupervisorIssues s 1 [1, 2] ∧ ((s.core 1).a.reg 2).toNat = 2 ^ 31 + 0 ∧ (s.core 0).part = some 0 ∧ (s.core 0).trap.isSome = true) :=
  ⟨⟨sup_now (by decide +kernel), by decide +kernel⟩, ⟨sup_now (by decide +kernel), by decide +kernel⟩, by decide +kernel, by decide +kernel,
   by decide +kernel, sup_now (by decide +kernel), by decide +kernel⟩

/-- A gang that is killed while it stands, in an exchange, and with an xfer that has issued; words that tret.emu stands in for. -/
theorem witness_TrapReturnsResume_kill :
    (∀ n ∈ [0, 1, 2],
      let s := stoppedCell .fatal false 0 0 [(2, 0)]
      let s := if n = 1 then changedPart s (fun p => { p with swaps := [{ core := 2, outGid := some 0, inGid := none }] }) else s
      let s := if n = 2 then changed s (fun c => { c with a := { c.a with
        out := [accessOf (.xfer 3 7) (BitVec.ofNat 64 objName) 8 none true], nextId := 1 } }) else s
      supNow s 1 [1, 2] = true ∧ ((s.core 1).a.reg 2).toNat = 0 ∧ (gangOf s).state = .resident ∧ (s.inSwap 0 = true ↔ n = 1) ∧
        (s.unperformed 0 = true ↔ n = 2) ∧
        (let c := { streamCmd .klaunch 0 none with gang := some 0 }
         let t := changedGang (changedLaunch s (fun x => { x with cmds := [c] })) (fun g => { g with launch := some 0 })
         t.gangLaunch 0 (gangOf t) = some 0 ∧ t.launches.find? 0 = some (launchOf t))) ∧
    (∀ x ∈ [false, true],
      let s := if x then placedMove else placedAdd
      (match s.fetch (if x then .xseq 0 else .aseq 0) { (cellOf s).a.pos with buf := [], emu := none } x with
       | .word _ => true
       | _ => false) = true) := by decide +kernel

/-- Numbers at the ends of the register ranges, of another partition, malformed, and of a frame word. -/
theorem witness_SystemRegistersAreRead :
    (∀ v ∈ [0x1F, 0x3F, 0x4B, 0x4C, 0x1FF, 0xFFF, 0x1FFF, 0x2201, 0xFFFF, 7 * 2 ^ 56, 2 ^ 61, 2 ^ 16, 2 ^ 60 + 2 ^ 13],
      let s := { benchAt (.core 1) [(2, BitVec.ofNat 64 v)] with wqcfg := [(0xFFF, 2 ^ 57)] }
      supNow s 1 [1, 2] = true ∧ ((s.core 1).a.reg 2).toNat = v ∧ (s.core 1).priv = .supervisor ∧ (s.wq 0xFFF).toNat / 2 ^ 57 % 8 ≠ 0) ∧
    (let s := (benchAt (.core 1) []).setCore 1 { placeCore .root none with part := none }; supNow s 1 [1, 2] = true ∧ (s.core 1).priv = .root) ∧
    (let s := stoppedCell .replayable false 0 0 [(2, 2 ^ 60 + 0x40 + 31)]
     supNow s 1 [1, 2] = true ∧ ((s.core 1).a.reg 2).toNat = 2 ^ 60 + 0 * 2 ^ 40 + 0 * 2 ^ 30 + (0x040 + 31) ∧
       s.cell? ((0 * 1024 + 0) * 512 + 0) = some (cellOf s) ∧ (cellOf s).gone = false ∧ (cellOf s).trap.isSome = true ∧
       (cellOf s).a.pos.levels.length ≤ 6 ∧ (cellOf s).x.pos.levels.length ≤ 6) ∧
    (∀ n ∈ [0, 1], let s := changedPart (benchAt (.core 1) []) (fun p => { p with tqtail := BitVec.ofNat 32 n })
     supNow s 1 [1] = true ∧ ((s.part 0).tqtail = (s.part 0).tqhead ↔ n = 0)) := by decide +kernel

theorem witness_SystemRegistersAreWritten :
    (∀ v ∈ [0x43, 0x1FFF, 7 * 2 ^ 56 + 0x43, 2 ^ 61],
      let s := { benchAt (.core 1) [(2, BitVec.ofNat 64 v), (3, 5)] with wqcfg := [(0xFFF, 2 ^ 57)] }
      supNow s 1 [2, 3] = true ∧ ((s.core 1).a.reg 2).toNat = v) ∧
    (let s := stoppedCell .replayable false 0 0 [(2, 2 ^ 60 + 0x07F), (3, 5)]; supNow s 1 [2, 3] = true ∧ (cellOf s).trap.isSome = true) ∧
    (let s := bench .vector []; (s.part 7).heldRecords = [] ∧ s.hsem.held = false ∧ 7 < 8 ∧ 0xFFFF < 2 ^ 16) ∧
    (let s := { State.reset with hsem := { seq := 1, owner := true, held := true } }; s.hsem.held = true) ∧ 4095 < 4096 := by decide +kernel

/-- A list of one entry at address 64: bits of BASE and LEAF, and the rest of it 0. -/
def updateState (base leaf : Nat) (n : Nat) : State :=
  let s := { benchAt (.core 1) [(2, 64), (3, BitVec.ofNat 64 n)] with mem := writeBytes [] 64 (leBytes 8 base ++ leBytes 8 leaf) }
  changedPart s (fun p => { p with layout := { p.layout with hbm := [(0, 2 ^ 32)] } })

/-- An HBM leaf with read permission: 4 KiB, at physical address 0x2000. -/
def goodLeaf : Nat := 2 ^ 63 + 2 ^ 58 + 0x2000

theorem witness_TableUpdatesAreApplied :
    (∀ n ∈ [0, 257, 1], let s := updateState 0x1000 goodLeaf n; supNow s 1 [1, 2, 3] = true ∧ ((s.core 1).a.reg 3).toNat = n ∧
      (s.core 1).a.out = [] ∧ s.agentPart (.core 1) = 0 ∧ s.rdymap0.getLsbD 3 = false ∧ { s with rdymap0 := 8 }.rdymap0.getLsbD 3 = true ∧
      ((List.range 16).all (fun j => (s.core j).wait == none)) = true) ∧
    (let s := updateState 0x1000 goodLeaf 1
     let s := s.setCore 1 { s.core 1 with a := { (s.core 1).a with out := [accessOf (.store 0) 64 8 (some 64) true] } }
     supNow s 1 [1, 2, 3] = true ∧ (s.core 1).a.out ≠ []) ∧
    (∀ p ∈ [(2 ^ 48, goodLeaf, 1), (0x1001, goodLeaf, 1), (0x1000, goodLeaf + 1, 2), (0x1000, 2 ^ 63 + 2 ^ 58 + 2 ^ 40, 3), (0x1000, goodLeaf, 0), (0x1000, 0, 0)],
      let s := updateState p.1 p.2.1 1
      let leaf := BitVec.ofNat 64 (readLE s.mem 72 8)
      (match s.span (.core 1) false 64 32 .read with
       | .ok ls => decide (ls = [(some 64, 32)])
       | .error _ => false) = true ∧
        (match s.span (.core 1) false 64 32 .write with
         | .ok ls => decide (ls = [(some 64, 32)])
         | .error _ => false) = true ∧ s.poisoned 64 32 = false ∧
        (p.2.2 = 1 ↔ 2 ^ 48 ≤ readLE s.mem 64 8 ∨ readLE s.mem 64 8 % 0x1000 ≠ 0) ∧ (leafMalformed leaf = true ↔ p.2.2 = 2) ∧
        (p.2.2 = 3 → (s.part 0).frameOk leaf = false) ∧ (p.2.2 = 0 → leaf.getLsbD 63 = true → (s.part 0).frameOk leaf = true) ∧
        (∃ r ∈ (s.part 0).replicas, r.2.gen ≠ (s.part 0).sentGen + 1)) ∧
    (∀ n ∈ [0, 1], let s := changedPart (bench .vector []) (fun p => { p with sentGen := BitVec.ofNat 64 n })
     ((s.part 0).replicas.find? 25).isSome = true ∧ ((((s.part 0).replicas.find? 25).map (·.gen)).getD 0 = (s.part 0).sentGen ↔ n = 0)) := by
  decide +kernel

theorem witness_TranslationForms :
    (∀ v ∈ [0x3000000000000000, 0x5000, 0xFFF, 0x4000000000000000], let s := bench .vector [(2, BitVec.ofNat 64 v)]
     issuesNow s [1, 2] = true ∧ (3 : BitVec 5).toNat < 4 ∧
       (let path := v / 2 ^ 60
        (path ∉ [0, 2, 4, 5] ∨ v / 2 ^ 48 % 2 ^ 12 ≠ 0 ↔ v = 0x3000000000000000) ∧
          ((findEntry (s.replica (s.agentPart (.aseq 0)) (s.agentSlot (.aseq 0))) (v % 2 ^ 48)).isSome = true ↔ v ≠ 0x5000) ∧
          (v = 0xFFF → xlatCode (findEntry (s.replica 0 13) 0xFFF) true .read = 0 ∧ pathAccepts 0 0 false = true) ∧
          (v = 0x4000000000000000 → pathAccepts 4 0 false = false))) ∧
    (∀ n ∈ [0, 1], let s := changedPart (benchAt (.core 1) []) (fun p => { p with sentGen := BitVec.ofNat 64 n })
     supNow s 1 [1, 2] = true ∧ ((∀ r ∈ (s.part 0).replicas, r.2.gen = (s.part 0).sentGen) ↔ n = 0)) ∧
    (∀ out ∈ [true, false],
      let s := if out then pendingAccess (accessOf (.store 7) 64 8 (some 64) true) else bench .vector []
      let s := { s with focus := .core 1 }
      supNow s 1 [1, 2] = true ∧ (s.translatedIn 0 0 (2 ^ 48) = [] ∧ (s.part 0).mirrorsIn 0 (2 ^ 48) = [] ↔ out = false) ∧
        (let t := s.setCore 1 { s.core 1 with wait := some (.tlbinv [(.aseq 0, 0)] []) }
         (t.core 1).wait = some (.tlbinv [(.aseq 0, 0)] []) ∧ t.tlbinvDone 0 [(.aseq 0, 0)] [] = !out)) := by
  decide +kernel

/-- A scan of the placed page in progress, of an entry and of a patch; operands of cpatch that are refused and taken. -/
def scanOf (patch : Option (List Byte × List (Nat × Nat))) : Scan :=
  { base := 0, size := 4096, tag := false, leaf := (placePage false).leaf, locs := [(0, 4096)], fixed := none, core := 1, eres := none, patch }

theorem witness_ScansDecideExecution :
    (∀ i ∈ [Instr.add 1 2 3 0, .cpy (flagsOf none) true 0 1 2 3 0 4, .nop], i.wellFormed = true ∧ acceptedOn false i = true ∧ staticOffset i = none ∧
      (match i with
       | .blkImmediate .. => true
       | .blkRegister .. => true
       | _ => false) = false) ∧
    (let s := { changedPart (bench .vector []) (fun p => { p with scans := [scanOf none] }) with rdymap0 := 0x10 }
     (s.part 0).scans = scanOf none :: [] ∧ s.rdymap0.getLsbD 4 = true) ∧
    (let c := scanOf (some ([0, 0], [(0, [(0 : Byte), 0].length)]))
     let s := (changedPart (bench .vector []) (fun p => { p with scans := [c] })).setCore 1 { placeCore .supervisor none with wait := some (.cpatch 3) }
     (s.part 0).scans = c :: [] ∧ c.core = 1 ∧ (s.core 1).wait = some (.cpatch 3)) ∧
    (∀ p ∈ [(2 ^ 48, 64), (0x5000, 64), (0, 32), (0, 2 ^ 60), (0, 0x10000), (0, 0)],
      let s := benchAt (.core 1) [(2, BitVec.ofNat 64 p.1), (3, BitVec.ofNat 64 p.2)]
      supNow s 1 [1, 2, 3] = true ∧ ((findEntry (s.part 0).entries (p.1 % 2 ^ 48)).isSome = true ↔ p.1 ≠ 0x5000) ∧ (s.core 1).a.out = [] ∧
        (p.1 = 0 → (findEntry (s.part 0).entries 0).map (fun e => (e.granted, e.leaf.toNat / 2 ^ 59 % 4)) = some (true, 0)) ∧
        (p.1 = 0 → p.2 % 64 = 0 → p.2 < 2 ^ 60 → ((match s.span (.core 1) false (BitVec.ofNat 64 p.2) 4096 .read with
          | .ok ls => !s.placesPoisoned ls
          | .error _ => false) = true ↔ p.2 = 0))) := by decide +kernel

/-! ## Pre-emption, contexts, exits -/

def gangIn (st : GangState) (s : State) : State := changedGang s (fun g => { g with state := st, haltedAt := 400 })

/-- The context of the bench's cell, parked, and a state in which it is parked. -/
def parkedOf (s : State) : Parked := { cell := cellOf s, live := [(3, 7)], marks := [], tags := [], corrupt := false }

def parkedState (s : State) : State := gangIn .parked { s with cells := [], parked := [(0, parkedOf s)] }

/-- The vector die of slot 13 is active with all its units, and the partition's. -/
def dieUp (s : State) : State := { freeDie s with cells := s.cells, gangs := s.gangs }

theorem witness_PreemptionIsRequested_codes :
    (∀ p ∈ [(1024, 0xFFFF, 1), (7, 0xFFFF, 1), (0xFFFF, 7, 1), (0, 0xFFFF, 0)],
      let s := benchAt (.core 1) [(2, BitVec.ofNat 64 p.1), (3, BitVec.ofNat 64 p.2.1)]
      supNow s 1 [1, 2, 3] = true ∧ (p.2.2 = 0 → s.inExchange 0 = false ∧ (gangOf s).state = .resident ∧
        (s.gangCells 0).all (fun q => q.2.gone || decide (s.buffersUsed q.2.slot q.2.unit none < 2)) = true)) ∧
    (let s := benchAt (.core 1) [(2, 0), (3, 0xFFFF)]
     supNow (gangIn .starting s) 1 [1, 2, 3] = true ∧
      (let t := changedPart s (fun p => { p with swaps := [{ core := 2, outGid := some 0, inGid := none }] })
       supNow t 1 [1, 2, 3] = true ∧ t.inExchange 0 = true) ∧
      (let t := { s with gangs := s.gangs ++ [(1, { placedGang with state := .parked }), (2, { placedGang with state := .parked })],
                         parked := [(512, parkedOf s), (1024, parkedOf s)] }
       supNow t 1 [1, 2, 3] = true ∧ (t.gangCells 0).any (fun q => !q.2.gone && decide (2 ≤ t.buffersUsed q.2.slot q.2.unit none)) = true)) := by
  decide +kernel

theorem witness_PreemptionIsRequested_resume :
    let s := benchAt (.core 1) [(2, 0xFFFF), (3, 0)]
    let t := parkedState s
    let u := dieUp t
    supNow s 1 [1, 2, 3] = true ∧ (gangOf s).state ≠ .parked ∧ supNow t 1 [1, 2, 3] = true ∧ (gangOf t).state = .parked ∧
      (t.contextsOf 0).all (fun q => t.takesBack none q.2.cell) = false ∧ supNow u 1 [1, 2, 3] = true ∧ (gangOf u).state = .parked ∧
      (u.contextsOf 0).all (fun q => u.takesBack none q.2.cell) = true ∧ u.inExchange 0 = false ∧
      (changedPart u (fun p => { p with swaps := [{ core := 2, outGid := none, inGid := some 0 }] })).inExchange 0 = true := by decide +kernel

theorem witness_PreemptionIsRequested_save :
    (∀ p ∈ [(1024, 0), (7, 0), (0, 0x10), (0, 2 ^ 48), (0, 0x1000)],
      let s := benchAt (.core 1) [(2, BitVec.ofNat 64 p.1), (3, BitVec.ofNat 64 p.2)]
      supNow s 1 [1, 2, 3] = true ∧ s.inExchange 0 = false ∧ (gangOf s).state = .resident) ∧
    (let s := gangIn .starting (benchAt (.core 1) [(2, 0), (3, 0x1000)]); supNow s 1 [1, 2, 3] = true ∧ (gangOf s).state = .starting) ∧
    (let s := parkedState (benchAt (.core 1) [(2, 0), (3, 0x1000)])
     supNow s 1 [1, 2, 3] = true ∧ (gangOf s).state = .parked ∧ s.inExchange 0 = false) ∧
    (let s := bench .vector []; (cellOf s).gone = false ∧ (gangOf s).state ≠ .halting) ∧
    (let s := changed (gangIn .halting (bench .vector [])) (fun c => { c with a := { c.a with pos := { c.a.pos with boundary := true } } })
     (s.cell? 0).isSome = true ∧ (gangOf s).state = .halting ∧ (s.part 0).live = true ∧ (cellOf s).gone = false ∧ (cellOf s).halted = false ∧
       (cellOf s).x.issued = false ∧ (cellOf s).cmds = [] ∧ (cellOf s).a.pos.boundary = true) := by decide +kernel

/-- Core 1 waits for the exchange given, or for the save. -/
def exchanging (o i : Option Nat) (s : State) : State :=
  (changedPart s (fun p => { p with swaps := [{ core := 1, outGid := o, inGid := i }] })).setCore 1
    { placeCore .supervisor none with wait := some (.pswap 1) }

theorem witness_ExchangesParkAndResume :
    (let s := changed (exchanging (some 0) none (gangIn .halting (bench .vector []))) (fun c => { c with halted := true })
     (s.part 0).live = true ∧ (s.part 0).swaps = [{ core := 1, outGid := some 0, inGid := none }] ∧ (gangOf s).doomed = none ∧
       (gangOf s).wear = 0 ∧ s.gangCtx 0 = none ∧ (s.core 1).wait = some (.pswap 1) ∧ s.gangHalted 0 = true ∧ s.gangCells 0 = [(0, cellOf s)] ∧
       (cellOf s).gone = false) ∧
    (∀ up ∈ [true, false],
     let s := exchanging none (some 0) (parkedState (if up then dieUp (bench .vector []) else bench .vector []))
     let x := parkedOf (bench .vector [])
     (changedPart s (fun p => { p with swaps := [] })).takesBack none x.cell = up ∧ (s.part 0).quotaOn = false ∧
     (s.part 0).swaps = [{ core := 1, outGid := none, inGid := some 0 }] ∧ (gangOf s).doomed = none ∧ s.gangCells 0 = [] ∧
       s.contextsOf 0 = [(0, x)] ∧ x.corrupt = false ∧ x.cell.trap = none ∧ x.cell.gone = false ∧ x.live.rising = true ∧
       x.live.all (fun b => decide (b.1 < x.cell.ctype.sliceSize)) = true) := by decide +kernel

/-- The partition's table maps 1 GiB at 0, if asked. -/
def mapped (big : Bool) (s : State) : State :=
  if big then changedPart s (fun p => p.placed { base := 0, leaf := BitVec.ofNat 64 (2 ^ 63 + 3 * 2 ^ 61 + 2 ^ 58 + 2 ^ 57), granted := true }) else s

def saving (big : Bool) : State :=
  let s := mapped big (parkedState (bench .vector []))
  (changedPart s (fun p => { p with saves := [{ core := 1, gid := 0, area := 0, wasParked := true }] })).setCore 1
    { placeCore .supervisor none with wait := some (.ctxsv 1) }

theorem witness_SavesAndRestores_save :
    ∀ big ∈ [true, false], let s := saving big
      (s.part 0).live = true ∧ (s.part 0).saves = [{ core := 1, gid := 0, area := 0, wasParked := true }] ∧ (gangOf s).doomed = none ∧
        (gangOf s).wear = 0 ∧ (s.part 0).quotaOn = false ∧ (s.core 1).wait = some (.ctxsv 1) ∧
        (match s.areaSpan 1 0 0 (areaLen (gangOf s).ncells) .write with
         | some ((some l, n) :: rest) => big && l == 0 && n == 4096 && rest.all (fun q => q.1.all (fun m => decide (4096 ≤ m)))
         | some _ => false
         | none => !big) = true := by decide +kernel

def headerBytes (version magic : Nat) : AMap Byte :=
  writeBytes [] 0 (leBytes 4 magic ++ leBytes 2 1 ++ leBytes 2 1 ++ leBytes 8 version ++ List.replicate 48 0 ++ [2])

/-- A save area's header at 0: one vector cell, its table version and class as given. -/
def headerState (version magic : Nat) (a : Nat) (up big : Bool) : State :=
  let s := mapped big { benchAt (.core 1) [(2, BitVec.ofNat 64 a)] with mem := headerBytes version magic }
  if up then changedPart (dieUp s) (fun p => { p with layout := { p.layout with share := p.layout.share.set 13 0xFFFFFFFF } }) else s

theorem witness_SavesAndRestores_load_area :
    (∀ a ∈ [2 ^ 48, 16], let s := headerState 0 0 a false false; supNow s 1 [1, 2] = true) ∧
    (let s := headerState 0 0 0x1000 false false
     supNow s 1 [1, 2] = true ∧ (s.areaSpan 1 0x1000 0 4096 .read).isNone = true) := by decide +kernel

/-- The premises of the clauses on a header that is read, with the code that its clause gives (the table, and so the area, is one
for all). -/
def loads (version magic : Nat) (up : Bool) (code : Nat) : Bool :=
  let s := headerState version magic 0 up true
  let bs := readBytes s.mem 0 4096
  supNow s 1 [1, 2] && s.areaSpan 1 0 0 4096 .read == some [(some 0, 4096)] && field bs 6 2 == 1 && headerTypes bs 1 == some [.vector] &&
    (code != 0 || (s.areaSpan 1 0 0 (areaLen 1) .read).isSome) && (s.gang? 1).isNone && (s.gang? 0).isSome &&
    (s.linkedLaunch 0 (field bs 28 2) (field bs 30 2) (BitVec.ofNat 32 (field bs 24 4))).isNone && s.contexts.isEmpty &&
    [true, false].all (fun timed => decide ((s.admissibleUnits 0 (field bs 34 1) .vector timed false).length < 1) == (code == 8)) &&
    ((field bs 8 8 != s.tblver.toNat) == (code == 9)) && (code == 8 || code == 9 || headerValid bs == (code == 0))

theorem witness_SavesAndRestores_load :
    loads 0x0000111111111111 0x58434D4A true 0 = true ∧ loads 7 0x58434D4A true 9 = true ∧
      loads 0x0000111111111111 5 true 10 = true ∧ loads 0x0000111111111111 0x58434D4A false 8 = true := by decide +kernel

theorem witness_SavesAndRestores_dispatch :
    let s := gangIn .restored { dieUp (bench .vector []) with cells := [], parked := [(0, parkedOf (bench .vector []))] }
    let x := parkedOf (bench .vector [])
    s.restoreDue 0 = true ∧ s.contextsOf 0 = [(0, x)] ∧ x.cell.gone = false ∧ x.corrupt = false ∧ x.cell.trap = none ∧ s.gangCells 0 = [] ∧
      s.unitsForRestored 0 (gangOf s) = some [(0, 416)] := by decide +kernel

/-- Both sequencers have exited, holding the banks given. -/
def exited (banks : Nat) : State :=
  let s := changed (bench .matrix []) (fun c => { c with a := { c.a with pos := { c.a.pos with exited := true } }, banks := BitVec.ofNat 256 banks })
  changed s (fun c => { c with x := { c.x with pos := { c.x.pos with exited := true } } })

theorem witness_CellsAndGangsExit :
    (let s := bench .vector []; s.cellRuns 0 (cellOf s) = true ∧ (cellOf s).a.pos.exited = false) ∧
    (∀ b ∈ [0, 5], let s := exited b
     (s.cell? 0).isSome = true ∧ s.cellRuns 0 (cellOf s) = true ∧ (cellOf s).a.pos.exited = true ∧ (cellOf s).x.pos.exited = true ∧
       (cellOf s).a.out = [] ∧ (cellOf s).x.moves = [] ∧ (cellOf s).x.ops = [] ∧ (cellOf s).cmds = [] ∧
       ((cellOf s).lanes.toList.all (fun l => !l.opened)) = true ∧
       ((List.range 256).countP (fun k => (cellOf s).banks.getLsbD k) = 0 ↔ b = 0)) ∧
    (∀ gone ∈ [true, false],
     let c := { streamCmd .klaunch 0 none with gang := some 0 }
     let s := changed (changedGang (withLaunch [c] []) (fun g => { g with launch := some 0 })) (fun x => { x with gone := gone })
     s.launches.find? 0 = some (launchOf s) ∧ (launchOf s).cmds = [c] ∧ c.handle = (gangOf s).handle ∧ c.kind = .klaunch ∧ c.status = none ∧
       (gangOf s).launch = some 0 ∧ (gangOf s).wear = 0 ∧ (gangOf s).state = .resident ∧ (s.part (partOfGang 0)).live = true ∧
       (gangOf s).doomed = none ∧ (s.part (partOfGang 0)).quotaOn = false ∧ s.inExchange 0 = false ∧
       ((s.gangCells 0).all (fun q => q.2.gone) = gone)) := by decide +kernel

/-- A gang that a kill has stopped, with and without an xfer that is still to be performed. -/
theorem witness_CellsAndGangsExit_stopped :
    (∀ out ∈ [true, false],
     let c := { streamCmd .klaunch 0 none with gang := some 0 }
     let s := changedGang (withLaunch [c] []) (fun g => { g with launch := some 0, state := .stopped, doomed := some 5 })
     let s := if out then changed s (fun c => { c with a := { c.a with out := [accessOf (.xfer 3 7) (own 64) 8 none true], nextId := 1 } }) else s
     s.launches.find? 0 = some (launchOf s) ∧ (gangOf s).state = .stopped ∧ (gangOf s).doomed = some 5 ∧ s.inExchange 0 = false ∧
       s.unperformed 0 = out) := by decide +kernel

/-! ## Wear, errors, ports -/

/-- Core 1 is root's firmware. -/
def rooted (s : State) : State := s.setCore 1 { s.core 1 with priv := .root }

theorem witness_WearFormsReadAndSet :
    (∀ v ∈ [0x6801, 0x1F800, 13 * 2 ^ 11 + 15 * 2 ^ 5], let s := benchAt (.core 1) [(2, BitVec.ofNat 64 v)]
     supNow s 1 [1, 2] = true ∧ (s.core 1).priv = .supervisor ∧ supNow (rooted s) 1 [1, 2] = true ∧ (rooted s |>.core 1).priv = .root ∧
       (v < 2 ^ 16 ∧ v % 2 ^ 5 = 0 ∧ fittedCell (v / 2 ^ 11) (v / 2 ^ 5 % 2 ^ 6) = true ↔ v = 13 * 2 ^ 11 + 15 * 2 ^ 5) ∧
       (s.part 0).layout.share.toList.getD 13 0 &&& 1 <<< 15 = 0 ∧
       ((changedPart s (fun p => { p with layout := { p.layout with share := p.layout.share.set 13 0xFFFFFFFF } })).part 0).layout.share.toList.getD 13 0
         &&& 1 <<< 15 ≠ 0) ∧
    (∀ p ∈ [(0, 1), (4, 1), (1, 0), (3, 0)], let s := rooted (benchAt (.core 1) [(2, 13 * 2 ^ 11 + 15 * 2 ^ 5), (3, BitVec.ofNat 64 p.1)])
     supNow s 1 [1, 2, 3] = true ∧ (s.core 1).priv = .root ∧
       (3 < ((s.core 1).a.reg 3).toNat ∨ ((s.core 1).a.reg 3).toNat ≤ (s.unitLife 431).wstate.toNat ↔ p.2 = 1)) := by decide +kernel

/-- The last unit of an active die, one of several, and one of a die that has failed. -/
theorem witness_WearFormsReadAndSet_last :
    ∀ p ∈ [(1, 0x43), (3, 0x43), (0, 0x83)],
      let s := rooted (benchAt (.core 1) [(2, 13 * 2 ^ 11), (3, 3)])
      let s := { s with diemix := s.diemix.set 13 (BitVec.ofNat 32 p.2), diecell := s.diecell.set 13 (BitVec.ofNat 32 p.1) }
      supNow s 1 [1, 2, 3] = true ∧ (s.core 1).priv = .root ∧ (s.unitLife 416).wstate.toNat < 3 ∧
        ((s.mix 13).toNat / 2 ^ 6 % 4 = 1 ∧ (s.avail 13).getLsbD 0 = true ∧ s.avail 13 &&& ~~~1#32 = 0 ↔ p = (1, 0x43)) := by decide +kernel

theorem witness_WearAccrues :
    fittedCell (431 / 32) (431 % 32) = true ∧ State.reset.stays = [] ∧ State.reset.now.toNat % 2 ^ 32 = 0 ∧ (bench .vector []).stays = [] ∧
      (bench .vector []).now.toNat % 2 ^ 20 ≠ 0 ∧ State.reset.standing 416 = none ∧
      (match (bench .vector []).standing 416 with
       | some (key, c) => decide (key = 0 ∧ c = cellOf (bench .vector []))
       | none => false) = true := by decide +kernel

theorem witness_ErrorsAreCorrectedOrPoison :
    (∀ l ∈ [2 ^ 49, 2 ^ 49 + 27 * 2 ^ 35 - 8, 2 ^ 49 + 13 * 2 ^ 35], 2 ^ 49 ≤ l ∧ l < 2 ^ 49 + 27 * 2 ^ 35 ∧ l / 8 ∉ State.reset.upsets ∧
      l / 8 ∈ { State.reset with upsets := [l / 8] }.upsets) ∧
    fittedCell 13 0 = true ∧ (let s := bench .vector []; (s.cell? 0).isSome = true ∧ (cellOf s).gone = false ∧ (s.core 1).running = true) ∧
    (let s := State.reset
     s.cethr.getLsbD 31 = true ∧ fittedCell (431 / 32) (431 % 32) = true ∧ (s.array 431 9).locked = false ∧ (s.unitLife 431).wstate = 0 ∧
       { s with cethr := 0x40 }.cethr.getLsbD 31 = false) ∧
    (∀ p ∈ [(true, 65, 0), (true, 64, 0), (false, 65, 100), (false, 65, 99)],
      let x : ArrayState := { errors := BitVec.ofNat 32 p.2.1, below := p.1, locked := false, holds := p.2.2 }
      let s := { State.reset with arrays := [(431 * 64 + 9, x)] }
      s.arrays = [(431 * 64 + 9, x)] ∧ s.now.toNat % 2 ^ 28 = 0 ∧ s.cethr.toNat % 2 ^ 16 ≠ 0 ∧ (s.unitLife 431).wstate = 0 ∧
        (s.cethr.toNat % 2 ^ 16 < x.errors.toNat ↔ p.2.1 = 65)) := by decide +kernel

/-- A mirrored write on its way, of cell 0 for access 5, with a timeout of 1024 × 40 cycles. -/
def mirroring (st : Nat) (now : Nat) : State :=
  let w : MirrorWrite := { id := 0, loc := 0x100, ea := 0x5000000000000100, data := [1], since := 1000, owner := .access (.aseq 0) 5 }
  { changedPart (bench .vector []) (fun p => { p with mirrorOut := [w], mirst := BitVec.ofNat 64 st }) with now := BitVec.ofNat 64 now }

theorem witness_LossesAndMirrors :
    (∀ p, p < 8 → (State.reset.part p).formed = false) ∧ (∀ k ∈ [17, 24], (State.reset.mix k).toNat / 2 ^ 6 % 4 ≠ 1 ∧
      ({ State.reset with diemix := State.reset.diemix.set! k 0x44 }.mix k).toNat / 2 ^ 6 % 4 = 1) ∧
    2 ^ 40 - 4 + [1, 2, 3, (4 : Byte)].length ≤ 2 ^ 40 ∧ State.reset.partialPoison (2 ^ 40 - 4) 4 = false ∧
    { State.reset with poison := [((2 ^ 40 - 8) / 8, 1)] }.partialPoison (2 ^ 40 - 4) 4 = true ∧
    (∀ p ∈ [(0x2800, 50000, true), (0x2801, 50000, false), (0, 50000, false), (0x2800, 41960, false)], let s := mirroring p.1 p.2.1
     (s.part 0).mirrorOut.length = 1 ∧ s.packageUp = true ∧ { s with packageUp := false }.packageUp = false ∧ (s.aseq? (.aseq 0)).isSome = true ∧
       (s.part 0).formed = true ∧
       (let tmo := (s.part 0).mirst.toNat / 2 ^ 8 % 2 ^ 24
        (tmo ≠ 0 ∧ (s.part 0).mirst.getLsbD 0 = false ∧ 1024 * tmo < (s.now - 1000).toNat ↔ p.2.2 = true))) := by decide +kernel

/-- A port whose link is up, HBM ready, and a queue of partition 0 on it. -/
def ported (up : Bool) : State :=
  let s := changedPart (bench .vector []) (fun p => { p with layout := { p.layout with hbm := [(0, 2 ^ 20), (2 ^ 20, 64)], queueCount := 1, port := true } })
  { s with portUp := s.portUp.set 1 up, rdymap0 := 0x40, rdymap1 := 0xFFFFFFFF, wqcfg := [(0, 0x8100000000000200)] }

theorem witness_PortsAndSemaphore :
    -- The last case lies in two ranges, the second reaches a control line.
    (∀ pa ∈ [0, 0x180, 2 ^ 20 - 4], let s := ported true
     s.portUp[portIx true] = true ∧ s.rdymap1.getLsbD (hbmSlot pa) = true ∧ s.rdymap1.getLsbD (hbmSlot (pa + 8 - 1)) = true ∧
       s.partialPoison pa 8 = false ∧ s.poisoned pa 8 = false ∧ { s with poison := [(pa / 8, 1)] }.poisoned pa 8 = true ∧
       { s with poison := [(pa / 8, 1)] }.partialPoison pa 4 = true ∧ (s.part 0).formed = true ∧ (s.part 0).layout.queueCount ≠ 0 ∧
       (s.part 0).layout.port = true ∧ (∀ k ∈ List.range 8, ∃ r ∈ (s.part 0).layout.hbm, r.1 ≤ pa + k ∧ pa + k < r.1 + r.2) ∧
       ((∀ q ∈ s.wqcfg, ∀ x ∈ ((s.putBytes pa [1, 2, 3, 4, 5, 6, 7, 8]).queueSpan q.1 (-128) 64 .read).getD [],
         x.1.all (fun l => decide (l + x.2 ≤ pa ∨ pa + 8 ≤ l)) = true) ↔ pa ≠ 0x180)) ∧
    (ported false).portUp[portIx true] = false ∧ (∀ r ∈ ((ported true).part 0).layout.hbm, ¬(2 ^ 20 + 64 < r.1 + r.2)) ∧
    (let s := { State.reset with rdymap0 := 0x40 }
     s.rdymap0.getLsbD 6 = true ∧ s.hsem.held = false ∧ State.reset.rdymap0.getLsbD 6 = false ∧
       (let t := { s with hsem := { seq := 3, owner := true, held := true } }; t.hsem.held = true ∧ t.hsem.owner = true)) := by decide +kernel

/-- A host that holds HSEM on port 1, with a descriptor at host address 0x40: partition and fields as given, one scoreboard entry. -/
def layoutState (p : Nat) (fields : List (Nat × Nat)) : State :=
  let s := { State.reset with rdymap0 := 0x40, hsem := { seq := 1, owner := true, held := true }, portUp := State.reset.portUp.set 1 true }
  { s with mem := fields.foldl (fun m f => writeByte m (2 ^ 48 + 0x40 + f.1) (BitVec.ofNat 8 f.2)) (writeByte [] (2 ^ 48 + 0x40) (BitVec.ofNat 8 p)) }

def layoutAddr : Word := 0x4000000000000040

theorem witness_LayoutCommandsRun :
    (let s := layoutState 1 []
     s.rdymap0.getLsbD 6 = true ∧ s.lstatBusy = false ∧ s.pkgstat.getLsbD 0 = false ∧ s.hsem.held = true ∧ s.hsem.owner = true ∧
       layoutAddr.toNat / 2 ^ 48 = 4 * 2 ^ 12 ∧ layoutAddr.toNat % 2 ^ 48 + 284 ≤ 2 ^ 48 ∧ s.portUp[portIx true] = true ∧ s.poison = [] ∧
       s.lostDies = [] ∧ s.stays = [] ∧ s.wqcfg = [] ∧ State.reset.rdymap0.getLsbD 6 = false ∧ (0x3000000000000040 : Word).toNat / 2 ^ 60 ≠ 4 ∧ (6 : BitVec 4).toNat = 6) ∧
    (∀ p ∈ [(1, true), (8, false)], let s := layoutState p.1 [(276, 1), (132, 2), (133, 18), (134, 17), (278, 4), (282, 2)]
     let bs := readBytes s.mem (2 ^ 48 + layoutAddr.toNat % 2 ^ 48 / 64 * 64) 284
     field bs 0 1 = p.1 ∧ layoutValid bs = p.2 ∧ s.resourcesHeld 1 (descLayout bs) = false ∧ (s.part 1).formed = false ∧
       (descLayout bs).buffers = [17, 18] ∧ (descLayout bs).cores = 4 ∧ (descLayout bs).queueCount = 2 ∧ s.gangs = [] ∧ s.launches = [] ∧
       ((s.setPart 1 { s.part 1 with formed := true }).part 1).formed = true) ∧
    (let s := layoutState 1 [(276, 1), (278, 4)]
     let bs := readBytes s.mem (2 ^ 48 + layoutAddr.toNat % 2 ^ 48 / 64 * 64) 284
     layoutValid bs = true ∧ (s.setPart 2 { s.part 2 with formed := true, layout := descLayout bs }).resourcesHeld 1 (descLayout bs) = true) ∧
    (let s := layoutState 0 [(7, 0x40), (8, 16)]
     let bs := readBytes s.mem (2 ^ 48 + layoutAddr.toNat % 2 ^ 48 / 64 * 64) 284
     field bs 0 8 / 2 ^ 48 = 4 * 2 ^ 12 ∧ field bs 0 8 % 2 ^ 48 + field bs 8 8 ≤ 2 ^ 48) := by decide +kernel

theorem witness_ResponderAnswers :
    ({ State.reset with rdymap0 := 0x80 }.rdymap0.getLsbD 7 = true) ∧ State.reset.rdymap0.getLsbD 7 = false ∧
      State.reset.session[portIx true] = false ∧ ({ State.reset with session := State.reset.session.set 1 true }.session[portIx true] = true) := by
  decide +kernel

/-- All dies pass self-test but that of slot 5; slot 13 has a failed unit. -/
theorem witness_PackageResetBringsUp :
    let test : SelfTest := { dies := 0x1FFFFFDF, fuses := 0xFFFFFFFF, failedUnits := List.replicate 13 0 ++ [8], images := [] }
    State.reset.committed = [] ∧ State.reset.staged = [] ∧ test.images = [] ∧ test.dies.getLsbD 5 = false ∧ test.dies.getLsbD 13 = true := by
  decide +kernel

/-! ## Results of engine commands -/

/-- The value of a part of a command's work. -/
def okIs {α : Type} [DecidableEq α] (u : Eng α) (a : α) : Bool :=
  match u with
  | .ok b => decide (b = a)
  | _ => false

def okE {α : Type} (u : Eng α) : Bool :=
  match u with
  | .ok _ => true
  | _ => false

theorem okE_of {α : Type} {u : Eng α} (h : okE u = true) : ∃ a, u = .ok a := by
  cases u <;> simp_all [okE]

/-- A cell with one active command that has a unit to make. -/
def works (t : CellType) (i : Instr) (queue : Nat) (vals : List Word) (f : Cmd → Cmd := id) : State := withCmds t [f (cmdOf i queue .active vals)] []

def worksNow (s : State) : Bool :=
  match (cellOf s).cmds with
  | [x] => runningNow s x && (running s x).due .commit && (cellOf s).poisonElems == []
  | _ => false

/-- Shape: tile 0, source tile 1, M = 2, N = 3, K = 33, and strides of 64 and 80. -/
def shape233 : Word := BitVec.ofNat 64 (33 * 2 ^ 32 + 2 * 2 ^ 24 + 2 ^ 16 + 2 ^ 8)
def strides : Word := BitVec.ofNat 64 (80 * 2 ^ 32 + 64)

/-- A shape slot: INT8 elements of a 5 × 7 image of 3 channels, one row and column of padding. -/
def imageSlot : BitVec 512 := BitVec.ofNat 512 (5 + 2 * 2 ^ 8 + 2 ^ 12 + 2 ^ 32 + 2 ^ 36 + 9 * 2 ^ 48 + 3 * 2 ^ 64 + 7 * 2 ^ 80 + 5 * 2 ^ 96 + 4 * 2 ^ 112 +
  3 * 2 ^ 128 + 16 * 2 ^ 160)

/-- mxmm of both kinds of check in its second granule, mxmma, and an implicit convolution. -/
theorem witness_MatrixResults :
    (∀ p ∈ [(0, false), (1, true), (4, true), (5, false), (6, true)],
      let s := works .matrix (.mxmm (flagsOf none) (BitVec.ofNat 3 p.1) p.2 true false 0 1 2 3 4 0 5 6) 0
        [own 0, own 0x1000, strides, shape233, 0, own 0x2000, own 0x3000] (fun x => { x with prog := 1 })
      worksNow s = true ∧ okE (s.readOperand 0 1 p.1 33 1 2 64 (own 0) (own 0x2000) false) = true ∧
        okE (s.readOperand 0 2 p.1 33 1 3 80 (own 0x1000) (own 0x3000) true) = true) ∧
    (let s := works .matrix (.mxmma (flagsOf none) true false 0 1 2 3 0) 0 [own 0x1000, BitVec.ofNat 64 (80 * 2 ^ 32), shape233, 0]
     worksNow s = true ∧ okE (s.readOperand 0 2 0 33 0 3 80 (own 0x1000) 0 true) = true) ∧
    (let s := works .matrix (.mxcv (flagsOf none) 1 true true false 0 1 2 3 4 0) 0 [own 0, own 0x1000, strides, shape233, 0]
       (fun x => { x with aux := slotWords imageSlot })
     worksNow s = true ∧ wordsSlot (slotWords imageSlot) = imageSlot ∧
       (∀ i ∈ [0, 1], okE (s.convRow 0 imageSlot (cvVals [own 0, own 0x1000, strides, shape233, 0]) i 0 32) = true) ∧
       okE (s.readOperand 0 2 5 33 0 3 80 (own 0x1000) 0 true) = true) ∧
    (∀ accum ∈ [false, true],
      let s := works .matrix (.mxld (flagsOf none) accum true 0 1 2 3 0) 0 [own 0, 64, BitVec.ofNat 64 (2 * 2 ^ 24 + 2 ^ 16), 0] (fun x => { x with prog := 1 })
      worksNow s = true ∧ okE (s.engRead 0 1 ((own 0).toNat + 64) 12) = true) ∧
    (∀ n ∈ [0, 1],
      let d : BitVec 512 := BitVec.ofNat 512 (3 + n * (2 ^ 9 + 2 ^ 11 + 2 ^ 13) + (own 0x4000).toNat * 2 ^ 64)
      let s := works .matrix (.mxdrn (flagsOf none) 0 true 0 1 2 3 4 0) 0 [own 0, own 0x2000, strides, BitVec.ofNat 64 (2 * 2 ^ 24 + 2 ^ 16), 0]
        (fun x => { x with aux := 0 :: slotWords d, prog := 1 })
      worksNow s = true ∧ okE (s.engDest 0 5 ((own 0).toNat + 64) 3) = true ∧ okE (s.engDest 0 6 ((own 0x2000).toNat + 8) 8) = true ∧
        okE (s.engRead 0 7 (descParam d).toNat 512) = true) ∧
    (let s := works .matrix (.mxdrs (flagsOf none) 0 false 0 1 2 0) 0 [own 0x2000, BitVec.ofNat 64 (2 * 2 ^ 24 + 2 ^ 16), 0]
       (fun x => { x with aux := 0 :: slotWords (BitVec.ofNat 512 (2 * 2 ^ 13)) })
     worksNow s = true ∧ okE (s.engDest 0 6 (own 0x2000).toNat 8) = true) := by decide +kernel

/-- Rows of bytes of an operand in each format, with and without scales; an address inside the image and one in its padding. -/
theorem witness_GranuleOperandsAreRead :
    (∀ fmt ∈ [0, 1, 2, 3, 4, 5, 6],
      let s := bench .matrix []
      let size (n : Nat) : Nat := if fmt ≤ 1 then 2 * n else if fmt = 6 then (n + 1) / 2 else n
      ∀ i : Nat, i ∈ [0, 1] → okE (s.engRead 0 1 ((own 64).toNat + i * 64 + size 32) (size 1)) = true ∧ okE (s.engRead 0 3 ((own 0x2000).toNat + i * 2 + 1) 1) = true) ∧
    (let v := cvVals [own 0, own 0x1000, 5, shape233, 0]
     (convAddress imageSlot v 0 0).isSome = true ∧ convAddress imageSlot (cvVals [own 0, 0, 0]) 0 0 = none ∧ 0 < shpC imageSlot ∧ 1 < shpS imageSlot) := by
  decide +kernel

/-- Terms of both signs, zeros of both, and a NaN. -/
theorem witness_GranuleSumsAreExact :
    (∀ v ∈ [FV.fin true 3 (-2), .fin false 1 1, .fin true 0 0], (match v with
      | .fin _ _ e => decide (-2 ≤ e)
      | _ => false) = true) ∧ FV.nan ∈ [FV.fin true 3 (-2), .nan] := by decide

/-- A region of 40 elements of 4 bytes, and values for each kind of vector command. -/
def region40 (o stride : Nat) : Word := BitVec.ofNat 64 (40 * 2 ^ 40 + stride * 2 ^ 24 + o)

theorem witness_VectorResults :
    (∀ level ∈ [0, 1],
      let i := Instr.viadd (flagsOf none) 2 0 false 1 2 3
      let s := works .vector i 1 [region40 0x400 1, region40 0 3, BitVec.ofNat 64 (2 ^ 40 + 0x200)] (fun x => { x with maskLevel := level })
      let g := vregs i [region40 0x400 1, region40 0 3, BitVec.ofNat 64 (2 ^ 40 + 0x200)]
      worksNow s = true ∧ engineUnit i = some .vector ∧ isRowForm i = false ∧ okE (readElems s 0 (VRegs.reg g.a) (groupOf 40 0)) = true ∧
        okE (readOpt s 0 (g.b.map VRegs.reg) (groupOf 40 0)) = true ∧
        okE (writeGroup s 0 0 0 ((List.range 40).map (fun e => ((VRegs.reg g.d).addr e, leBytes 4 0)))) = true) ∧
    (∀ l ∈ [0, 8],
      let i := Instr.vrsc (flagsOf none) 0 0 true 1 2 3 4 5
      let vs := [region40 0x400 1, region40 0 1, BitVec.ofNat 64 (2 ^ 40 + 0x200), 0, BitVec.ofNat 64 (l * 2 ^ 48)]
      let s := works .vector i 1 vs
      worksNow s = true ∧ (vaux i vs).toNat / 2 ^ 48 = l ∧ (40 % (if l = 0 then 40 else l) = 0) ∧ okE (readElems s 0 (VRegs.reg (vregs i vs).a) (groupOf 40 0)) = true ∧
        okE (writeGroup s 0 0 0 ((List.range 40).map (fun e => ((VRegs.reg (vregs i vs).d).addr e, leBytes 4 0)))) = true) ∧
    (∀ p ∈ [(9, 0), (0, 9)],
      let i := Instr.vcvt (flagsOf none) 0 (BitVec.ofNat 4 p.1) true false 1 2 (BitVec.ofNat 5 p.2) 3 0
      let vs := [region40 0x400 1, region40 0 1, BitVec.ofNat 64 (2 * 2 ^ 40 + 2 ^ 24 + 0x200), 0]
      let s := works .vector i 1 vs
      worksNow s = true ∧ (vregs i vs).c = some (val vs 2, 2) ∧ okE (readElems s 0 (VRegs.reg (vregs i vs).a) (groupOf 40 0)) = true ∧
        okE ((running s (cmdOf i 1 .active vs)).f.unit 0) = true) := by decide +kernel

theorem witness_RowsReduce :
    (∀ i ∈ [Instr.vred (flagsOf none) 0 0 true 1 2 3, .vdot (flagsOf none) 1 true 1 2 3 4, .vrst (flagsOf none) 0 1 true 1 2 3, .vscan (flagsOf none) 0 2 true 1 2 3],
      let vs := [region40 0x400 1, region40 0 1, if i = .vdot (flagsOf none) 1 true 1 2 3 4 then region40 0x200 1 else BitVec.ofNat 64 (20 * 2 ^ 48),
        BitVec.ofNat 64 (20 * 2 ^ 48)]
      let s := works .vector i 1 vs
      worksNow s = true ∧ (rowFmt i).isSome = true ∧ (vaux i vs).toNat / 2 ^ 48 = 20 ∧ s.mirrorsOf 0 0 = false ∧
        okE ((running s (cmdOf i 1 .active vs)).f.unit 0) = true) ∧
    (let r : RowState := { p := { bits := 2 ^ 64 - 1, ovf := true, unf := false }, q := { bits := 1, ovf := false, unf := true }, terms := [(1, 2 ^ 64 - 1)] }
     r.p.bits < 2 ^ 64 ∧ r.q.bits < 2 ^ 64 ∧ ∀ t ∈ r.terms, t.1 < 2 ^ 64 ∧ t.2 < 2 ^ 64) := by decide +kernel

theorem witness_MaskContents :
    (∀ level ∈ [0, 7],
      let s := works .vector (.mpush (flagsOf none) 1) 1 [region40 0 1] (fun x => { x with maskLevel := level })
      worksNow s = true ∧ okE (readElems s 0 (regionOf (region40 0 1) 2) (List.range 40)) = true) ∧
    (∀ level ∈ [1, 8], ∀ i ∈ [Instr.minv (flagsOf none), .minvShort, .mpop (flagsOf none), .mpopShort],
      worksNow (works .vector i 1 [] (fun x => { x with maskLevel := level })) = true) := by decide +kernel

/-- tfn, tfnx and tver, and tvchk of a version that is there and of one that is not. -/
theorem witness_TablesEvaluate :
    (∀ i ∈ [Instr.tfn (flagsOf none) 2 0 true 1 2 3, .tfnx (flagsOf none) 4 0 false 1 2 3 4 5],
      let vs := [region40 0x400 1, region40 0 1, region40 0x200 1, region40 0x300 1, 0]
      let s := works .vector i 2 vs
      worksNow s = true ∧ okE ((running s (cmdOf i 2 .active vs)).f.unit 0) = true) ∧
    (let s := works .vector (.tver (flagsOf none) 1) 2 [BitVec.ofNat 64 (2 ^ 40)]
     worksNow s = true ∧ okE (writeGroup s 0 0 0 [((regionOf (BitVec.ofNat 64 (2 ^ 40)) 16).addr 0, leBytes 8 s.tblver.toNat)]) = true) ∧
    (∀ n ∈ [0, 1, 2],
      let s := { works .vector (.tvchk (flagsOf none) 1) 2 [BitVec.ofNat 64 (2 ^ 40)] with mem := writeBytes [] (home 0) [BitVec.ofNat 8 n] }
      worksNow s = true ∧ okIs (readElem s 0 (regionOf (BitVec.ofNat 64 (2 ^ 40)) 16) 0) n = true ∧ (n ≠ 0 ∧ n ≠ s.tblver.toNat % 16 ↔ n = 2)) ∧
    (∀ k, k < 12 → (0x0000111111111111#64).toNat / 2 ^ (4 * k) % 16 = 1) := by decide +kernel

/-- A copy of two granules with a record, a fill, a multicast, the record's unit, and a copy from poison. -/
theorem witness_CopyResults :
    (∀ i ∈ [Instr.cpy (flagsOf none) true 0 1 2 3 0 5, .cfill (flagsOf none) true 0 1 2 3 0 5],
      let vs := (if i = .cpy (flagsOf none) true 0 1 2 3 0 5 then [own 0x4000, own 0, 300, 0, own 0x8000] else [own 0x4000, 300, 0x0123456789ABCDEF, 0, own 0x8000])
      let s := works .vector i 4 vs (fun x => { x with prog := 1 })
      let j := copyJob i vs
      worksNow s = true ∧ engineUnit i = some .copy ∧ j.nb = 300 ∧ 1 < (j.nb + 255) / 256 ∧
        okE ((running s { cmdOf i 4 .active vs with prog := 1 }).f.unit 1) = true ∧ s.mirrorsOf 0 0 = false) ∧
    (let i := Instr.cpym (flagsOf none) false 0 1 2 3 4 5 0
     let vs := [own 0x4000, own 0, 300, 0, BitVec.ofNat 64 (2 ^ 32 + 2 ^ 16), 0]
     let s := works .vector i 4 vs
     worksNow s = true ∧ (copyJob i vs).dests.length = 1 ∧ okE ((running s (cmdOf i 4 .active vs)).f.unit 0) = true) ∧
    (let i := Instr.cpy (flagsOf none) true 0 1 2 3 0 5
     let vs := [own 0x4000, own 0, 300, 0, own 0x8000]
     let s := works .vector i 4 vs (fun x => { x with prog := 2 })
     worksNow s = true ∧ (copyJob i vs).rec_ = some (own 0x8000) ∧ okE (s.engDest 0 3 (own 0x8000).toNat 16) = true) ∧
    (let i := Instr.cpy (flagsOf none) true 0 1 2 3 0 5
     let vs := [own 0x4000, own 0, 300, 0, own 0x8000]
     let s := { works .vector i 4 vs with poison := [(home 0 / 8, 1)] }
     worksNow s = true ∧ failsWith ((running s (cmdOf i 4 .active vs)).f.unit 0) = some 1 ∧ okE (s.engDest 0 3 (own 0x8000).toNat 16) = true) ∧
    (let s := bench .vector []
     okIs (s.engSpan 0 0 (own 0).toNat 8 .read) [(some (home 0), 8)] = true ∧ s.placesPoisoned [(some (home 0), 8)] = false ∧
       placeAt [(some (home 0), 8)] 7 = some (home 7) ∧ { s with poison := [(home 0 / 8, 1)] }.placesPoisoned [(some (home 0), 8)] = true) := by decide +kernel

/-- Byte o of the slice of the gather cell. -/
def gatherHome (o : Nat) : Nat := home (384 * 2 ^ 30 + o)

/-- gth and sct of a negative index and of row 1, tagged and not; a bag of two rows. -/
theorem witness_GatherResults :
    (∀ p ∈ [(true, 0xFF, false), (true, 1, false), (false, 0xFF, true), (false, 1, true)],
      let e := { flagsOf none with tag := p.2.2 }
      let i := if p.1 then Instr.gth e 1 2 3 4 5 else .sct e 1 7 1 2 3 4 5
      let vs := [0x400, region 0, own 0x2000, 8, BitVec.ofNat 64 (16 * 2 ^ 32 + 4), 0]
      let x := { cmdOf i 3 .active vs with prog := if p.2.2 then 1 else 0, claims := [3072 * 64 + 0, 0] }
      let s := { withCmds .gather [x] [] with mem := writeBytes [] (gatherHome 0) (if p.2.1 = 1 then [1] else [0xFF, 0xFF, 0xFF, 0xFF]) }
      runningNow s x = true ∧ (running s x).unmade = true ∧ unitBy x (running s x).f = .commit ∧
        okIs (readInts s 0 (regionOf (region 0) 8) [0]) [if p.2.1 = 1 then 1 else -1] = true ∧
        okE (s.engRead 0 1 ((own 0x2000).toNat + 16) 8) = true ∧ okE (s.engRead 0 0 (0x3000000000000000 + 0x400) 8) = true ∧
        okIs (s.engSpan 0 1 ((own 0x2000).toNat + 16) 8 .atomic) [(some (gatherHome 0x2010), 8)] = true ∧ s.hitsObject (gatherHome 0x2010) 8 = false ∧
        s.placesPoisoned [(some (gatherHome 0x2010), 8)] = false ∧ okE (writeGroup s 0 0 0 [(0x3000000000000000 + 0x400, List.replicate 8 0)]) = true) ∧
    (let i := Instr.gred (flagsOf none) 1 7 1 2 3 4 5 6
     let vs := [0x400, region 0, own 0x2000, 8, BitVec.ofNat 64 (16 * 2 ^ 32 + 4), BitVec.ofNat 64 (2 * 2 ^ 40 + 2 ^ 24 + 0x100)]
     let s := { works .gather i 3 vs with mem := writeBytes [] (gatherHome 0x104) [2] }
     worksNow s = true ∧ okIs (readInts s 0 (regionOf (val vs 5) 8) [0, 1]) [0, 2] = true ∧
       okIs (readInts s 0 (regionOf (region 0) 8) [0, 1]) [0, 0] = true ∧
       okE (s.engRead 0 1 (own 0x2000).toNat 8) = true ∧ okE (writeGroup s 0 0 0 [(0x3000000000000000 + 0x400, List.replicate 8 0)]) = true) := by decide +kernel

/-- The forms of the sort unit, each with its next unit ready, and lred of an element, of an object and of poison. -/
theorem witness_SortAndLinkResults :
    (∀ i ∈ [Instr.topk (flagsOf none) true 7 1 2 3 4 5, .psort (flagsOf none) false 0 1 2 0 0 5, .gscan (flagsOf none) true 7 1 2 3 4 5,
        .gscan (flagsOf none) false 0 0 2 3 0 5, .ghist (flagsOf none) true false 7 1 2, .rndh (flagsOf none) true 0 1 2 3],
      let vs := [region 0x400, region 0, region 0x500, region 0x600, BitVec.ofNat 64 (8 * 2 ^ 48 + 4 * 2 ^ 32)]
      let s := works .gather i 3 vs
      worksNow s = true ∧ okE ((running s (cmdOf i 3 .active vs)).f.unit 0) = true) ∧
    (∀ n ∈ [0, 1, 2],
      let i := Instr.lred (flagsOf none) 4 2 1 2
      let vs := [own 0x40, region 0]
      let s := (works .vector i 5 vs).setMark (home 0x40) (n == 1)
      let s := { s with poison := if n = 2 then [(home 0x40 / 8, 1)] else [] }
      worksNow s = true ∧ okIs (readElem s 0 (regionOf (region 0) 8) 0) 0 = true ∧
        okIs (s.engSpan 0 0 (own 0x40).toNat 4 .atomic) [(some (home 0x40), 4)] = true ∧ (s.hitsObject (home 0x40) 4 = true ↔ n = 1) ∧
        (s.placesPoisoned [(some (home 0x40), 4)] = true ↔ n = 2)) := by decide +kernel

/-! ## Further clauses -/

/-- Headers, and branches on queues with and without an entry, on the X-seq. -/
theorem witness_XseqControl :
    (∀ n ∈ [0, 5, 6], let s := { looped 0 with focus := .xseq 0 }
      let s := changed s (fun c => { c with x := { c.x with pos := { c.x.pos with levels := List.replicate n { start := 0, stop := 8, ln := 2, lx := 0 } } } })
      xNow s [] [] = true ∧ (cellOf s).x.pos.levels.length = n ∧ (cellOf s).a.reg 1 = 3 ∧ (cellOf s).a.reg 2 = 0) ∧
    (let s := { queued 1 true with focus := .xseq 0 }; xNow s [] [(8, 1)] = true ∧ (cellOf s).bqax ≠ []) ∧
    (let s := { queued 0 true with focus := .xseq 0 }
     s.issuing (.xseq 0) = true ∧ (s.cell? 0).isSome = true ∧ (cellOf s).bqax = []) ∧
    (let l : Level := { start := 0, stop := 16, ln := 1, lx := 1 }
     let p : Pos := { pc := 4, levels := [l], exited := false, boundary := false, emu := none, buf := [(4, .blkImmediate 1 2)], bufDepth := 1,
                      bufEnds := [(4, 8, 12)] }
     p.buffered.isSome = true ∧ p.bufEnds.find? (fun w => w.1 = p.pc) = some (p.pc, (8, 12)) ∧ { p with levels := [] }.buffered = none) := by decide +kernel

/-- Two cells of one gang that have arrived at a realign with other targets, and with other modes. -/
theorem witness_RealignsResume_mismatch :
    ∀ p ∈ [(1100, true), (900, false)],
      let at_ (t : Nat) (m : Bool) : Option GangWait := some (.realign (BitVec.ofNat 64 t) m 900)
      let s := changed (bench .vector []) (fun c => { c with waiting := at_ 900 true })
      let c := { cellOf s with waiting := at_ p.1 p.2, unit := 1, r := 1 }
      let s := { s with cells := [(0, cellOf s), (1, c)] }
      s.gang? 0 = some (gangOf s) ∧ (gangOf s).state = .resident ∧ s.gangCells 0 = [(0, cellOf s), (1, c)] ∧ s.cell? 1 = some c ∧
        (cellOf s).gone = false ∧ c.gone = false ∧ s.cellRuns 0 (cellOf s) = true ∧ s.cellRuns 1 c = true ∧ (p.1 ≠ 900 ∨ p.2 ≠ true) := by
  decide +kernel

/-- An elastic command on its stamp, ready, whose operands are there or not. -/
theorem witness_StampedCommandsStart_elastic :
    ∀ p ∈ [(true, 3 * 2 ^ 60), (false, 0x5000)],
      let x := { copyCmd (BitVec.ofNat 64 p.2) .queued with startAt := some 1000 }
      let s := withCmds .vector [x] []
      s.cell? 0 = some (cellOf s) ∧ (cellOf s).cmd? 0 = some x ∧ x.state = .queued ∧ s.startsRun 0 (cellOf s) = true ∧ x.queue ≠ 2 ∧
        x.elastic = true ∧ (s.now - 1000).toNat = 0 ∧ (cellOf s).ready (s.rangesOf 0 (cellOf s)) x = true ∧
        s.operandsArrived 0 (cellOf s) x = p.1 ∧ s.tilesArrived 0 (cellOf s) x = true := by decide +kernel

/-- A list of two entries: the second overlaps the first, is malformed, or stands elsewhere. -/
theorem witness_TableUpdatesAreApplied_two :
    ∀ p ∈ [(0x1000, goodLeaf, 0), (0x1001, goodLeaf, 1), (0x3000, goodLeaf, 0), (0x1000, 0, 0)],
      let s := { benchAt (.core 1) [(2, 64), (3, 2)] with
        mem := writeBytes [] 64 (leBytes 8 0x1000 ++ leBytes 8 goodLeaf ++ List.replicate 16 0 ++ leBytes 8 p.1 ++ leBytes 8 p.2.1), rdymap0 := 8 }
      let s := changedPart s (fun q => { q with layout := { q.layout with hbm := [(0, 2 ^ 32)] } })
      let leaf := BitVec.ofNat 64 p.2.1
      supNow s 1 [1, 2, 3] = true ∧ ((s.core 1).a.reg 3).toNat = 2 ∧ (s.core 1).a.out = [] ∧
      (match s.span (.core 1) false 64 64 .read, s.span (.core 1) false 64 64 .write with
       | .ok l, .ok m => decide (l = [(some 64, 64)] ∧ m = l)
       | _, _ => false) = true ∧ s.poisoned 64 64 = false ∧ readLE s.mem 96 8 = p.1 ∧ readLE s.mem 104 8 = p.2.1 ∧ readLE s.mem 120 8 = 0 ∧
        (p.2.2 = 1 ↔ p.1 % 0x1000 ≠ 0) ∧ leafMalformed leaf = false ∧ (leaf.getLsbD 63 = true → (s.part 0).frameOk leaf = true) ∧
        (s.part 0).entries.length + 2 ≤ (s.part 0).layout.cap := by decide +kernel

/-- Scans of a page with poison: one installed with a result word, one without. -/
theorem witness_ScansDecideExecution_poison :
    ∀ e ∈ [none, some (64, 0)],
      let c := { scanOf none with eres := e }
      let s := { changedPart (bench .vector []) (fun p => { p with scans := [c] }) with rdymap0 := 0x10, poison := [(8, 1)] }
      (s.part 0).scans = c :: [] ∧ s.rdymap0.getLsbD 4 = true ∧ s.scanPoisoned c = true ∧ s.onLostDie 64 = false := by decide +kernel

/-- Gang 0 stands halted; gang 1 is parked, and comes to the same unit or to one that is gone. -/
def exchangeBoth (halted up : Bool) : State :=
  let s := exchanging (some 0) (some 1) (gangIn (if halted then .halting else .resident) (bench .vector []))
  let s := changed (if up then dieUp s else s) (fun c => { c with halted })
  { s with gangs := s.gangs ++ [(1, { placedGang with state := .parked, haltedAt := 300 })], parked := [(512, parkedOf s)] }

theorem witness_ExchangesParkAndResume_both :
    ∀ up ∈ [true, false],
      let s := exchangeBoth true up
      let x := parkedOf s
      (s.part 0).live = true ∧ (s.part 0).swaps = [{ core := 1, outGid := some 0, inGid := some 1 }] ∧ (gangOf s).doomed = none ∧ (gangOf s).wear = 0 ∧
        (s.part 0).quotaOn = false ∧ (s.core 1).wait = some (.pswap 1) ∧ s.gangHalted 0 = true ∧ s.gangCells 0 = [(0, cellOf s)] ∧
        (cellOf s).gone = false ∧ (cellOf s).trap = none ∧ (gangOf s).state = .halting ∧
        s.gang? 1 = some { placedGang with state := .parked, haltedAt := 300 } ∧ s.gangCells 1 = [] ∧ s.contextsOf 0 = [] ∧
        (match s.contextsOf 1 with
         | [(512, y)] => decide (y.cell.slot = x.cell.slot ∧ y.cell.unit = x.cell.unit) && !y.corrupt && y.cell.trap.isNone && !y.cell.gone && y.live.rising &&
             y.live.all (fun b => decide (b.1 < y.cell.ctype.sliceSize)) &&
             ((changedPart s (fun p => { p with swaps := [] })).takesBack (some 0) y.cell == up)
         | _ => false) = true := by decide +kernel

/-- A request for both: the gang that goes stands or halts; the one that comes is parked, or is not. -/
theorem witness_PreemptionIsRequested_both :
    ∀ up ∈ [true, false],
      let s := { exchangeBoth false up with focus := .core 1 }
      let s := (changedPart s (fun p => { p with swaps := [] })).setCore 1 { placeCore .supervisor none with a := holding (placeCore .user none).a [(2, 0), (3, 1)] }
      supNow s 1 [1, 2, 3] = true ∧ ((s.core 1).a.reg 2).toNat = 0 ∧ ((s.core 1).a.reg 3).toNat = 1 ∧ (gangOf s).state = .resident ∧
        (s.gang? 1).map (·.state) = some .parked ∧
        (s.gangCells 0).any (fun q => !q.2.gone && decide (2 ≤ s.buffersUsed q.2.slot q.2.unit (some 1))) = false ∧
        (s.contextsOf 1).all (fun q => s.takesBack (some 0) q.2.cell) = up ∧ s.inExchange 0 = false ∧ s.inExchange 1 = false := by decide +kernel

/-- A resident gang that has halted for a save, with an area and without one. -/
theorem witness_SavesAndRestores_resident :
    ∀ big ∈ [true, false],
      let s := mapped big (changed (gangIn .halting (bench .vector [])) (fun c => { c with halted := true }))
      let s := (changedPart s (fun p => { p with saves := [{ core := 1, gid := 0, area := 0, wasParked := false }] })).setCore 1
        { placeCore .supervisor none with wait := some (.ctxsv 1) }
      (s.part 0).live = true ∧ (gangOf s).state = .halting ∧ s.gangHalted 0 = true ∧ (gangOf s).doomed = none ∧ (gangOf s).wear = 0 ∧
        (s.part 0).quotaOn = false ∧ (s.core 1).wait = some (.ctxsv 1) ∧ s.gangFatal 0 = false ∧ s.gangCells 0 = [(0, cellOf s)] ∧
        (gangOf s).ncells = 1 ∧ (cellOf s).a.pos.levels.length ≤ 6 ∧ s.parked.find? (cellKey 0 0) = none ∧
        (match s.areaSpan 1 0 0 (areaLen (gangOf s).ncells) .write with
         | some ls => big && !s.placesLost ls
         | none => !big) = true := by decide +kernel

/-- A stream descriptor with poison. -/
theorem witness_StreamTransfersCopy_poison :
    let c := streamCmd .sxin 1 none
    let s := withLaunch [c] []
    (match s.streamSpan (launchOf s) c.desc 64 .read with
     | .places [(some l, 64)] => { s with poison := [(l / 8, 1)] }.placesPoisoned [(some l, 64)]
     | _ => false) = true := by decide +kernel

/-- Root's values for a queue, as the layout in force has it and not. -/
theorem witness_SystemRegistersAreWritten_laid :
    ∀ p ∈ [(true, 4), (false, 3)],
      let s := changedPart (bench .vector []) (fun q => { q with layout := { q.layout with firstQueue := 4, queueCount := 2, port := false } })
      ((s.part 0).formed && decide ((s.part 0).layout.firstQueue ≤ p.2) && decide (p.2 < (s.part 0).layout.firstQueue + (s.part 0).layout.queueCount) &&
        (s.part 0).layout.port == (5 : Word).getLsbD 56) = p.1 := by decide +kernel

/-- The lifetime record before and after it is ready. -/
theorem witness_LifetimeReady :
    ∀ r ∈ [0, 2], ∃ s : State, s = { benchAt (.core 1) [(2, 32)] with rdymap0 := BitVec.ofNat 64 r } ∧ supNow s 1 [1, 2] = true ∧
      (s.rdymap0.getLsbD 1 = true ↔ r = 2) := fun r h => ⟨_, rfl, by revert r; decide +kernel⟩

end Sys2Proof.Tests
end

section
/-! PROOFS. Every step keeps memory in its canonical form: the frames of meanings, the units of work of engine commands, and each
instruction and event change memory by operations that keep it. -/

namespace Sys2Proof.Machine

/-! ## Outcomes -/

/-- An outcome that goes on to a next state leaves memory in its canonical form. -/
def EndsCanonical (o : Host.Outcome State Fault Refusal) : Prop := ∀ t, o = .next t → memoryWf t.mem = true

@[simp] theorem endsCanonical_next (t : State) : EndsCanonical (.next t) ↔ memoryWf t.mem = true :=
  ⟨fun h => h t rfl, fun h u e => by cases e; exact h⟩

@[simp] theorem endsCanonical_fault (f : Fault) : EndsCanonical (.fault f) := fun _ e => by cases e

theorem onA_endsCanonical {s : State} {use : List (BitVec 5)} {k : Agent → ASeq → State} (h : memoryWf s.mem = true)
    (hk : ∀ ag q, memoryWf (k ag q).mem = true) : EndsCanonical (onA s use k) := by
  obtain ⟨f, e⟩ | e | ⟨q, -, -, -, e⟩ := onA_cases s use k <;> rw [e]
  · simp
  · simpa using h
  · simpa using hk _ q

theorem event_endsCanonical {g : Bool} {s t : State} (h : memoryWf s.mem = true) (ht : memoryWf t.mem = true) :
    EndsCanonical (event g s t) := by
  obtain ⟨-, e⟩ | ⟨-, e⟩ := event_cases g s t <;> rw [e] <;> simpa

theorem onCell_endsCanonical {s : State} {use : List (BitVec 5)} {major minor : Nat} {short : Bool} {k : Nat → Cell → State}
    (h : memoryWf s.mem = true) (hk : ∀ key c, memoryWf (k key c).mem = true) : EndsCanonical (onCell s use major minor short k) :=
  onA_endsCanonical h (fun ag q => by (repeat' split) <;> simp [h, hk])

theorem onCellTime_endsCanonical {s : State} {use : List (BitVec 5)} {k : Nat → Cell → State} {regs : ASeq → Word}
    (h : memoryWf s.mem = true) (hk : ∀ key c, memoryWf (k key c).mem = true) : EndsCanonical (onCellTime s use k regs) :=
  onA_endsCanonical h (fun ag q => by (repeat' split) <;> simp [h, hk])

theorem onCore_endsCanonical {s : State} {use : List (BitVec 5)} {major minor : Nat} {k : Nat → Core → State}
    (h : memoryWf s.mem = true) (hk : ∀ n c, memoryWf (k n c).mem = true) : EndsCanonical (onCore s use major minor k) :=
  onA_endsCanonical h (fun ag q => by split <;> simp [h, hk])

theorem onSupervisor_endsCanonical {s : State} {use : List (BitVec 5)} {major minor : Nat} {k : Nat → Core → State}
    (h : memoryWf s.mem = true) (hk : ∀ n c, memoryWf (k n c).mem = true) : EndsCanonical (onSupervisor s use major minor k) :=
  onA_endsCanonical h (fun ag q => by (repeat' split) <;> simp [h, hk])

theorem onEngine_endsCanonical {s : State} {i : Instr} {types : List CellType} {k : Nat → Cell → List Word → State}
    (h : memoryWf s.mem = true) (hk : ∀ key c vs, memoryWf (k key c vs).mem = true) : EndsCanonical (onEngine i types s k) :=
  onA_endsCanonical h (fun ag q => by (repeat' split) <;> simp [h, hk])

theorem onMatrix_endsCanonical {s : State} {use : List (BitVec 5)} {major minor : Nat} {k : Nat → Cell → State}
    (h : memoryWf s.mem = true) (hk : ∀ key c, memoryWf (k key c).mem = true) : EndsCanonical (onMatrix s use major minor k) :=
  onCell_endsCanonical h (fun key c => by split <;> simp [h, hk])

theorem onX_endsCanonical {s : State} {adds : List Move} {needs : List (Nat × Nat)} {cost : Nat} {k : Nat → Cell → State → State}
    (h : memoryWf s.mem = true) (hk : ∀ key c t, memoryWf t.mem = true → memoryWf (k key c t).mem = true) :
    EndsCanonical (onX s adds needs cost k) := by
  unfold onX
  dsimp only
  (repeat' split) <;> simp [h, hk]

theorem onBoth_endsCanonical {s : State} {use : List (BitVec 5)} {needs : List (Nat × Nat)} {cost : Nat} {fa : Agent → ASeq → State}
    {fx : Nat → Cell → State → State} (h : memoryWf s.mem = true) (ha : ∀ ag q, memoryWf (fa ag q).mem = true)
    (hx : ∀ key c t, memoryWf t.mem = true → memoryWf (fx key c t).mem = true) : EndsCanonical (onBoth s use needs cost fa fx) := by
  unfold onBoth
  split
  · exact onX_endsCanonical h hx
  · exact onA_endsCanonical h ha

/-! ## Shared operations -/

@[simp] theorem State.fillRo_mem (s : State) (slot loc : Nat) : (s.fillRo slot loc).mem = s.mem := by
  unfold State.fillRo
  split <;> rfl

@[simp] theorem State.prefetch_mem (s : State) (ag : Agent) (ea : Word) : (s.prefetch ag ea).mem = s.mem := by
  unfold State.prefetch
  (repeat' split) <;> simp

@[simp] theorem State.cacheLoad_mem (s : State) (ag : Agent) (x : Access) : (s.cacheLoad ag x).mem = s.mem := by
  unfold State.cacheLoad
  (repeat' split) <;> simp

theorem State.tagForm_wf {s : State} {key : Nat} {a : Word} {count : Nat} {k : Option Nat → State} (h : memoryWf s.mem = true)
    (hk : ∀ l, memoryWf (k l).mem = true) : memoryWf (s.tagForm key a count k).mem = true := by
  unfold State.tagForm
  dsimp only
  (repeat' split) <;> simp [h, hk]

/-- ObjCheck that traps keeps the canonical form (07 R164). -/
theorem State.objTarget_wf {s t : State} {ag : Agent} {a : Word} (h : memoryWf s.mem = true) (e : s.objTarget ag a = .trapped t) :
    memoryWf t.mem = true := by
  unfold State.objTarget at e
  dsimp only at e
  (repeat' split at e) <;> cases e <;> simp [h]

@[simp] theorem State.dropTlb_mem (s : State) (p base len : Nat) : (s.dropTlb p base len).mem = s.mem := rfl

@[simp] theorem State.dropWords_mem (s : State) (p base len : Nat) : (s.dropWords p base len).mem = s.mem := by
  unfold State.dropWords
  exact foldl_mem _ (fun s k => by split <;> simp) _ _

@[simp] theorem State.corrected_mem (s : State) (w : Store) : (s.corrected w).mem = s.mem := by
  unfold State.corrected
  split <;> simp

@[simp] theorem State.noteUpset_mem (s : State) (w : Store) : (s.noteUpset w).mem = s.mem := by
  unfold State.noteUpset
  split <;> simp

@[simp] theorem State.dropUpset_mem (s : State) (w : Store) : (s.dropUpset w).mem = s.mem := by
  unfold State.dropUpset
  split <;> simp

@[simp] theorem State.observeLines_wf (s : State) (pa len : Nat) (h : memoryWf s.mem = true) :
    memoryWf (s.observeLines pa len).mem = true := by
  unfold State.observeLines
  exact foldl_wf _ (fun s n h => by (repeat' split) <;> simp [h]) _ _ h

@[simp] theorem State.hostRead_mem (s : State) (port : Bool) (pa len : Nat) : (s.hostRead port pa len).mem = s.mem := rfl

@[simp] theorem State.hostWrite_wf (s : State) (pa : Nat) (data : List Byte) (h : memoryWf s.mem = true) :
    memoryWf (s.hostWrite pa data).mem = true := by
  unfold State.hostWrite
  split <;> simp [h]

/-- `foldl_wf` in the terms of `State.Canonical`: over an operation that is costly to evaluate the kernel then compares two states
by their arguments and not by what they evaluate to. -/
theorem foldl_canonical {α : Type} (f : State → α → State) (h : ∀ s a, s.Canonical → (f s a).Canonical) (l : List α) (s : State)
    (hs : s.Canonical) : (l.foldl f s).Canonical :=
  foldl_wf f h l s hs

theorem State.wearCell_canonical (s : State) (u : Nat) (inc : Word) (h : s.Canonical) : (s.wearCell u inc).Canonical :=
  State.wearCell_wf s u inc h

theorem State.wearCells_canonical (rs : List (Nat × BitVec 64 × BitVec 64)) {s : State} (h : s.Canonical) :
    (rs.foldl (fun s r => s.wearCell r.1 (increment r.2)) s).Canonical :=
  foldl_canonical _ (fun s r hs => State.wearCell_canonical s r.1 (increment r.2) hs) rs s h

/-! ## Bring-up (23 R432) -/

@[simp] theorem State.ready_mem (s : State) (n : Nat) : (s.ready n).mem = s.mem := by rw [State.ready]

@[simp] theorem State.bootLifetime_mem (s : State) : s.bootLifetime.mem = s.mem := by
  have counted (us : List Nat) (t : State) :
      (us.foldl (fun s u => s.changeCell u (budgetState (s.unitLife u).wused) 0) t).mem = t.mem :=
    foldl_mem _ (fun s u => by simp) us t
  rw [State.bootLifetime, State.ready_mem, counted]

theorem State.withDies_mem (s : State) (dm dc : Vector (BitVec 32) 32) (gen : BitVec 32) (lost : AMap (BitVec 32))
    (mr : Vector (BitVec 512) 8) (links : AMap Word) (rdy : Word) :
    ({ s with diemix := dm, diecell := dc, mixgen := gen, lostDies := lost, mr := mr, lnkst := links, rdymap1 := rdy } : State).mem =
      s.mem := rfl

/-- The state after each write is kept by name, or the kernel evaluates the registers of all dies to compare two states. -/
@[simp] theorem State.bootDies_mem (s : State) (t : SelfTest) : (s.bootDies t).mem = s.mem := by
  unfold State.bootDies
  extract_lets a b c d
  have ha : a.mem = s.mem := State.withDies_mem s _ _ _ _ _ _ _
  have hb : b.mem = a.mem := by rw [show b = a.hideRetired from rfl, State.hideRetired_mem]
  have hc : c.mem = b.mem := State.withDies_mem b _ _ _ _ _ _ _
  have hd : d.mem = c.mem := State.withDies_mem c _ _ _ _ _ _ _
  rw [apply_ite State.mem, State.ready_mem, ite_self, hd, hc, hb, ha]

@[simp] theorem State.bootTables_mem (s : State) (staged : List (List Byte)) : (s.bootTables staged).mem = s.mem := by
  unfold State.bootTables
  dsimp only
  split <;> simp

@[simp] theorem State.bringUp_mem (s : State) (t : SelfTest) (staged : List (List Byte)) : (s.bringUp t staged).mem = s.mem := by
  simp [State.bringUp]

/-! ## Fetch (03 R43) -/

@[simp] theorem State.keepFetched_mem (s : State) (ag : Agent) (p : Pos) (i : Instr) : (s.keepFetched ag p i).1.mem = s.mem := by
  unfold State.keepFetched
  split
  · rfl
  · simp

@[simp] theorem State.fetched_mem (s : State) (i : Instr) : (s.fetched i).mem = s.mem := by
  unfold State.fetched
  dsimp only
  (repeat' split) <;> simp

/-- A fetch that traps keeps the canonical form. -/
theorem State.fetch_wf {s t : State} {ag : Agent} {p : Pos} {x : Bool} (h : memoryWf s.mem = true) (e : s.fetch ag p x = .trapped t) :
    memoryWf t.mem = true := by
  unfold State.fetch at e
  dsimp only at e
  (repeat' split at e) <;> cases e <;> simp [h]

/-! ## Units of work of engine commands -/

/-- What a unit of work writes keeps the canonical form. -/
def UnitCanonical (e : Eng Worked) : Prop := ∀ w, e = .ok w → memoryWf w.s.mem = true

@[simp] theorem unitCanonical_ok (w : Worked) : UnitCanonical (.ok w) ↔ memoryWf w.s.mem = true :=
  ⟨fun h => h w rfl, fun h v e => by cases e; exact h⟩

@[simp] theorem unitCanonical_fail (n : Nat) : UnitCanonical (.fail n) := fun _ e => by cases e

theorem unitCanonical_ite {p : Prop} [Decidable p] {x y : Eng Worked} (hx : UnitCanonical x) (hy : UnitCanonical y) :
    UnitCanonical (if p then x else y) := by
  split
  · exact hx
  · exact hy

theorem unitCanonical_bind {α : Type} {x : Eng α} {f : α → Eng Worked} (h : ∀ a, x = .ok a → UnitCanonical (f a)) :
    UnitCanonical (x.bind f) := fun w e => by
  obtain ⟨a, hx, hf⟩ := Eng.bind_eq_ok e
  exact h a hx w hf

theorem unitCanonical_map {α : Type} {x : Eng α} {f : α → Worked} (h : ∀ a, x = .ok a → memoryWf (f a).s.mem = true) :
    UnitCanonical (x.map f) := fun w e => by
  obtain ⟨a, hx, rfl⟩ := Eng.map_eq_ok e
  exact h a hx

theorem Eng.both_eq_ok {α β : Type} {x : Eng α} {y : Eng β} {p : α × β} (h : x.both y = .ok p) : x = .ok p.1 ∧ y = .ok p.2 := by
  unfold Eng.both at h
  split at h <;> first | (split at h <;> cases h) | cases h
  exact ⟨rfl, rfl⟩

/-- A unit that writes one group and then changes no memory. -/
theorem writeGroup_unitCanonical {s : State} {key id opnd : Nat} {ws : List (Nat × List Byte)} {f : State → Worked}
    (h : memoryWf s.mem = true) (hf : ∀ t, (f t).s.mem = t.mem) : UnitCanonical ((writeGroup s key id opnd ws).map f) :=
  unitCanonical_map (fun t e => by rw [hf]; exact writeGroup_wf _ _ _ _ _ h t e)

theorem commitUnit_canonical {s : State} (key : Nat) (c : Cell) (x : Cmd) (p : Multiply) (g : Nat) (ops : Eng Granule)
    (h : memoryWf s.mem = true) : UnitCanonical (commitUnit s key c x p g ops) :=
  unitCanonical_bind (fun q _ => by split <;> simp [h])

theorem checkUnit_canonical {s : State} (key : Nat) (c : Cell) (x : Cmd) (t : Nat) (drain : Option (DrainVals × BitVec 512))
    (h : memoryWf s.mem = true) : UnitCanonical (checkUnit s key c x t drain) := by
  unfold checkUnit
  dsimp only
  split
  · simp
  · split
    · simpa using h
    · simp
    · split
      · simpa using h
      · split
        · exact unitCanonical_map (fun t e => drainWrite_wf _ _ _ _ _ _ _ _ _ _ (by simpa using h) t e)
        · simpa using h

theorem putGroup_canonical {s : State} (key : Nat) (x : Cmd) (d : Region) (out : List (Nat × VOut)) (h : memoryWf s.mem = true) :
    UnitCanonical (putGroup s key x d out) :=
  writeGroup_unitCanonical h (fun t => by simp)

theorem vectorUnit_canonical {s : State} (key : Nat) (c : Cell) (x : Cmd) (r : VRegs) (q : Nat) (h : memoryWf s.mem = true) :
    UnitCanonical (vectorUnit s key c x r q) := by
  have element : UnitCanonical (elementUnit s key c x r q) := unitCanonical_bind (fun _ _ => putGroup_canonical _ _ _ _ h)
  unfold vectorUnit
  split
  · split
    · exact unitCanonical_bind (fun _ _ => putGroup_canonical _ _ _ _ h)
    · split
      · exact unitCanonical_bind (fun _ _ => writeGroup_unitCanonical h (fun _ => rfl))
      · exact element
  · exact unitCanonical_bind (fun _ _ => putGroup_canonical _ _ _ _ h)
  · split
    · exact unitCanonical_bind (fun _ _ => putGroup_canonical _ _ _ _ h)
    · exact element

theorem tblUnit_canonical {s : State} (key : Nat) (x : Cmd) (fn fmt : Nat) (sr : Bool) (aux : Word) (srcs : List Region) (d : Region)
    (pre : List FV → FV) (q : Nat) (h : memoryWf s.mem = true) : UnitCanonical (tblUnit s key x fn fmt sr aux srcs d pre q) :=
  unitCanonical_bind (fun _ _ => putGroup_canonical _ _ _ _ h)

theorem copyUnit_canonical {s : State} (key : Nat) (x : Cmd) (j : CopyJob) (g : Nat) (h : memoryWf s.mem = true) :
    UnitCanonical (copyUnit s key x j g) :=
  unitCanonical_map (fun v _ => foldl_wf _ (fun s t h => by simp [h]) _ _ h)

theorem recordUnit_canonical {s : State} (key : Nat) (x : Cmd) (j : CopyJob) (h : memoryWf s.mem = true) :
    UnitCanonical (recordUnit s key x j) := by
  unfold recordUnit
  split
  · simpa using h
  · exact unitCanonical_map (fun ls _ => by simp [h])

theorem gthUnit_canonical {s : State} (key : Nat) (x : Cmd) (g : GthVals) (e : Nat) (h : memoryWf s.mem = true) :
    UnitCanonical (gthUnit s key x g e) :=
  unitCanonical_bind (fun _ _ => unitCanonical_bind (fun _ _ => writeGroup_unitCanonical h (fun _ => rfl)))

theorem sctUnit_canonical {s : State} (key : Nat) (x : Cmd) (g : GthVals) (f op e : Nat) (h : memoryWf s.mem = true) :
    UnitCanonical (sctUnit s key x g f op e) :=
  unitCanonical_bind (fun l _ => by
    dsimp only
    split
    · simpa using h
    · exact unitCanonical_bind (fun v _ => by (repeat' split) <;> simp [h]))

theorem gredUnit_canonical {s : State} (key : Nat) (x : Cmd) (g : GthVals) (f op b : Nat) (h : memoryWf s.mem = true) :
    UnitCanonical (gredUnit s key x g f op b) := by
  unfold gredUnit
  split
  · simpa using h
  · exact unitCanonical_bind (fun ob _ => unitCanonical_bind (fun is _ => unitCanonical_bind (fun rows _ =>
      writeGroup_unitCanonical h (fun _ => rfl))))

theorem indexUnit_canonical {s : State} (key : Nat) (x : Cmd) (codes : List (Option Nat)) (h : memoryWf s.mem = true) :
    UnitCanonical (indexUnit s key x codes) := by
  unfold indexUnit
  dsimp only
  split <;> simp [h]

theorem rankUnit_canonical {s : State} (key : Nat) (x : Cmd) (r : SrtRegs) (f : Nat) (up whole : Bool) (row : Nat)
    (h : memoryWf s.mem = true) : UnitCanonical (rankUnit s key x r f up whole row) :=
  unitCanonical_bind (fun _ _ => writeGroup_unitCanonical h (fun _ => rfl))

theorem scanUnit_canonical {s : State} (key : Nat) (x : Cmd) (r : SrtRegs) (f : Nat) (exc : Bool) (row : Nat)
    (h : memoryWf s.mem = true) : UnitCanonical (scanUnit s key x r f exc row) :=
  unitCanonical_bind (fun _ _ => writeGroup_unitCanonical h (fun _ => rfl))

theorem histUnit_canonical {s : State} (key : Nat) (x : Cmd) (r : SrtRegs) (f : Nat) (clamp accum : Bool) (q : Nat)
    (h : memoryWf s.mem = true) : UnitCanonical (histUnit s key x r f clamp accum q) :=
  unitCanonical_bind (fun v e => by
    have zeroed : memoryWf v.1.mem = true := by
      obtain ⟨hz, -⟩ := Eng.both_eq_ok e
      split at hz
      · exact writeGroup_wf _ _ _ _ _ h _ hz
      · cases hz; exact h
    exact unitCanonical_bind (fun old _ => writeGroup_unitCanonical zeroed (fun _ => rfl)))

theorem drawUnit_canonical {s : State} (key : Nat) (x : Cmd) (r : SrtRegs) (f : Nat) (seed : Bool) (q : Nat)
    (h : memoryWf s.mem = true) : UnitCanonical (drawUnit s key x r f seed q) :=
  writeGroup_unitCanonical h (fun _ => rfl)

theorem lredUnit_canonical {s : State} (key : Nat) (x : Cmd) (op : BitVec 3) (e : Nat) (h : memoryWf s.mem = true) :
    UnitCanonical (lredUnit s key x op e) :=
  unitCanonical_bind (fun v _ => by dsimp only; (repeat' split) <;> simp [h])

/-! ## Executions of engine commands -/

/-- `UnitCanonical` of every unit. -/
def UnitsCanonical (u : Nat → Eng Worked) : Prop := ∀ n, UnitCanonical (u n)

/-- Whatever an execution does, at its start, in a unit or when it fails, keeps the canonical form. -/
structure Form.KeepsCanonical (f : Form) : Prop where
  start : memoryWf f.start.s.mem = true
  unit : UnitsCanonical f.unit
  failing : ∀ n, memoryWf (f.failing n).mem = true

section
variable {s : State} (key : Nat) (c : Cell) (x : Cmd) (h : memoryWf s.mem = true)
include h

theorem mmForm_canonical (fmt : Nat) (ck new : Bool) : (mmForm s key c x fmt ck new).KeepsCanonical :=
  ⟨h, fun _ => commitUnit_canonical _ _ _ _ _ _ h, fun _ => h⟩

theorem mmaForm_canonical (new : Bool) : (mmaForm s key c x new).KeepsCanonical :=
  ⟨h, fun _ => commitUnit_canonical _ _ _ _ _ _ h, fun _ => h⟩

theorem ldForm_canonical (accum i32 : Bool) : (ldForm s key c x accum i32).KeepsCanonical where
  start := by dsimp only [ldForm]; split <;> simp [h]
  unit _ := unitCanonical_bind (fun _ _ => by dsimp only; split <;> simp [h])
  failing _ := h

theorem clrForm_canonical : (clrForm s key c x).KeepsCanonical :=
  ⟨h, fun _ => by simpa [clrForm, Form.base] using h, fun _ => h⟩

theorem mvForm_canonical (tr : Bool) : (mvForm s key c x tr).KeepsCanonical :=
  ⟨h, fun _ => unitCanonical_ite (unitCanonical_fail 1) ((unitCanonical_ok _).mpr h), fun _ => h⟩

theorem markForm_canonical : (markForm s x).KeepsCanonical :=
  ⟨h, fun _ => by simpa [markForm, Form.base] using h, fun _ => h⟩

theorem slotForm_canonical (valid : BitVec 512 → Bool) (code : Nat) (put : Cell → BitVec 512 → Cell) :
    (slotForm s key c x valid code put).KeepsCanonical :=
  ⟨h, fun _ => unitCanonical_bind (fun _ _ => by dsimp only; split <;> simp [h]), fun _ => h⟩

theorem drainForm_canonical (k : BitVec 2) (ck : Bool) (v : DrainVals) : (drainForm s key c x k ck v).KeepsCanonical where
  start := by rw [drainForm, State.inject_mem]; exact h
  unit _ := by
    dsimp only [drainForm]
    split
    · exact unitCanonical_map (fun t e => drainWrite_wf _ _ _ _ _ _ _ _ _ _ h t e)
    · exact checkUnit_canonical _ _ _ _ _ h
  failing _ := h

theorem cksForm_canonical : (cksForm s key c x).KeepsCanonical where
  start := by rw [cksForm, State.inject_mem]; exact h
  unit _ := by dsimp only [cksForm, Form.base]; exact checkUnit_canonical _ _ _ _ _ h
  failing _ := h

theorem cvForm_canonical (k : BitVec 2) (ck new : Bool) : (cvForm s key c x k ck new).KeepsCanonical :=
  ⟨h, fun _ => commitUnit_canonical _ _ _ _ _ _ h, fun _ => h⟩

theorem pushForm_canonical : (pushForm s key c x).KeepsCanonical :=
  ⟨h, fun _ => unitCanonical_map (fun _ _ => by simpa using h), fun _ => h⟩

theorem invForm_canonical : (invForm s key c x).KeepsCanonical :=
  ⟨h, fun _ => by simpa [invForm, Form.base] using h, fun _ => h⟩

theorem popForm_canonical : (popForm s key c x).KeepsCanonical :=
  ⟨h, fun _ => by simpa [popForm, Form.base] using h, fun _ => h⟩

theorem vectorExec_canonical : (vectorExec s key c x).KeepsCanonical :=
  ⟨h, fun _ => vectorUnit_canonical _ _ _ _ _ h, fun _ => h⟩

theorem tableExec_canonical : (tableExec s key x).KeepsCanonical where
  start := h
  unit := by
    dsimp only [tableExec, Form.base]
    split
    · exact fun _ => tblUnit_canonical _ _ _ _ _ _ _ _ _ _ h
    · exact fun _ => tblUnit_canonical _ _ _ _ _ _ _ _ _ _ h
    · exact fun _ => writeGroup_unitCanonical h (fun _ => rfl)
    · exact fun _ => unitCanonical_bind (fun _ _ => by split <;> simp [h])
  failing _ := h

theorem copyExec_canonical : (copyExec s key x).KeepsCanonical where
  start := h
  unit _ := by
    dsimp only [copyExec, Form.base]
    split
    · exact copyUnit_canonical _ _ _ _ h
    · exact recordUnit_canonical _ _ _ h
  failing _ := recordFailed_wf _ _ _ _ _ h

theorem gatherExec_canonical : (gatherExec s key x).KeepsCanonical where
  start := h
  unit _ := by
    dsimp only [gatherExec, Form.base]
    split
    · exact indexUnit_canonical _ _ _ h
    · split
      · exact gredUnit_canonical _ _ _ _ _ _ h
      · split
        · exact sctUnit_canonical _ _ _ _ _ _ h
        · exact gthUnit_canonical _ _ _ _ h
  failing _ := h

theorem sortExec_canonical : (sortExec s key x).KeepsCanonical where
  start := h
  unit := by
    dsimp only [sortExec, Form.base]
    split
    · exact fun _ => rankUnit_canonical _ _ _ _ _ _ _ h
    · exact fun _ => rankUnit_canonical _ _ _ _ _ _ _ h
    · exact fun _ => scanUnit_canonical _ _ _ _ _ _ h
    · exact fun _ => histUnit_canonical _ _ _ _ _ _ _ h
    · exact fun _ => drawUnit_canonical _ _ _ _ _ _ h
    · exact fun _ => (unitCanonical_ok _).mpr h
  failing _ := h

theorem linkExec_canonical : (linkExec s key x).KeepsCanonical := by
  unfold linkExec
  split
  · exact ⟨h, fun _ => lredUnit_canonical _ _ _ _ h, fun _ => h⟩
  · exact ⟨by simpa [lopenExec] using h, fun _ => by simpa [lopenExec, Form.base] using h, fun _ => h⟩
  · exact ⟨h, fun _ => by simpa [lordExec, Form.base] using h, fun _ => h⟩
  · refine ⟨h, fun _ => ?_, fun _ => h⟩
    dsimp only [lwagExec, Form.base]
    split
    · exact unitCanonical_map (fun _ _ => h)
    · simpa using h

theorem engineForm_canonical : (engineForm s key c x).KeepsCanonical := by
  unfold engineForm
  split
  · exact mmForm_canonical _ _ _ h _ _ _
  · exact ldForm_canonical _ _ _ h _ _
  · exact clrForm_canonical _ _ _ h
  · exact mmaForm_canonical _ _ _ h _
  · exact mvForm_canonical _ _ _ h _
  · exact markForm_canonical _ h
  · exact markForm_canonical _ h
  · exact drainForm_canonical _ _ _ h _ _ _
  · exact slotForm_canonical _ _ _ h _ _ _
  · exact cksForm_canonical _ _ _ h
  · exact drainForm_canonical _ _ _ h _ _ _
  · exact slotForm_canonical _ _ _ h _ _ _
  · exact cvForm_canonical _ _ _ h _ _ _
  · exact pushForm_canonical _ _ _ h
  · exact invForm_canonical _ _ _ h
  · exact invForm_canonical _ _ _ h
  · exact popForm_canonical _ _ _ h
  · exact popForm_canonical _ _ _ h
  · split
    · exact vectorExec_canonical _ _ _ h
    · exact tableExec_canonical _ _ h
    · split
      · exact gatherExec_canonical _ _ h
      · exact sortExec_canonical _ _ h
    · exact copyExec_canonical _ _ h
    · exact linkExec_canonical _ _ h

end

/-- The execution of a running command is its form's. -/
theorem State.running?_canonical {s : State} {key id : Nat} {r : Running} (h : memoryWf s.mem = true)
    (e : s.running? key id = some r) : r.f.KeepsCanonical := by
  unfold State.running? at e
  (repeat' split at e) <;> cases e
  exact engineForm_canonical _ _ _ h

/-! ## Events of engine commands -/

@[simp] theorem State.discardCmd_mem (s : State) (key : Nat) (x : Cmd) : (s.discardCmd key x).mem = s.mem := by
  simp [State.discardCmd]

@[simp] theorem State.startCmd_wf (s : State) (key : Nat) (c : Cell) (x : Cmd) (h : memoryWf s.mem = true) :
    memoryWf (s.startCmd key c x).mem = true := by
  have started := (engineForm_canonical key c x h).start
  unfold State.startCmd
  dsimp only
  split
  · simpa using h
  · split <;> simpa using started

@[simp] theorem State.missedStart_mem (s : State) (key : Nat) (c : Cell) (x : Cmd) (t : Word) :
    (s.missedStart key c x t).mem = s.mem := by
  unfold State.missedStart
  dsimp only
  split <;> simp

@[simp] theorem State.countUnit_mem (s : State) (key : Nat) (f : Form) (x : Cmd) : (s.countUnit key f x).mem = s.mem := by
  simp [State.countUnit]

theorem State.finishUnit_wf {s : State} (key : Nat) {r : Running} (h : memoryWf s.mem = true) (hf : r.f.KeepsCanonical) :
    memoryWf (s.finishUnit key r).mem = true := by
  unfold State.finishUnit
  split
  · exact h
  · simpa using hf.failing _
  · rename_i w e
    have done := hf.unit _ w e
    split <;> simpa using done

@[simp] theorem State.runUnit_wf (s : State) (key id : Nat) (h : memoryWf s.mem = true) : memoryWf (s.runUnit key id).mem = true := by
  unfold State.runUnit
  split
  · rename_i r e
    split
    · simpa using h
    · exact State.finishUnit_wf key h (State.running?_canonical h e)
  · exact h

theorem State.endCmd_wf {s : State} (key : Nat) {r : Running} (h : memoryWf s.mem = true) (hf : r.f.KeepsCanonical) :
    memoryWf (s.endCmd key r).mem = true := by
  unfold State.endCmd
  split
  · simp [h]
  · dsimp only
    split <;> simp [hf.failing]

/-! ## Forms that many instructions share -/

section
variable {s : State} (h : memoryWf s.mem = true)
include h

theorem aluOp_endsCanonical {size : Nat} {d a b : BitVec 5} {f : Word → Word → Word} : EndsCanonical (aluOp size d a b f s) :=
  onA_endsCanonical h (fun _ _ => by simpa using h)

theorem aluImm_endsCanonical {size : Nat} {d a : BitVec 5} {y : Word} {f : Word → Word → Word} :
    EndsCanonical (aluImm size d a y f s) :=
  onA_endsCanonical h (fun _ _ => by simpa using h)

theorem aluWide_endsCanonical {d : BitVec 5} {f : Word → Word → Word} : EndsCanonical (aluWide d f s) :=
  onA_endsCanonical h (fun _ _ => by simpa using h)

theorem branch_endsCanonical {size extra : Nat} {use : List (BitVec 5)} {t : Word → Word} {taken : ASeq → Bool} :
    EndsCanonical (branch size extra use t taken s) :=
  onA_endsCanonical h (fun _ _ => by split <;> simp [h])

theorem decrementBranch_endsCanonical {size : Nat} {a : BitVec 5} {t : Word → Word} : EndsCanonical (decrementBranch size a t s) :=
  onA_endsCanonical h (fun _ _ => by dsimp only; split <;> simp [h])

theorem callTo_endsCanonical {extra : Nat} {use : List (BitVec 5)} {t : ASeq → Word} : EndsCanonical (callTo extra use t s) :=
  onA_endsCanonical h (fun _ _ => by simpa using h)

theorem blockHeader_endsCanonical {use : List (BitVec 5)} {ca : ASeq → Word} {len : Nat} :
    EndsCanonical (blockHeader use ca len s) := by
  unfold blockHeader
  split
  · split
    · simp
    · exact onX_endsCanonical h (fun _ _ _ ht => by dsimp only; split <;> simp [ht])
  · exact onA_endsCanonical h (fun _ _ => by dsimp only; split <;> simp [h])

theorem popBranch_endsCanonical {w size minor : Nat} {off : BitVec w} {want : Bool} :
    EndsCanonical (popBranch size minor off want s) := by
  unfold popBranch
  split
  · exact onX_endsCanonical h (fun _ _ _ ht => by dsimp only; split <;> simp [ht])
  · exact onCell_endsCanonical h (fun _ _ => by (repeat' split) <;> simp [h])

theorem scalarLoad_endsCanonical {sgn : Bool} {d a : BitVec 5} {imm : BitVec 12} {i : Instr} :
    EndsCanonical (scalarLoad sgn d a imm i s) :=
  onA_endsCanonical h (fun _ _ => State.issueAccess_wf _ _ _ _ _ _ _ _ h)

theorem atomicForm_endsCanonical {use : List (BitVec 5)} {op : AtomicOp} {dest : Option (BitVec 5)} {a b m exp : BitVec 5} {i : Instr} :
    EndsCanonical (atomicForm use op dest a b m exp i s) :=
  onA_endsCanonical h (fun _ _ => State.issueAccess_wf _ _ _ _ _ _ _ _ h)

theorem queueLoad_endsCanonical {n a : BitVec 5} {imm : BitVec 12} {post : Bool} {minor : Nat} {i : Instr} :
    EndsCanonical (queueLoad n a imm post minor i s) :=
  onCell_endsCanonical h (fun _ _ => by dsimp only; (repeat' split) <;> simp [h])

theorem queueStore_endsCanonical {n a : BitVec 5} {imm : BitVec 12} {post : Bool} {minor : Nat} {i : Instr} :
    EndsCanonical (queueStore n a imm post minor i s) :=
  onCell_endsCanonical h (fun _ _ => by dsimp only; (repeat' split) <;> simp [h])

theorem counterWait_endsCanonical {size minor : Nat} {n : BitVec 5} {use : List (BitVec 5)} {threshold : Cell → Nat} :
    EndsCanonical (counterWait size minor n use threshold s) :=
  onCell_endsCanonical h (fun _ _ => by dsimp only; (repeat' split) <;> simp [h])

theorem counterAdd_endsCanonical {size v : Nat} {n : BitVec 5} : EndsCanonical (counterAdd size n v s) :=
  onCell_endsCanonical h (fun _ _ => h)

theorem tagSet_endsCanonical {minor : Nat} {cnt a : BitVec 5} {v : Bool} : EndsCanonical (tagSet minor cnt a v s) :=
  onCell_endsCanonical h (fun _ _ => State.tagForm_wf h (fun _ => by dsimp only; split <;> simp [h]))

theorem issueMove_endsCanonical {m : Move} {size : Nat} : EndsCanonical (issueMove m size s) :=
  onX_endsCanonical h (fun _ _ _ ht => ht)

theorem matrixForm_endsCanonical {i : Instr} {code : Cell → List Word → Nat} {work : Nat → List Word → Issue} {stampIdx : Nat} :
    EndsCanonical (matrixForm i s code work stampIdx) :=
  onEngine_endsCanonical h (fun _ _ _ => by split <;> simp [h])

theorem vectorForm_endsCanonical {i : Instr} : EndsCanonical (vectorForm i s) :=
  onEngine_endsCanonical h (fun _ _ _ => by dsimp only; split <;> simp [h])

theorem maskForm_endsCanonical {i : Instr} {post : Cell → Cell} : EndsCanonical (maskForm i post s) :=
  onEngine_endsCanonical h (fun _ _ _ => by split <;> simp [h])

theorem tableForm_endsCanonical {i : Instr} : EndsCanonical (tableForm i s) :=
  onEngine_endsCanonical h (fun _ _ _ => by split <;> simp [h])

theorem copyForm_endsCanonical {i : Instr} : EndsCanonical (copyForm i s) :=
  onEngine_endsCanonical h (fun _ _ _ => State.enqueue_wf _ _ _ _ _ _ _ _ h)

theorem gatherForm_endsCanonical {i : Instr} : EndsCanonical (gatherForm i s) :=
  onEngine_endsCanonical h (fun _ _ _ => by dsimp only; (repeat' split) <;> simp [h])

theorem sortForm_endsCanonical {i : Instr} : EndsCanonical (sortForm i s) :=
  onEngine_endsCanonical h (fun _ _ _ => by dsimp only; split <;> simp [h])

theorem linkForm_endsCanonical {i : Instr} {regs : List Word → List Word} {counts : List Word → Bool}
    {rs : Nat → List Word → List Rng} : EndsCanonical (linkForm i regs counts rs s) :=
  onEngine_endsCanonical h (fun _ _ _ => by split <;> simp [h])

theorem tileNext_endsCanonical {size : Nat} {d : BitVec 5} : EndsCanonical (tileNext size d s) :=
  onCell_endsCanonical h (fun _ _ => by dsimp only; split <;> simp [h])

theorem streamIssue_endsCanonical {kind : StreamKind} {minor : Nat} {d a b : BitVec 5} :
    EndsCanonical (streamIssue kind minor d a b s) :=
  onCore_endsCanonical h (fun _ _ => by dsimp only; (repeat' split) <;> simp [h])

theorem onHandle_endsCanonical {use : List (BitVec 5)} {minor : Nat} {a : BitVec 5} {f : Nat → Core → Nat → Launch → Nat → State}
    (hf : ∀ k c l x n, memoryWf (f k c l x n).mem = true) : EndsCanonical (onHandle use minor a s f) :=
  onCore_endsCanonical h (fun _ _ => by dsimp only; (repeat' split) <;> simp [h, hf])

theorem eventGet_endsCanonical {nb : Bool} {d : BitVec 5} : EndsCanonical (eventGet nb d s) :=
  onCore_endsCanonical h (fun _ _ => by dsimp only; (repeat' split) <;> simp [h])

theorem trapReturn_endsCanonical {m : Nat} {d a : BitVec 5} : EndsCanonical (trapReturn m d a s) :=
  onSupervisor_endsCanonical h (fun _ _ => by dsimp only; (repeat' split) <;> simp [h])

theorem layoutCommand_endsCanonical {port : Bool} {op len : Nat} {addr : Word} {run : List Byte → Nat × State}
    (hr : ∀ bs, memoryWf (run bs).2.mem = true) : EndsCanonical (layoutCommand port op len addr s run) :=
  event_endsCanonical h (by (repeat' split) <;> simp [h, hr])

end

/-! ## Instructions and events with a meaning of their own -/

section
variable {s : State} (h : memoryWf s.mem = true)
include h

/-! ### Scalar accesses (06) -/

theorem execLoadReturn_endsCanonical (ag : Agent) (id : Nat) : EndsCanonical (execLoadReturn ag id s) :=
  event_endsCanonical h (by (repeat' split) <;> simp [h])

theorem execQueueLoadFill_endsCanonical (ag : Agent) (id : Nat) : EndsCanonical (execQueueLoadFill ag id s) :=
  event_endsCanonical h (by (repeat' split) <;> simp [h])

theorem execScalarWritePerformed_endsCanonical (ag : Agent) (id : Nat) : EndsCanonical (execScalarWritePerformed ag id s) :=
  event_endsCanonical h (by (repeat' split) <;> simp [h])

theorem execAtomicPerform_endsCanonical (ag : Agent) (id : Nat) : EndsCanonical (execAtomicPerform ag id s) :=
  event_endsCanonical h (by dsimp only; (repeat' split) <;> simp [h])

theorem execTranslationReply_endsCanonical (ag : Agent) (eng : Bool) (id : Nat) : EndsCanonical (execTranslationReply ag eng id s) := by
  unfold execTranslationReply
  split
  · exact event_endsCanonical h (by split <;> simp [h])
  · exact event_endsCanonical h (by simp [h])

/-! ### Synchronisation objects (07) -/

theorem execBind_endsCanonical (d a b : BitVec 5) : EndsCanonical (execBind d a b s) :=
  onCell_endsCanonical h (fun _ _ => by
    dsimp only
    split
    · exact State.objTarget_wf h ‹_›
    · (repeat' split) <;> simp [h])

theorem execUnbind_endsCanonical (d a : BitVec 5) : EndsCanonical (execUnbind d a s) :=
  onCell_endsCanonical h (fun _ _ => by
    dsimp only
    split
    · exact State.objTarget_wf h ‹_›
    · split <;> simp [h])

theorem execAcq_endsCanonical (d a b m : BitVec 5) : EndsCanonical (execAcq d a b m s) :=
  onA_endsCanonical h (fun _ _ => by
    dsimp only
    split
    · exact State.objTarget_wf h ‹_›
    · (repeat' split) <;> simp [h])

theorem execOinit_endsCanonical (a b : BitVec 5) : EndsCanonical (execOinit a b s) :=
  onA_endsCanonical h (fun _ _ => by
    dsimp only
    split
    · exact State.objTarget_wf h ‹_›
    · (repeat' split) <;> simp [h])

theorem execRel_endsCanonical (d a m : BitVec 5) : EndsCanonical (execRel d a m s) :=
  onA_endsCanonical h (fun _ _ => by
    split
    · exact State.objTarget_wf h ‹_›
    · split <;> simp [h])

theorem execXfer_endsCanonical (d a b m : BitVec 5) : EndsCanonical (execXfer d a b m s) :=
  onCell_endsCanonical h (fun _ _ => by
    dsimp only
    split
    · exact State.objTarget_wf h ‹_›
    · (repeat' split) <;> simp [h])

theorem execReleasePerformed_endsCanonical (ag : Agent) (id : Nat) : EndsCanonical (execReleasePerformed ag id s) :=
  event_endsCanonical h (by (repeat' split) <;> simp [h])

theorem execXferPerformed_endsCanonical (ag : Agent) (id : Nat) : EndsCanonical (execXferPerformed ag id s) :=
  event_endsCanonical h (by
    have written (l r g owner : Nat) : memoryWf (writeLE (writeLE (writeLE s.mem l 8 r) (l + 8) 4 g) (l + 12) 2 owner) = true :=
      memoryWf_writeLE _ _ _ _ (memoryWf_writeLE _ _ _ _ (memoryWf_writeLE _ _ _ _ h))
    dsimp only
    (repeat' split) <;> simp [h, written])

/-! ### Counters, tags and the ends of cells (08, 17) -/

theorem execCrinc_endsCanonical (n a : BitVec 5) (imm : BitVec 12) : EndsCanonical (execCrinc n a imm s) :=
  onCell_endsCanonical h (fun _ _ => by dsimp only; (repeat' split) <;> simp [h])

theorem execCrincArrival_endsCanonical (gang idx : Nat) : EndsCanonical (execCrincArrival gang idx s) :=
  event_endsCanonical h (by split <;> simp [h])

theorem execTread_endsCanonical (d a : BitVec 5) : EndsCanonical (execTread d a s) :=
  onCell_endsCanonical h (fun _ _ => State.tagForm_wf h (fun _ => by simp [h]))

theorem execCellExit_endsCanonical (cell : Nat) : EndsCanonical (execCellExit cell s) :=
  event_endsCanonical h (by dsimp only; (repeat' split) <;> simp [h])

/-! ### Time (16) -/

theorem execRdtinf_endsCanonical (d sel : BitVec 5) : EndsCanonical (execRdtinf d sel s) :=
  onCellTime_endsCanonical h (fun _ _ => by dsimp only; split <;> simp [h])

theorem execTwait_endsCanonical (a t : BitVec 5) : EndsCanonical (execTwait a t s) :=
  onCellTime_endsCanonical h (fun _ _ => by dsimp only; (repeat' split) <;> simp [h])

theorem execRealignResume_endsCanonical (gang : Nat) : EndsCanonical (execRealignResume gang s) :=
  event_endsCanonical h (by split <;> simp [h])

theorem execEyeMarginPrediction_endsCanonical (link : Nat) : EndsCanonical (execEyeMarginPrediction link s) := by
  unfold execEyeMarginPrediction
  dsimp only
  split
  · simpa using h
  · split
    · simpa using h
    · exact (endsCanonical_next _).mpr (foldl_wf _ (fun _ _ h => by split <;> simp [h]) _ _ h)

/-! ### Engine commands (09 to 15) -/

theorem execAccalloc_endsCanonical (d : BitVec 5) (n : BitVec 12) : EndsCanonical (execAccalloc d n s) :=
  onMatrix_endsCanonical h (fun _ _ => by (repeat' split) <;> simp [h])

theorem execAccfree_endsCanonical (a : BitVec 5) (n : BitVec 12) : EndsCanonical (execAccfree a n s) :=
  onMatrix_endsCanonical h (fun _ _ => by dsimp only; (repeat' split) <;> simp [h])

theorem execMpush_endsCanonical (e : EngineFlags) (sA : BitVec 5) : EndsCanonical (execMpush e sA s) := by
  unfold execMpush
  exact onEngine_endsCanonical h (fun _ _ _ => by dsimp only; (repeat' split) <;> simp [h])

theorem execBmz_endsCanonical (off : BitVec 17) : EndsCanonical (execBmz off s) := by
  unfold execBmz
  exact onEngine_endsCanonical h (fun _ _ _ => by dsimp only; (repeat' split) <;> simp [h])

theorem execEngineCommandStart_endsCanonical (cell id : Nat) : EndsCanonical (execEngineCommandStart cell id s) :=
  event_endsCanonical h (by split <;> simp [h])

theorem execStampStart_endsCanonical (cell id : Nat) : EndsCanonical (execStampStart cell id s) :=
  event_endsCanonical h (by dsimp only; (repeat' split) <;> simp [h])

theorem execTagWait_endsCanonical (cell id : Nat) : EndsCanonical (execTagWait cell id s) :=
  event_endsCanonical h (by (repeat' split) <;> simp [h])

theorem execLwag_endsCanonical (e : EngineFlags) (sA sB sC sE : BitVec 5) : EndsCanonical (execLwag e sA sB sC sE s) := by
  unfold execLwag
  exact linkForm_endsCanonical h

theorem execLordArrival_endsCanonical (cell id : Nat) : EndsCanonical (execLordArrival cell id s) :=
  event_endsCanonical h (by dsimp only; (repeat' split) <;> simp [h])

theorem execWaggleArrival_endsCanonical (cell id : Nat) : EndsCanonical (execWaggleArrival cell id s) :=
  event_endsCanonical h (by dsimp only; (repeat' split) <;> simp [h])

theorem execEngineCommandComplete_endsCanonical (cell id : Nat) : EndsCanonical (execEngineCommandComplete cell id s) :=
  event_endsCanonical h (by
    split
    · exact State.endCmd_wf _ h (State.running?_canonical h ‹_›)
    · exact h)

/-! ### Work queues, gangs and streams (17) -/

theorem execWqTailWrite_endsCanonical (n : Nat) (tail : BitVec 32) : EndsCanonical (execWqTailWrite n tail s) :=
  (endsCanonical_next _).mpr (by split <;> simp [h])

theorem execWqCancel_endsCanonical (n : Nat) (cseq : BitVec 32) : EndsCanonical (execWqCancel n cseq s) :=
  (endsCanonical_next _).mpr (by split <;> simp [h])

theorem execLaunchStart_endsCanonical (part : Nat) : EndsCanonical (execLaunchStart part s) :=
  event_endsCanonical h (by (repeat' split) <;> simp [h])

theorem execLaunchAgeing_endsCanonical : EndsCanonical (execLaunchAgeing s) :=
  (endsCanonical_next _).mpr (foldl_wf _ (fun _ _ h => by simp [h]) _ _ h)

theorem execKernelEligible_endsCanonical (launch handle : Nat) : EndsCanonical (execKernelEligible launch handle s) :=
  event_endsCanonical h (by dsimp only; (repeat' split) <;> simp [h])

theorem execGangDispatch_endsCanonical (launch handle : Nat) : EndsCanonical (execGangDispatch launch handle s) :=
  event_endsCanonical h (by (repeat' split) <;> simp [h])

theorem execStreamTransfer_endsCanonical (launch handle : Nat) : EndsCanonical (execStreamTransfer launch handle s) :=
  event_endsCanonical h (by (repeat' split) <;> simp [h])

theorem execGbar_endsCanonical : EndsCanonical (execGbar s) :=
  onCell_endsCanonical h (fun _ _ => by split <;> simp [h])

theorem execSwait_endsCanonical (d a : BitVec 5) : EndsCanonical (execSwait d a s) :=
  onHandle_endsCanonical h (fun _ _ _ _ _ => by split <;> simp [h])

theorem execLcancel_endsCanonical (a : BitVec 5) : EndsCanonical (execLcancel a s) :=
  onHandle_endsCanonical h (fun _ _ _ _ _ => by dsimp only; split <;> simp [h])

/-! ### Supervisor forms (18, 19, 21) -/

theorem execPswap_endsCanonical (d a b : BitVec 5) : EndsCanonical (execPswap d a b s) :=
  onSupervisor_endsCanonical h (fun _ _ => by dsimp only; (repeat' split) <;> simp [h])

theorem execPswapExchange_endsCanonical (part : Nat) : EndsCanonical (execPswapExchange part s) :=
  event_endsCanonical h (by split <;> simp [h])

theorem execWqry_endsCanonical (d a sel : BitVec 5) : EndsCanonical (execWqry d a sel s) :=
  onSupervisor_endsCanonical h (fun _ _ => by dsimp only; (repeat' split) <;> simp [h])

theorem execWset_endsCanonical (d a b : BitVec 5) : EndsCanonical (execWset d a b s) :=
  onSupervisor_endsCanonical h (fun _ _ => by dsimp only; (repeat' split) <;> simp [h])

theorem execScanComplete_endsCanonical (part : Nat) : EndsCanonical (execScanComplete part s) :=
  event_endsCanonical h (by (repeat' split) <;> simp [h])

theorem execPtupd_endsCanonical (d a b : BitVec 5) : EndsCanonical (execPtupd d a b s) :=
  onSupervisor_endsCanonical h (fun _ _ => by dsimp only; (repeat' split) <;> simp [h])

theorem execTlbinv_endsCanonical (a b : BitVec 5) : EndsCanonical (execTlbinv a b s) :=
  onSupervisor_endsCanonical h (fun _ _ => h)

theorem execIbinv_endsCanonical (a : BitVec 5) : EndsCanonical (execIbinv a s) :=
  onSupervisor_endsCanonical h (fun _ _ => by simp [h])

theorem execCpatch_endsCanonical (d a b : BitVec 5) : EndsCanonical (execCpatch d a b s) :=
  onSupervisor_endsCanonical h (fun _ _ => by dsimp only; (repeat' split) <;> simp [h])

theorem execCtxsv_endsCanonical (d a b : BitVec 5) : EndsCanonical (execCtxsv d a b s) :=
  onSupervisor_endsCanonical h (fun _ _ => by dsimp only; (repeat' split) <;> simp [h])

theorem execContextSaveComplete_endsCanonical (part : Nat) : EndsCanonical (execContextSaveComplete part s) :=
  event_endsCanonical h (by split <;> simp [h])

theorem execCtxld_endsCanonical (d a : BitVec 5) : EndsCanonical (execCtxld d a s) :=
  onSupervisor_endsCanonical h (fun _ _ => by dsimp only; (repeat' split) <;> simp [h])

theorem execRestoredGangDispatch_endsCanonical (gang : Nat) : EndsCanonical (execRestoredGangDispatch gang s) :=
  event_endsCanonical h (by
    split
    · exact h
    · refine State.checkTaken_wf _ _ _ (State.renewTraps_wf _ _ (State.takeUp_wf _ _ ?_))
      refine foldl_wf _ (fun _ _ h => by simp [h]) _ _ ?_
      exact foldl_wf _ (fun _ _ h => by simp [h]) _ _ (by simp [h]))

theorem execRdsr_endsCanonical (d a : BitVec 5) : EndsCanonical (execRdsr d a s) :=
  onSupervisor_endsCanonical h (fun _ _ => by dsimp only; (repeat' split) <;> simp [h])

theorem execWrsr_endsCanonical (a b : BitVec 5) : EndsCanonical (execWrsr a b s) :=
  onSupervisor_endsCanonical h (fun _ _ => by dsimp only; (repeat' split) <;> simp [h])

theorem execSysregWrite_endsCanonical (root : Bool) (num v : BitVec 64) : EndsCanonical (execSysregWrite root num v s) :=
  (endsCanonical_next _).mpr (by split <;> simp [h])

theorem execTqwait_endsCanonical (d : BitVec 5) : EndsCanonical (execTqwait d s) :=
  onSupervisor_endsCanonical h (fun _ _ => by dsimp only; split <;> simp [h])

/-! ### Wear, errors and mirrors (21, 22) -/

theorem execSamplingIntervalEnd_endsCanonical (readings : List (Nat × BitVec 64 × BitVec 64)) :
    EndsCanonical (execSamplingIntervalEnd readings s) :=
  event_endsCanonical h (State.wearCells_canonical _ h)

theorem execMonitorAlarm_endsCanonical (unit : Nat) : EndsCanonical (execMonitorAlarm unit s) :=
  event_endsCanonical h (by dsimp only; split <;> simp [h])

theorem execSoftError_endsCanonical (place : Store) (double : Bool) : EndsCanonical (execSoftError place double s) :=
  event_endsCanonical h (by (repeat' split) <;> simp [h])

theorem execErrorWindowEnd_endsCanonical : EndsCanonical (execErrorWindowEnd s) :=
  event_endsCanonical h (foldl_wf _ (fun _ _ h => by simp [h]) _ _ h)

theorem execBufferDieFailure_endsCanonical (slot : Nat) : EndsCanonical (execBufferDieFailure slot s) :=
  event_endsCanonical h (foldl_wf _ (fun _ _ h => by dsimp only; split <;> simp [h]) _ _ (by simp [h]))

/-! ### Host ports (23) -/

theorem execFormPartition_endsCanonical (port : Bool) (addr : BitVec 64) : EndsCanonical (execFormPartition port addr s) :=
  layoutCommand_endsCanonical h (fun _ => by dsimp only; (repeat' split) <;> simp [h])

theorem execDissolvePartition_endsCanonical (port : Bool) (addr : BitVec 64) : EndsCanonical (execDissolvePartition port addr s) :=
  layoutCommand_endsCanonical h (fun _ => by dsimp only; (repeat' split) <;> simp [h])

theorem execWriteWpol_endsCanonical (port : Bool) (addr : BitVec 64) : EndsCanonical (execWriteWpol port addr s) :=
  layoutCommand_endsCanonical h (fun _ => by dsimp only; split <;> simp [h])

theorem execWriteCethr_endsCanonical (port : Bool) (addr : BitVec 64) : EndsCanonical (execWriteCethr port addr s) :=
  layoutCommand_endsCanonical h (fun _ => h)

theorem execStageFirmware_endsCanonical (port : Bool) (addr : BitVec 64) : EndsCanonical (execStageFirmware port addr s) :=
  layoutCommand_endsCanonical h (fun _ => by split <;> simp [h])

theorem execLayoutReservedOp_endsCanonical (port : Bool) (op : BitVec 4) (addr : BitVec 64) :
    EndsCanonical (execLayoutReservedOp port op addr s) :=
  event_endsCanonical h h

theorem execLcmdWrite_endsCanonical (port : Bool) (v : BitVec 64) : EndsCanonical (execLcmdWrite port v s) := by
  unfold execLcmdWrite
  split
  · exact execFormPartition_endsCanonical h _ _
  · exact execDissolvePartition_endsCanonical h _ _
  · exact execWriteWpol_endsCanonical h _ _
  · exact execWriteCethr_endsCanonical h _ _
  · exact execStageFirmware_endsCanonical h _ _
  · exact execLayoutReservedOp_endsCanonical h _ _ _

theorem execHostMemoryAccess_endsCanonical (port : Bool) (op : HostAccess) : EndsCanonical (execHostMemoryAccess port op s) := by
  unfold execHostMemoryAccess
  split
  · simpa using h
  · cases op with
    | read pa len => exact event_endsCanonical h (by simp [h])
    | write pa data => exact event_endsCanonical h (by simp [h])
    | readRegister off => exact (endsCanonical_next _).mpr h
    | writeRegister off v =>
      dsimp only
      split
      · split <;> exact event_endsCanonical h h
      · split
        · exact execLcmdWrite_endsCanonical h _ _
        · simpa using h

/-- A reset keeps the bytes of host memory, and brings up the package with them (23 R432). -/
theorem execPackageReset_endsCanonical (test : SelfTest) : EndsCanonical (execPackageReset test s) :=
  (endsCanonical_next _).mpr (by rw [State.bringUp_mem]; exact memoryWf_filter _ _ h)

end

/-! ## The step -/

theorem execBrk_endsCanonical {s : State} (h : memoryWf s.mem = true) (code : BitVec 10) : EndsCanonical (execBrk code s) := by
  unfold execBrk
  split
  · split <;> simp [h]
  · exact onA_endsCanonical h (fun _ _ => by simp [h])

/-- Every instruction and event keeps the canonical form of memory. -/
theorem exec_endsCanonical (i : Instr) {s : State} (h : memoryWf s.mem = true) : EndsCanonical (exec i s) := by
  unfold exec
  cases i with
  | ret | halt | madd | st | pref | cadrG | cadrB | pchk | rdcyc | xlat | exit | retShort =>
    exact onA_endsCanonical h (fun _ _ => by simp [h])
  | mov | fence => exact onA_endsCanonical h (fun _ _ => by (repeat' split) <;> simp [h])
  | cread | cstat | tinfo => exact onCell_endsCanonical h (fun _ _ => by simp [h])
  | bqpush | cset => exact onCell_endsCanonical h (fun _ _ => by split <;> simp [h])
  | rdgcyc | realign => exact onCellTime_endsCanonical h (fun _ _ => by simp [h])
  | nop | exitShort => exact onBoth_endsCanonical h (fun _ _ => by simp [h]) (fun _ _ _ ht => by simp [ht])
  | moveTransport | xseqOperationComplete | xseqFreezeEnd | bqEntryVisible | drainCheckResolve | granuleCommit
  | twaitExpiry | gbarRelease | replicaStep | cellHalt | launchCompletion | gangBaseCycle | streamCompletion | gangExit
  | mirrorTimeout | wqcfgWrite | patrolScrub | mirrorAck | hsemAcquire | hsemRelease | getVersion | getCapabilities
  | negotiateAlgorithms | getDigests | getCertificate | challenge | getMeasurements | pskExchange | mirrorWriteReceive
  | arrayUndervolt | ideKmKeyProg | lifetimeCommit => exact event_endsCanonical h (by simp [h])
  | tqheadWrite | hostLinkDown | hostLinkUp | packageLinkUp =>
    exact (endsCanonical_next _).mpr (by simp [h])
  | brk => exact execBrk_endsCanonical h _
  | blkImmediate | blkRegister => exact blockHeader_endsCanonical h
  | br | bz | bnz | brShort => exact branch_endsCanonical h
  | dcbnz | dcbnzShort => exact decrementBranch_endsCanonical h
  | call | callr => exact callTo_endsCanonical h
  | bqt | bqf | bqtShort => exact popBranch_endsCanonical h
  | addShort | movShort | subShort | add | sub | and | or | xor | andn | shl | shr | sra | slt | sltu | min | max | minu
  | maxu | clz | ffs | popc | padd | psub | bfx | mul | mulh | mulhu | div | rem | divu | remu =>
    exact aluOp_endsCanonical h
  | addiShort | addi | andi | ori | xori | shli | shri | srai | slti | sltiu | mini | maxi | seqi =>
    exact aluImm_endsCanonical h
  | cwaitShort | cwait | cwaitlt => exact counterWait_endsCanonical h
  | cincShort | cinc => exact counterAdd_endsCanonical h
  | tnextShort | tnext => exact tileNext_endsCanonical h
  | li | lsh | lown | lpc => exact aluWide_endsCanonical h
  | mvShort | mv | mvi => exact issueMove_endsCanonical h
  | ld | lds => exact scalarLoad_endsCanonical h
  | loadReturn => exact execLoadReturn_endsCanonical h _ _
  | qld | qldi => exact queueLoad_endsCanonical h
  | qst | qsti => exact queueStore_endsCanonical h
  | queueLoadFill => exact execQueueLoadFill_endsCanonical h _ _
  | bind => exact execBind_endsCanonical h _ _ _
  | unbind => exact execUnbind_endsCanonical h _ _
  | acq => exact execAcq_endsCanonical h _ _ _ _
  | rel => exact execRel_endsCanonical h _ _ _
  | xfer => exact execXfer_endsCanonical h _ _ _ _
  | oinit => exact execOinit_endsCanonical h _ _
  | releasePerformed => exact execReleasePerformed_endsCanonical h _ _
  | xferPerformed => exact execXferPerformed_endsCanonical h _ _
  | crinc => exact execCrinc_endsCanonical h _ _ _
  | tinv | tval => exact tagSet_endsCanonical h
  | tread => exact execTread_endsCanonical h _ _
  | crincArrival => exact execCrincArrival_endsCanonical h _ _
  | amo | red | swap | cas => exact atomicForm_endsCanonical h
  | atomicPerform => exact execAtomicPerform_endsCanonical h _ _
  | accalloc => exact execAccalloc_endsCanonical h _ _
  | accfree => exact execAccfree_endsCanonical h _ _
  | mxmm | mxld | mxclr | mxmma | mxmv | mxmark | mxmarkStamped | mxdrn | mxepl | mxcks | mxdrs | mxshp | mxcv =>
    exact matrixForm_endsCanonical h
  | vadd | vsub | vmul | vfma | vmin | vmax | vdiv | vsqrt | vsgn | vcmp | vrsc | vrst | viadd | visub | vimul | vilog
  | vishf | vicmp | vsel | vcvt | vred | vdot | vscan | vbcast => exact vectorForm_endsCanonical h
  | mpush => exact execMpush_endsCanonical h _ _
  | minv | mpop | mpopShort | minvShort => exact maskForm_endsCanonical h
  | bmz => exact execBmz_endsCanonical h _
  | tfn | tfnx | tver | tvchk => exact tableForm_endsCanonical h
  | cpy | cpy2 | cfill | cpym | cpym2 | ccrc => exact copyForm_endsCanonical h
  | gth | sct | gred => exact gatherForm_endsCanonical h
  | topk | psort | gscan | ghist | rndh => exact sortForm_endsCanonical h
  | lred | lopen | lord => exact linkForm_endsCanonical h
  | lwag => exact execLwag_endsCanonical h _ _ _ _ _
  | lordArrival => exact execLordArrival_endsCanonical h _ _
  | waggleArrival => exact execWaggleArrival_endsCanonical h _ _
  | engineCommandStart => exact execEngineCommandStart_endsCanonical h _ _
  | tagWait => exact execTagWait_endsCanonical h _ _
  | translationReply => exact execTranslationReply_endsCanonical h _ _ _
  | stampStart => exact execStampStart_endsCanonical h _ _
  | engineCommandComplete => exact execEngineCommandComplete_endsCanonical h _ _
  | rdtinf => exact execRdtinf_endsCanonical h _ _
  | twait => exact execTwait_endsCanonical h _ _
  | realignResume => exact execRealignResume_endsCanonical h _
  | klaunch | sxin | sxout => exact streamIssue_endsCanonical h
  | swait => exact execSwait_endsCanonical h _ _
  | evget | evgetNb => exact eventGet_endsCanonical h
  | lcancel => exact execLcancel_endsCanonical h _
  | tret | tretEmu | tretKill => exact trapReturn_endsCanonical h
  | tqwait => exact execTqwait_endsCanonical h _
  | rdsr => exact execRdsr_endsCanonical h _ _
  | wrsr => exact execWrsr_endsCanonical h _ _
  | ibinv => exact execIbinv_endsCanonical h _
  | cpatch => exact execCpatch_endsCanonical h _ _ _
  | pswap => exact execPswap_endsCanonical h _ _ _
  | ctxsv => exact execCtxsv_endsCanonical h _ _ _
  | ctxld => exact execCtxld_endsCanonical h _ _
  | ptupd => exact execPtupd_endsCanonical h _ _ _
  | tlbinv => exact execTlbinv_endsCanonical h _ _
  | wqry => exact execWqry_endsCanonical h _ _ _
  | wset => exact execWset_endsCanonical h _ _ _
  | scanComplete => exact execScanComplete_endsCanonical h _
  | pswapExchange => exact execPswapExchange_endsCanonical h _
  | restoredGangDispatch => exact execRestoredGangDispatch_endsCanonical h _
  | wqTailWrite => exact execWqTailWrite_endsCanonical h _ _
  | wqCancel => exact execWqCancel_endsCanonical h _ _
  | launchStart => exact execLaunchStart_endsCanonical h _
  | kernelEligible => exact execKernelEligible_endsCanonical h _ _
  | gangDispatch => exact execGangDispatch_endsCanonical h _ _
  | streamTransfer => exact execStreamTransfer_endsCanonical h _ _
  | cellExit => exact execCellExit_endsCanonical h _
  | samplingIntervalEnd => exact execSamplingIntervalEnd_endsCanonical h _
  | contextSaveComplete => exact execContextSaveComplete_endsCanonical h _
  | scalarWritePerformed => exact execScalarWritePerformed_endsCanonical h _ _
  | sysregWrite => exact execSysregWrite_endsCanonical h _ _ _
  | packageReset => exact execPackageReset_endsCanonical h _
  | monitorAlarm => exact execMonitorAlarm_endsCanonical h _
  | bufferDieFailure => exact execBufferDieFailure_endsCanonical h _
  | eyeMarginPrediction => exact execEyeMarginPrediction_endsCanonical h _
  | hostMemoryAccess => exact execHostMemoryAccess_endsCanonical h _ _
  | formPartition => exact execFormPartition_endsCanonical h _ _
  | dissolvePartition => exact execDissolvePartition_endsCanonical h _ _
  | writeWpol => exact execWriteWpol_endsCanonical h _ _
  | writeCethr => exact execWriteCethr_endsCanonical h _ _
  | stageFirmware => exact execStageFirmware_endsCanonical h _ _
  | layoutReservedOp => exact execLayoutReservedOp_endsCanonical h _ _ _
  | softError => exact execSoftError_endsCanonical h _ _
  | gbar => exact execGbar_endsCanonical h
  | launchAgeing => exact execLaunchAgeing_endsCanonical h
  | errorWindowEnd => exact execErrorWindowEnd_endsCanonical h

/-- The turn of an agent: its word, the trap of its fetch, or a cycle of the last word. -/
theorem State.turn_endsCanonical {s : State} (h : memoryWf s.mem = true) : EndsCanonical s.turn := by
  have issued (i : Instr) : EndsCanonical (exec i (s.fetched i)) := exec_endsCanonical i (by simpa using h)
  unfold State.turn
  split
  · split
    · simp
    · split
      · simpa using h
      · split
        · simpa using h
        · split
          · exact issued _
          · simpa using h
          · exact (endsCanonical_next _).mpr (State.fetch_wf h ‹_›)
          · simp
  · split
    · simp
    · split
      · simpa using h
      · split
        · exact issued _
        · simpa using h
        · exact (endsCanonical_next _).mpr (State.fetch_wf h ‹_›)
        · simp

theorem step_endsCanonical {s : State} (h : memoryWf s.mem = true) : EndsCanonical (step s) := by
  unfold step
  split
  · exact exec_endsCanonical _ h
  · split
    · exact exec_endsCanonical _ h
    · split
      · exact State.turn_endsCanonical h
      · exact exec_endsCanonical _ h
      · exact (endsCanonical_next _).mpr (State.tick_wf _ h)

/-- Settles O6: every instruction, every event and the end of a cycle changes memory by operations that keep its form. -/
theorem stepKeepsMemoryCanonical : Obligations.StepKeepsMemoryCanonical := fun _ t h e => step_endsCanonical h t e

end Sys2Proof.Machine
end

section
/-! PROOFS. Where a form traps that is out of its place (00 R10, 03 R49, 18 R346, R355). -/

namespace Sys2Proof.Machine

/-! ## What the frames of meanings answer out of place -/

/-- With no access outstanding no register waits. -/
theorem Issues.of_no_access {s : State} {ag : Agent} {q : ASeq} (hf : s.focus = ag) (hx : ∀ k, ag ≠ .xseq k)
    (hi : s.issuing ag = true) (hq : s.aseq? ag = some q) (ho : q.out = []) (use : List (BitVec 5)) : Issues s ag q use :=
  ⟨hf, hx, hi, hq, by simp [ASeq.pending, ho]⟩

theorem CoreIssues.of_issues {s : State} {k : Nat} {q : ASeq} {use : List (BitVec 5)} (h : Issues s (.core k) q use) :
    CoreIssues s k use := by
  obtain ⟨focus, -, issuing, state, ready⟩ := h
  simp only [State.aseq?, Option.ite_none_right_eq_some, Option.some.injEq] at state
  exact ⟨focus, issuing, state.2 ▸ ready⟩

theorem onSupervisor_of_denied {s : State} {ag : Agent} {q : ASeq} {use : List (BitVec 5)} {major minor : Nat}
    {k : Nat → Core → State} (h : Issues s ag q use) (hp : ∀ n, ag = .core n → (s.core n).priv = .user) :
    onSupervisor s use major minor k = .next (s.privilegeTrap ag major minor) := by
  unfold onSupervisor
  rw [onA_of_issues h]
  split
  · rw [if_pos (hp _ rfl)]
  · rfl

theorem onCore_of_cell {s : State} {key : Nat} {q : ASeq} {use : List (BitVec 5)} {major minor : Nat} {k : Nat → Core → State}
    (h : Issues s (.aseq key) q use) : onCore s use major minor k = .next (s.unitAbsent (.aseq key) major minor) := by
  unfold onCore
  rw [onA_of_issues h]

theorem onCell_of_core {s : State} {n : Nat} {q : ASeq} {use : List (BitVec 5)} {major minor : Nat} {short : Bool}
    {k : Nat → Cell → State} (h : Issues s (.core n) q use) :
    onCell s use major minor short k = .next (s.unitAbsent (.core n) major minor short) := by
  unfold onCell
  rw [onA_of_issues h]

theorem onEngine_of_core {s : State} {n : Nat} {q : ASeq} {i : Instr} {types : List CellType} {k : Nat → Cell → List Word → State}
    (h : Issues s (.core n) q i.captured) :
    onEngine i types s k = .next (s.unitAbsent (.core n) i.opcode.1 i.opcode.2 i.isShort) := by
  unfold onEngine
  rw [onA_of_issues h]

theorem popBranch_of_core {s : State} {n : Nat} {q : ASeq} {w size minor : Nat} {off : BitVec w} {want : Bool}
    (h : Issues s (.core n) q []) :
    popBranch size minor off want s = .next (s.unitAbsent (.core n) 0x01 minor (size == 2)) := by
  unfold popBranch
  rw [h.focus]
  exact onCell_of_core h

/-- The word of the form in INFO (18 R346). -/
theorem State.privilegeTrap_info (s : State) (ag : Agent) (major minor : Nat) :
    s.privilegeTrap ag major minor = s.raiseTrap ag 0x01 0 .fatal (BitVec.ofNat 64 (16 * major + minor)) 0 := by
  simp [State.privilegeTrap, wordInfo, Nat.mul_comm]

theorem State.unitAbsent_info (s : State) (ag : Agent) (major minor : Nat) (short : Bool) :
    s.unitAbsent ag major minor short =
      s.raiseTrap ag 0x04 0 .fatal (BitVec.ofNat 64 (512 * short.toNat + 16 * major + minor)) 0 := by
  simp [State.unitAbsent, wordInfo, Nat.mul_comm]

/-! ## The forms by their tables (17 Table 17-9, 18 R355) -/

section
variable {s : State} {ag : Agent} {q : ASeq} (h : ∀ use, Issues s ag q use)
include h

theorem exec_supervisorForm_denied {i : Instr} {m : Nat} (hm : supervisorMinor i = some m)
    (hp : ∀ n, ag = .core n → (s.core n).priv = .user) : exec i s = .next (s.privilegeTrap ag 0x1D m) := by
  cases i with
  | tret | tretEmu | tretKill =>
    cases hm
    dsimp only [exec, execTret, execTretEmu, execTretKill, trapReturn]
    exact onSupervisor_of_denied (h _) hp
  | tqwait | rdsr | wrsr | ibinv | cpatch | pswap | ctxsv | ctxld | ptupd | tlbinv | wqry | wset =>
    cases hm
    dsimp only [exec]
    exact onSupervisor_of_denied (h _) hp
  | _ => cases hm

theorem exec_launchForm_of_cell {key : Nat} (hk : ag = .aseq key) {i : Instr} {m : Nat} (hm : launchMinor i = some m) :
    exec i s = .next (s.unitAbsent ag 0x1C m) := by
  subst hk
  cases i with
  | klaunch | sxin | sxout | swait | evget | evgetNb | lcancel =>
    cases hm
    dsimp only [exec, execKlaunch, execSxin, execSxout, streamIssue, execSwait, execLcancel, onHandle, execEvget, execEvgetNb, eventGet]
    exact onCore_of_cell (h _)
  | _ => cases hm

theorem exec_cellForm_of_core {n : Nat} (hn : ag = .core n) {i : Instr} {major minor : Nat} {short : Bool}
    (hm : cellForm i = some (major, minor, short)) : exec i s = .next (s.unitAbsent ag major minor short) := by
  subst hn
  cases i with
  | bqt | bqf | bqtShort =>
    cases hm
    dsimp only [exec]
    exact popBranch_of_core (h _)
  | mpush | minv | minvShort | mpop | mpopShort | bmz =>
    cases hm
    dsimp only [exec, execMpush, execMinv, execMinvShort, execMpop, execMpopShort, maskForm, execBmz]
    exact onEngine_of_core (h _)
  | qld | qst | qldi | qsti | cwait | cwaitShort | cwaitlt | cinc | cincShort | tinv | tval | accalloc | accfree | tnext | tnextShort =>
    cases hm
    dsimp only [exec, execQld, execQldi, queueLoad, execQst, execQsti, queueStore, execCwait, execCwaitShort, execCwaitlt, counterWait,
      execCinc, execCincShort, counterAdd, execTinv, execTval, tagSet, execAccalloc, execAccfree, onMatrix, execTnext, execTnextShort,
      tileNext]
    exact onCell_of_core (h _)
  | bqpush | bind | unbind | xfer | crinc | cset | cread | cstat | tread | tinfo | gbar =>
    cases hm
    dsimp only [exec]
    exact onCell_of_core (h _)
  | _ => cases hm

end

/-- wset is root's alone: below root level it takes the privilege trap (21 R413). -/
theorem exec_wset_of_supervisor {s : State} {n : Nat} (d a b : BitVec 5) (h : CoreIssues s n [d, a, b])
    (hp : (s.core n).priv = .supervisor) : exec (.wset d a b) s = .next (s.privilegeTrap (.core n) 0x1D 0xD) := by
  have hu : (s.core n).priv ≠ .user := by simp [hp]
  have hr : (s.core n).priv ≠ .root := by simp [hp]
  dsimp only [exec]
  unfold execWset
  rw [onSupervisor_of_issues h hu, if_pos hr]

/-- Settles O43: the frame of each form names the trap, and with no access outstanding nothing delays it. -/
theorem formsTrapOutOfPlace : Obligations.FormsTrapOutOfPlace := by
  intro i s ag q hf hx hi hq ho
  have issues (use : List (BitVec 5)) : Issues s ag q use := .of_no_access hf hx hi hq ho use
  refine ⟨fun m hm hp => ?_, fun k d a b e hk hp => ?_, fun m key hm hk => ?_, fun major minor short k hm hk => ?_⟩
  · rw [exec_supervisorForm_denied issues hm hp, State.privilegeTrap_info]
  · subst e hk
    rw [exec_wset_of_supervisor d a b (.of_issues (issues _)) hp, State.privilegeTrap_info]
  · rw [exec_launchForm_of_cell issues hk hm, State.unitAbsent_info]
    simp
  · rw [exec_cellForm_of_core issues hk hm, State.unitAbsent_info]

end Sys2Proof.Machine
end

section
/-! PROOFS. Writes of system registers and frame words change what the access codes let their writer write (00 R6, 17 R327, 18 R349,
R357). -/

namespace Sys2Proof.Machine

/-! ## Fields of words -/

/-- The mask of the `w` bits from bit `lo` up keeps that field in its place. -/
theorem toNat_and_field (x : Word) {lo w : Nat} (m : Word) (hm : m.toNat = 2 ^ lo * (2 ^ w - 1)) :
    (x &&& m).toNat = x.toNat / 2 ^ lo % 2 ^ w * 2 ^ lo := by
  rw [BitVec.toNat_and, hm]
  refine Nat.eq_of_testBit_eq fun j => ?_
  simp only [Nat.testBit_and, Nat.testBit_two_pow_mul, Nat.testBit_mul_two_pow, Nat.testBit_two_pow_sub_one, Nat.testBit_mod_two_pow,
    Nat.testBit_div_two_pow]
  by_cases hj : lo ≤ j
  · simp [hj, Bool.and_comm]
  · simp [hj]

/-- Words without a bit in common: their union is their sum. -/
theorem toNat_or_of_disjoint (x y : Word) (h : x &&& y = 0) : (x ||| y).toNat = x.toNat + y.toNat := by
  rw [← BitVec.add_eq_or_of_and_eq_zero x y h, BitVec.toNat_add_of_and_eq_zero h]

/-- Fields of two words under masks without a bit in common: their union is their sum. -/
theorem toNat_or_fields (x y : Word) {m n : Word} (h : m &&& n = 0) :
    ((x &&& m) ||| (y &&& n)).toNat = (x &&& m).toNat + (y &&& n).toNat := by
  refine toNat_or_of_disjoint _ _ ?_
  calc (x &&& m) &&& (y &&& n) = (x &&& y) &&& (m &&& n) := by ac_rfl
    _ = 0 := by rw [h]; exact BitVec.and_zero

/-- A bit of `old` that a 1 clears. -/
theorem toNat_clearedBit (old v : Word) {lo : Nat} {m : Word} (hm : m.toNat = 2 ^ lo) (hlo : lo < 64) :
    ((old &&& ~~~v) &&& m).toNat = old.toNat / 2 ^ lo % 2 * (1 - v.toNat / 2 ^ lo % 2) * 2 ^ lo := by
  have bit (x : Word) : x.toNat / 2 ^ lo % 2 = (x.getLsbD lo).toNat := by
    rw [← BitVec.testBit_toNat, Nat.toNat_testBit]
  rw [toNat_and_field _ (lo := lo) (w := 1) m (by omega), Nat.pow_one]
  simp only [bit, BitVec.getLsbD_and, BitVec.getLsbD_not, hlo, decide_true, Bool.true_and]
  cases old.getLsbD lo <;> cases v.getLsbD lo <;> rfl

theorem eq_ofNat_of_toNat_eq {x : Word} {n : Nat} (h : x.toNat = n) : x = BitVec.ofNat 64 n := by
  rw [← h, BitVec.ofNat_toNat, BitVec.setWidth_eq]

/-- The fields of TQCFG: EN and BASE (18 R349). -/
theorem tqcfg_fields (v y : Word) : (v &&& 0x8000000000000000) ||| (y &&& 0x0000FFFFFFFFC000) =
    BitVec.ofNat 64 (v.toNat / 2 ^ 63 * 2 ^ 63 + y.toNat / 2 ^ 14 % 2 ^ 34 * 2 ^ 14) := by
  have hen : (v &&& 0x8000000000000000).toNat = v.toNat / 2 ^ 63 * 2 ^ 63 := by
    have := v.isLt
    rw [toNat_and_field v (lo := 63) (w := 1) _ (by decide)]
    omega
  refine eq_ofNat_of_toNat_eq ?_
  rw [toNat_or_fields v y (by decide), hen, toNat_and_field y (lo := 14) (w := 34) _ (by decide)]

/-- The fields of WQTAB: bits 0 and 47 to 20 as written, and bit 1 cleared by a 1. -/
theorem wqtab_fields (v old : Word) : (v &&& 0x0000FFFFFFF00001) ||| (old &&& 2#64 &&& ~~~v) = BitVec.ofNat 64
    (v.toNat % 2 + (old.toNat / 2 % 2) * (1 - v.toNat / 2 % 2) * 2 + v.toNat / 2 ^ 20 % 2 ^ 28 * 2 ^ 20) := by
  have hv : (v &&& 0x0000FFFFFFF00001).toNat = v.toNat % 2 + v.toNat / 2 ^ 20 % 2 ^ 28 * 2 ^ 20 := by
    rw [show (0x0000FFFFFFF00001 : Word) = 1 ||| 0x0000FFFFFFF00000 by decide, BitVec.and_or_distrib_left,
      toNat_or_fields v v (by decide), toNat_and_field v (lo := 0) (w := 1) _ (by decide),
      toNat_and_field v (lo := 20) (w := 28) _ (by decide)]
    omega
  refine eq_ofNat_of_toNat_eq ?_
  rw [show old &&& 2#64 &&& ~~~v = (old &&& ~~~v) &&& 2#64 by ac_rfl, toNat_or_fields v _ (by decide), hv,
    toNat_clearedBit old v (lo := 1) (by decide) (by decide), Nat.pow_one]
  omega

/-- The fields of MIRST that a write reaches: TMO as written, and EVT cleared by a 1 (22 R420). -/
theorem mirst_fields (v old : Word) : (v &&& 0xFFFFFF00) ||| (old &&& 1#64 &&& ~~~v) =
    BitVec.ofNat 64 (v.toNat / 2 ^ 8 % 2 ^ 24 * 2 ^ 8 + old.toNat % 2 * (1 - v.toNat % 2)) := by
  refine eq_ofNat_of_toNat_eq ?_
  rw [show old &&& 1#64 &&& ~~~v = (old &&& ~~~v) &&& 1#64 by ac_rfl, toNat_or_fields v _ (by decide),
    toNat_and_field v (lo := 8) (w := 24) _ (by decide), toNat_clearedBit old v (lo := 0) (by decide) (by decide)]
  simp

/-! ## What a number names (18 R357) -/

theorem sysName_register {v : Word} {n idx : Nat} (hv : v.toNat = n * 2 ^ 56 + idx) (hn : n < 8) (hi : idx < 2 ^ 16) :
    sysName v = .register n idx := by
  have h0 : bits v.toNat 63 60 = 0 := by simp only [bits, Nat.shiftRight_eq_div_pow]; omega
  have h1 : bits v.toNat 59 59 = 0 ∧ bits v.toNat 55 16 = 0 := by simp only [bits, Nat.shiftRight_eq_div_pow]; omega
  have h2 : bits v.toNat 58 56 = n := by simp only [bits, Nat.shiftRight_eq_div_pow]; omega
  have h3 : bits v.toNat 15 0 = idx := by simp only [bits, Nat.shiftRight_eq_div_pow]; omega
  simp only [sysName, h0, h1, h2, h3, and_self, if_true]

theorem sysName_frame {v : Word} {gid ci w : Nat} (hv : v.toNat = 2 ^ 60 + gid * 2 ^ 40 + ci * 2 ^ 30 + w) (hg : gid < 1024)
    (hc : ci < 512) (hw : w < 2 ^ 13) : sysName v = .frame gid ci w := by
  have h0 : bits v.toNat 63 60 = 1 := by simp only [bits, Nat.shiftRight_eq_div_pow]; omega
  have h1 : bits v.toNat 59 50 = 0 ∧ bits v.toNat 29 13 = 0 := by simp only [bits, Nat.shiftRight_eq_div_pow]; omega
  have h2 : bits v.toNat 49 40 = gid := by simp only [bits, Nat.shiftRight_eq_div_pow]; omega
  have h3 : bits v.toNat 38 30 = ci := by simp only [bits, Nat.shiftRight_eq_div_pow]; omega
  have h4 : bits v.toNat 12 0 = w := by simp only [bits, Nat.shiftRight_eq_div_pow]; omega
  simp only [sysName, h0, h1, h2, h3, h4, and_self, if_true]

theorem getLsbD_eq_digit (v : Word) (j : Nat) : v.getLsbD j = decide (v.toNat / 2 ^ j % 2 = 1) := by
  rw [← BitVec.testBit_toNat, Nat.testBit_eq_decide_div_mod_eq]

theorem sysNameOk_of_frame {v : Word} {gid ci w : Nat} (hv : v.toNat = 2 ^ 60 + gid * 2 ^ 40 + ci * 2 ^ 30 + w)
    (hc : ci < 512) (hw : w < 2 ^ 13) : sysNameOk v = true := by
  have h : v.toNat / 2 ^ 39 % 2 = 0 := by omega
  rw [sysNameOk, getLsbD_eq_digit, h]
  exact Bool.or_true _

/-- A number with a bit set outside the fields of its kind, or of neither kind. -/
def MalformedNumber (n : Nat) : Prop :=
  2 ^ 61 ≤ n ∨ (n < 2 ^ 60 ∧ (n / 2 ^ 59 ≠ 0 ∨ n / 2 ^ 16 % 2 ^ 40 ≠ 0)) ∨
    (2 ^ 60 ≤ n ∧ (n / 2 ^ 50 % 2 ^ 10 ≠ 0 ∨ n / 2 ^ 39 % 2 ≠ 0 ∨ n / 2 ^ 13 % 2 ^ 17 ≠ 0))

/-- A malformed number names nothing, or a frame with bit 39 set. -/
theorem sysName_of_malformed {v : Word} (hv : MalformedNumber v.toNat) :
    sysName v = .nothing ∨ sysNameOk v = false ∧ ∃ gid ci w, sysName v = .frame gid ci w := by
  unfold MalformedNumber at hv
  by_cases hreg : v.toNat < 2 ^ 60
  · have h0 : bits v.toNat 63 60 = 0 := by simp only [bits, Nat.shiftRight_eq_div_pow]; omega
    have h1 : ¬(bits v.toNat 59 59 = 0 ∧ bits v.toNat 55 16 = 0) := by simp only [bits, Nat.shiftRight_eq_div_pow]; omega
    exact .inl (by simp only [sysName, h0, if_neg h1])
  by_cases hframe : v.toNat < 2 ^ 61
  · have h0 : bits v.toNat 63 60 = 1 := by simp only [bits, Nat.shiftRight_eq_div_pow]; omega
    by_cases h1 : bits v.toNat 59 50 = 0 ∧ bits v.toNat 29 13 = 0
    · have h39 : v.toNat / 2 ^ 39 % 2 = 1 := by
        simp only [bits, Nat.shiftRight_eq_div_pow] at h1
        omega
      refine .inr ⟨?_, bits v.toNat 49 40, bits v.toNat 38 30, bits v.toNat 12 0, by simp only [sysName, h0, if_pos h1]⟩
      rw [sysNameOk, getLsbD_eq_digit, h39, h0]
      rfl
    · exact .inl (by simp only [sysName, h0, if_neg h1])
  · have h2 : 2 ≤ bits v.toNat 63 60 := by
      have := v.isLt
      simp only [bits, Nat.shiftRight_eq_div_pow]
      omega
    refine .inl ?_
    rw [sysName]
    split
    · omega
    · omega
    · rfl

/-! ## wrsr (18 R357) -/

theorem wqPart_eq_digit (w : Word) : wqPart w = w.toNat / 2 ^ 57 % 8 := by simp [wqPart, bits, Nat.shiftRight_eq_div_pow]

/-- What a core that is not at user level may not write. -/
theorem State.deniedWrite_iff {s : State} {c : Core} (hu : c.priv ≠ .user) (p i : Nat) : s.deniedWrite c p i = true ↔
    (c.priv ≠ .root ∧ (p ≠ c.home ∨ i = 0x2200 ∨ ((0x1000 ≤ i ∧ i < 0x2000) ∧ wqPart (s.wq (i - 0x1000)) ≠ c.home))) ∨
      (c.priv = .root ∧ 0x1000 ≤ i ∧ i < 0x2000) := by
  cases hp : c.priv with
  | user => exact absurd hp hu
  | supervisor =>
    simp only [State.deniedWrite, State.denied, hp, Bool.or_eq_true, Bool.and_eq_true, decide_eq_true_eq, bne_iff_ne, beq_iff_eq,
      ne_eq, reduceCtorEq, not_false_eq_true, true_and, false_and, or_false]
    exact or_assoc.trans (or_congr_right or_comm)
  | root => simp [State.deniedWrite, State.denied, hp]

/-- Core `k` goes on to the next word. -/
def State.retires (s : State) (k : Nat) : State := s.setCore k { s.core k with a := (s.core k).a.retire 4 }

@[simp] theorem State.cell?_retires (s : State) (k key : Nat) : (s.retires k).cell? key = s.cell? key := by
  simp [State.retires, State.cell?]

@[simp] theorem State.wq_retires (s : State) (k n : Nat) : (s.retires k).wq n = s.wq n := by
  simp [State.retires, State.wq]

section
variable {s : State} {k : Nat} {a b : BitVec 5} (h : SupervisorIssues s k [a, b])
include h

theorem exec_wrsr_register {p i : Nat} (hn : sysName ((s.core k).a.reg a) = .register p i) : exec (.wrsr a b) s =
    .next (if s.deniedWrite (s.core k) p i then s.privilegeTrap (.core k) 0x1D 0x3
      else (s.retires k).writeSysreg ((s.core k).priv == .root) p i ((s.core k).a.reg b)) := by
  dsimp only [exec]
  unfold execWrsr
  rw [onSupervisor_of_issues h.issues h.level]
  simp only [hn]
  rfl

theorem exec_wrsr_frame {gid ci w : Nat} (hn : sysName ((s.core k).a.reg a) = .frame gid ci w) : exec (.wrsr a b) s =
    .next (if sysNameOk ((s.core k).a.reg a) then
      (s.retires k).writeFrame (cellKey ((s.core k).home * 1024 + gid) ci) w ((s.core k).a.reg b) else s.retires k) := by
  dsimp only [exec]
  unfold execWrsr
  rw [onSupervisor_of_issues h.issues h.level]
  simp only [hn]
  rfl

theorem exec_wrsr_nothing (hn : sysName ((s.core k).a.reg a) = .nothing) : exec (.wrsr a b) s = .next (s.retires k) := by
  dsimp only [exec]
  unfold execWrsr
  rw [onSupervisor_of_issues h.issues h.level]
  simp only [hn]
  rfl

end

/-! ## Frame words (18 R353) -/

theorem State.stoppedCell_eq_none {s : State} {key : Nat} (h : ∀ c, s.cell? key = some c → c.gone = true ∨ c.trap = none) :
    s.stoppedCell key = none := by
  unfold State.stoppedCell
  split
  case h_1 c hc => obtain hg | ht := h c hc <;> simp [*]
  case h_2 => rfl

theorem State.stoppedCell_eq_some {s : State} {key : Nat} {c : Cell} (hc : s.cell? key = some c) (hg : c.gone = false)
    (ht : c.trap.isSome = true) : s.stoppedCell key = some c := by
  simp [State.stoppedCell, hc, hg, ht]

theorem State.writeFrame_of_stopped {s : State} {key : Nat} {c : Cell} (h : s.stoppedCell key = some c) (w : Nat) (v : Word) :
    s.writeFrame key w v = s.setCell key (c.putWord w v) := by
  simp [State.writeFrame, h]

theorem State.writeFrame_of_not_stopped {s : State} {key : Nat} (h : s.stoppedCell key = none) (w : Nat) (v : Word) :
    s.writeFrame key w v = s := by
  simp [State.writeFrame, h]

theorem Cell.putWord_reg (c : Cell) (r : BitVec 5) (v : Word) : c.putWord (0x040 + r.toNat) v = { c with a := c.a.setReg r v } := by
  have hr := r.isLt
  rw [Cell.putWord, if_pos (by omega), Nat.add_sub_cancel_left, BitVec.ofNat_toNat, BitVec.setWidth_eq]

theorem Cell.putWord_gReg (c : Cell) {j : Nat} (h : j < 16) (v : Word) :
    c.putWord (0x070 + j) v = { c with x := { c.x with g := c.x.g.set j v } } := by
  have hj : (0x070 + j) % 16 = j := by omega
  rw [Cell.putWord, if_neg (by omega), if_pos (by omega)]
  simp only [hj]

theorem Cell.putWord_other (c : Cell) {w : Nat} (hw : w < 0x040 ∨ (0x060 ≤ w ∧ w < 0x070) ∨ 0x165 ≤ w) (v : Word) :
    c.putWord w v = c := by
  rw [Cell.putWord, if_neg (by omega), if_neg (by omega), if_neg (by omega), if_neg (by omega), if_neg (by omega), if_neg (by omega)]

/-! ## Registers of a partition (18 Table 18-8) -/

theorem State.freeRecords_of_none {s : State} {p : Nat} (h : (s.part p).heldRecords = []) : s.freeRecords p = s := by
  simp [State.freeRecords, State.drainHeld, h]

theorem State.freeRecords_setPart {s : State} {p : Nat} {x : Partition} (hp : p < 8) (h : x.heldRecords = []) :
    (s.setPart p x).freeRecords p = s.setPart p x :=
  State.freeRecords_of_none (by rw [State.part_setPart hp hp, if_pos rfl, h])

theorem State.writeTqhead_of_no_records {s : State} {p : Nat} (hp : p < 8) (h : (s.part p).heldRecords = []) (v : Word) :
    s.writeTqhead p v = if (v.setWidth 32 - (s.part p).tqhead).toNat ≤ ((s.part p).tqtail - (s.part p).tqhead).toNat then
      s.setPart p { s.part p with tqhead := v.setWidth 32 } else s := by
  unfold State.writeTqhead
  dsimp only
  split
  · exact State.freeRecords_setPart hp h
  · rfl

theorem State.writeTqcfg_of_no_records {s : State} {p : Nat} (hp : p < 8) (h : (s.part p).heldRecords = []) (v : Word) :
    s.writeTqcfg p v = s.setPart p { s.part p with tqcfg := BitVec.ofNat 64 (v.toNat / 2 ^ 63 * 2 ^ 63 +
      (if (s.part p).tqcfg.getLsbD 63 then (s.part p).tqcfg else v).toNat / 2 ^ 14 % 2 ^ 34 * 2 ^ 14) } := by
  unfold State.writeTqcfg Partition.trapEnabled
  dsimp only
  rw [← tqcfg_fields]
  refine (State.freeRecords_setPart hp ?_).trans ?_
  · exact h
  · split <;> rfl

/-- Registers that no write changes, and indices that are not assigned. -/
theorem State.writeSysreg_of_readOnly {idx : Nat} (hi : idx < 0x43 ∨ idx = 0x46 ∨ idx = 0x47 ∨ idx = 0x4A ∨
    (0x4C ≤ idx ∧ idx < 0x1000) ∨ idx = 0x2000 ∨ idx = 0x2001 ∨ (0x2002 ≤ idx ∧ idx ≤ 0x2100) ∨
    (0x2102 ≤ idx ∧ idx ≤ 0x2200) ∨ 0x2202 ≤ idx) (s : State) (root : Bool) (p : Nat) (v : Word) :
    s.writeSysreg root p idx v = s := by
  unfold State.writeSysreg
  dsimp only
  rw [if_neg (by omega)]
  split
  case h_9 => rfl
  all_goals omega

section
variable (s : State) (root : Bool) (p : Nat) (v : Word)

theorem State.writeSysreg_cktol : s.writeSysreg root p 0x43 v =
    s.setPart p { s.part p with cktol := v &&& 0xFFFFFFFF0001FFFF } := by
  unfold State.writeSysreg
  exact if_neg (by decide)

theorem State.writeSysreg_errinj : s.writeSysreg root p 0x44 v =
    if (s.part p).layout.test then s.setPart p { s.part p with errinj := v.setWidth 32 } else s := by
  unfold State.writeSysreg
  exact if_neg (by decide)

theorem State.writeSysreg_fpxthr : s.writeSysreg root p 0x45 v = s.setPart p { s.part p with fpxthr := v } := by
  unfold State.writeSysreg
  exact if_neg (by decide)

theorem State.writeSysreg_tqcfg : s.writeSysreg root p 0x48 v = s.writeTqcfg p v := by
  unfold State.writeSysreg
  exact if_neg (by decide)

theorem State.writeSysreg_tqhead : s.writeSysreg root p 0x49 v = s.writeTqhead p v := by
  unfold State.writeSysreg
  exact if_neg (by decide)

theorem State.writeSysreg_plimit : s.writeSysreg root p 0x4B v =
    s.setPart p { s.part p with plimit := v &&& 0xFFFFFFFF000FFFFF } := by
  unfold State.writeSysreg
  exact if_neg (by decide)

theorem State.writeSysreg_wqtab : s.writeSysreg root p 0x2101 v = s.setPart p { s.part p with
      wqtab := (v &&& 0x0000FFFFFFF00001) ||| ((s.part p).wqtab &&& 2#64 &&& ~~~v) } := by
  unfold State.writeSysreg
  exact if_neg (by decide)

theorem State.writeSysreg_mirst : s.writeSysreg root p 0x2201 v = s.setPart p { s.part p with
      mirst := (v &&& 0xFFFFFF00) ||| ((s.part p).mirst &&& 1#64 &&& ~~~v) } := by
  unfold State.writeSysreg
  exact if_neg (by decide)

end

theorem State.writeSysreg_of_queue {idx : Nat} (hi : 0x1000 ≤ idx ∧ idx < 0x2000) (s : State) (root : Bool) (p : Nat) (v : Word) :
    s.writeSysreg root p idx v = s.writeWqcfg root (idx - 0x1000) v := by
  unfold State.writeSysreg
  exact if_pos hi

theorem exec_sysregWrite {num : Word} {p idx : Nat} (h : sysName num = .register p idx) (root : Bool) (v : Word) (s : State) :
    exec (.sysregWrite root num v) s = .next (s.writeSysreg root p idx v) := by
  dsimp only [exec]
  unfold execSysregWrite
  simp only [h]

theorem exec_tqheadWrite (p : Nat) (v : Word) (s : State) : exec (.tqheadWrite p v) s = .next (s.writeTqhead p v) := by
  dsimp only [exec]
  rw [execTqheadWrite]

/-! ## Queues (17 R327) -/

theorem getD_insert_or_remove (m : AMap Word) (n j : Nat) (x : Word) :
    AMap.getD (if x = 0 then m.remove n else m.insert n x) j 0 = if j = n then x else m.getD j 0 := by
  by_cases hx : x = 0
  · rw [if_pos hx, AMap.getD, AMap.find?_remove]
    split
    · exact hx.symm
    · rfl
  · rw [if_neg hx]
    split
    case isTrue hj => rw [hj, AMap.getD, AMap.find?_insert_self, Option.getD_some]
    case isFalse hj => rw [AMap.getD, AMap.find?_insert_ne _ _ hj, AMap.getD]

theorem State.wq_writeWqcfg_ne {m n : Nat} (h : m ≠ n) (s : State) (root : Bool) (v : Word) :
    (s.writeWqcfg root n v).wq m = s.wq m := by
  unfold State.writeWqcfg State.wq
  dsimp only
  rw [getD_insert_or_remove, if_neg h]

/-- Root gives PART and PORT as the layout in force has them. -/
theorem State.wq_writeWqcfg_root (s : State) (n : Nat) (v : Word) : (s.writeWqcfg true n v).wq n =
    if s.laidOut n v then (s.wq n &&& ~~~0x0F00000000000000#64) ||| (v &&& 0x0F00000000000000#64) else s.wq n := by
  unfold State.writeWqcfg State.wq
  dsimp only
  rw [getD_insert_or_remove, if_pos rfl, if_pos rfl]

/-- The supervisor gives the other fields, of which the place of the ring is held while EN = 1. -/
theorem State.wq_writeWqcfg_supervisor (s : State) (n : Nat) (v : Word) : (s.writeWqcfg false n v).wq n =
    (s.wq n &&& 0x0F00000000000000#64) ||| (v &&& 0xF000000000000000) |||
      ((if (s.wq n).getLsbD 63 then s.wq n else v) &&& 0x00F8FFFFFFFFFFC0#64) := by
  unfold State.writeWqcfg State.wq wqEn
  dsimp only
  rw [getD_insert_or_remove, if_pos rfl, if_neg Bool.false_ne_true]
  split <;> rfl

theorem exec_wqcfgWrite {n : Nat} (hn : n < 4096) (root : Bool) (v : Word) (s : State) :
    exec (.wqcfgWrite root n v) s = .next (s.writeWqcfg root n v) := by
  dsimp only [exec]
  unfold execWqcfgWrite event
  rw [if_pos (decide_eq_true hn)]

theorem State.laidOut_iff (s : State) (n : Nat) (v : Word) : s.laidOut n v = true ↔
    let pt := s.part (v.toNat / 2 ^ 57 % 8)
    pt.formed = true ∧ pt.layout.firstQueue ≤ n ∧ n < pt.layout.firstQueue + pt.layout.queueCount ∧
      pt.layout.port = v.getLsbD 56 := by
  simp [State.laidOut, wqPart_eq_digit, wqPort, and_assoc]

theorem ownerMask_bits : ∀ j < 64, (0x0F00000000000000#64).getLsbD j = decide (56 ≤ j ∧ j < 60) := by decide
theorem controlMask_bits : ∀ j < 64, (0xF000000000000000 : Word).getLsbD j = decide (60 ≤ j) := by decide
theorem placeMask_bits : ∀ j < 64, (0x00F8FFFFFFFFFFC0#64).getLsbD j =
    decide ((51 ≤ j ∧ j < 56) ∨ (6 ≤ j ∧ j < 48)) := by decide

theorem State.wq_writeWqcfg_bit_root {s : State} {n : Nat} {v : Word} (h : s.laidOut n v = true) {j : Nat} (hj : j < 64) :
    ((s.writeWqcfg true n v).wq n).getLsbD j = if 56 ≤ j ∧ j < 60 then v.getLsbD j else (s.wq n).getLsbD j := by
  rw [State.wq_writeWqcfg_root, if_pos h]
  simp only [BitVec.getLsbD_or, BitVec.getLsbD_and, BitVec.getLsbD_not, ownerMask_bits j hj, hj, decide_true, Bool.true_and]
  split <;> simp [*]

theorem State.wq_writeWqcfg_bit_supervisor (s : State) (n : Nat) (v : Word) {j : Nat} (hj : j < 64) :
    ((s.writeWqcfg false n v).wq n).getLsbD j = if 56 ≤ j ∧ j < 60 then (s.wq n).getLsbD j else if 60 ≤ j then v.getLsbD j
      else if (51 ≤ j ∧ j < 56) ∨ (6 ≤ j ∧ j < 48) then (if (s.wq n).getLsbD 63 then s.wq n else v).getLsbD j else false := by
  rw [State.wq_writeWqcfg_supervisor]
  simp only [BitVec.getLsbD_or, BitVec.getLsbD_and, ownerMask_bits j hj, controlMask_bits j hj, placeMask_bits j hj]
  by_cases ho : 56 ≤ j ∧ j < 60
  · have hc : ¬60 ≤ j := by omega
    have hp : ¬((51 ≤ j ∧ j < 56) ∨ (6 ≤ j ∧ j < 48)) := by omega
    simp only [ho, hc, hp, decide_true, decide_false, Bool.and_true, Bool.and_false, Bool.or_false, and_self, if_true]
  by_cases hc : 60 ≤ j
  · have hp : ¬((51 ≤ j ∧ j < 56) ∨ (6 ≤ j ∧ j < 48)) := by omega
    simp only [ho, hc, hp, decide_true, decide_false, Bool.and_true, Bool.and_false, Bool.or_false, Bool.false_or, if_true, if_false]
  by_cases hp : (51 ≤ j ∧ j < 56) ∨ (6 ≤ j ∧ j < 48)
  · simp only [ho, hc, hp, decide_true, decide_false, Bool.and_true, Bool.and_false, Bool.false_or, if_true, if_false]
  · simp only [ho, hc, hp, decide_false, Bool.and_false, Bool.or_false, if_false]

/-! ## The obligation -/

section
variable {s : State} {k : Nat} {a b : BitVec 5} (h : SupervisorIssues s k [a, b]) {p i gid ci w : Nat}
include h

/-- A write of a register that is not denied is the write of the register (18 R357). -/
theorem exec_wrsr_allowed (hn : sysName ((s.core k).a.reg a) = .register p i) (hd : ¬s.deniedWrite (s.core k) p i = true) :
    exec (.wrsr a b) s = .next ((s.retires k).writeSysreg (decide ((s.core k).priv = .root)) p i ((s.core k).a.reg b)) := by
  rw [exec_wrsr_register h hn, if_neg hd]
  cases (s.core k).priv <;> rfl

theorem exec_wrsr_of_malformed (hv : MalformedNumber ((s.core k).a.reg a).toNat) :
    exec (.wrsr a b) s = .next (s.retires k) := by
  obtain hnone | ⟨hok, gid, ci, w, hf⟩ := sysName_of_malformed hv
  · exact exec_wrsr_nothing h hnone
  · rw [exec_wrsr_frame h hf, hok, if_neg Bool.false_ne_true]

variable (hn : sysName ((s.core k).a.reg a) = .frame gid ci w) (hok : sysNameOk ((s.core k).a.reg a) = true)
include hn hok

/-- A frame outside a stopped cell takes no write (log 89). -/
theorem exec_wrsr_frame_of_not_stopped
    (hc : ∀ c, s.cell? (cellKey ((s.core k).home * 1024 + gid) ci) = some c → c.gone = true ∨ c.trap = none) :
    exec (.wrsr a b) s = .next (s.retires k) := by
  rw [exec_wrsr_frame h hn, if_pos hok,
    State.writeFrame_of_not_stopped (State.stoppedCell_eq_none (s := s.retires k) (by simpa using hc))]

theorem exec_wrsr_frame_of_stopped {c : Cell} (hc : s.cell? (cellKey ((s.core k).home * 1024 + gid) ci) = some c)
    (hg : c.gone = false) (ht : c.trap.isSome = true) : exec (.wrsr a b) s =
    .next ((s.retires k).setCell (cellKey ((s.core k).home * 1024 + gid) ci) (c.putWord w ((s.core k).a.reg b))) := by
  rw [exec_wrsr_frame h hn, if_pos hok,
    State.writeFrame_of_stopped (State.stoppedCell_eq_some (s := s.retires k) (by simpa using hc) hg ht)]

end

/-- Settles O48: a number names a register, a stopped cell's frame or nothing, and the masks of the model keep the fields that
the access codes give to the writer. The denial of a write comes before the judging of its index (log 88). -/
theorem systemRegistersAreWritten : Obligations.SystemRegistersAreWritten := by
  refine ⟨fun a b s k h => ⟨fun n idx hv hn hi => ?_, exec_wrsr_of_malformed h, fun gid ci w hv hg hc hw => ?_⟩,
    fun root n idx v s hn hi => ?_, fun n v s hn hr => ?_, fun root n v s hn => ⟨fun hroot hl => ?_, fun hl => ?_⟩⟩
  · have name := sysName_register hv hn hi
    have denied := State.deniedWrite_iff (s := s) h.level n idx
    rw [wqPart_eq_digit] at denied
    refine ⟨fun hden => ?_, fun hq hok => ?_, fun hq hroot hnp hpart => ?_⟩
    · simp only [decide_eq_false_iff_not, decide_eq_true_eq] at hden
      rw [exec_wrsr_register h name, if_pos (denied.mpr hden), State.privilegeTrap_info]
    · simp only [decide_eq_true_eq] at hok
      refine (exec_wrsr_allowed h name fun hd => ?_).trans (exec_sysregWrite name _ _ _).symm
      obtain ⟨hns, hwhy⟩ | ⟨-, hqueue⟩ := denied.mp hd
      · obtain ⟨hnp, hne⟩ := hok.resolve_left hns
        obtain hother | hcethr | ⟨hqueue, -⟩ := hwhy
        · exact hother hnp
        · exact hne hcethr
        · exact hq hqueue
      · exact hq hqueue
    · refine (exec_wrsr_allowed h name fun hd => ?_).trans ?_
      · simp only [decide_eq_false_iff_not] at hroot
        obtain ⟨-, hother | hcethr | ⟨-, hpart'⟩⟩ | ⟨hr, -⟩ := denied.mp hd
        · exact hother hnp
        · omega
        · exact hpart' hpart
        · exact hroot hr
      · rw [hroot, exec_wqcfgWrite (by omega), State.writeSysreg_of_queue hq]
        rfl
  · have hok := sysNameOk_of_frame hv hc hw
    have name := sysName_frame hv hg hc hw
    refine ⟨exec_wrsr_frame_of_not_stopped h name hok, fun c hcell hgone htrap => ?_⟩
    have written := exec_wrsr_frame_of_stopped h name hok hcell hgone htrap
    refine ⟨fun r hwr => written.trans ?_, fun j hj hwj => written.trans ?_, fun hwo => written.trans ?_⟩
    · rw [hwr, Cell.putWord_reg]
      rfl
    · rw [hwj, Cell.putWord_gReg c hj]
      rfl
    · rw [Cell.putWord_other c hwo]
      rfl
  · have hv : (BitVec.ofNat 64 (n * 2 ^ 56 + idx)).toNat = n * 2 ^ 56 + idx := by
      rw [BitVec.toNat_ofNat]
      omega
    have written := exec_sysregWrite (sysName_register hv hn hi) root v s
    refine ⟨fun hro => written.trans ?_, fun e => ?_, fun e => ?_, fun e => ?_, fun e hr => written.trans ?_,
      fun e => written.trans ?_, fun e => ?_, fun e => written.trans ?_, fun e => written.trans ?_⟩
    · rw [State.writeSysreg_of_readOnly hro]
    · exact written.trans (by rw [e, State.writeSysreg_cktol])
    · exact written.trans (by rw [e, State.writeSysreg_errinj])
    · exact written.trans (by rw [e, State.writeSysreg_fpxthr])
    · rw [e, State.writeSysreg_tqcfg, State.writeTqcfg_of_no_records hn hr]
    · rw [e, State.writeSysreg_tqhead, exec_tqheadWrite]
    · exact written.trans (by rw [e, State.writeSysreg_plimit])
    · rw [e, State.writeSysreg_wqtab, wqtab_fields]
    · rw [e, State.writeSysreg_mirst, mirst_fields]
  · rw [exec_tqheadWrite, State.writeTqhead_of_no_records hn hr]
  · refine ⟨_, exec_wqcfgWrite hn root v s, rfl, fun m => ?_⟩
    by_cases hm : m = n
    · rw [hm, hroot, State.wq_writeWqcfg_root, if_neg (mt (s.laidOut_iff n v).mp hl)]
    · exact State.wq_writeWqcfg_ne hm s root v
  · refine ⟨_, exec_wqcfgWrite hn root v s, rfl, fun m hm => State.wq_writeWqcfg_ne hm s root v, fun j hj => ?_⟩
    cases root with
    | false => exact State.wq_writeWqcfg_bit_supervisor s n v hj
    | true => exact State.wq_writeWqcfg_bit_root ((s.laidOut_iff n v).mpr (hl.resolve_left (by decide))) hj

end Sys2Proof.Machine
end
